-- ==== Sys2Proof/Word.lean ====
section
/-!
DEFINITION. The register word of the device and its plainest forms.
-/
namespace Sys2Proof

/-- A register is 32 bits wide (00 R4). -/
abbrev Word := BitVec 32

/-- One byte of a memory. -/
abbrev Byte := BitVec 8

/-- The word whose unsigned value is `n` modulo 2^32. -/
abbrev word (n : Nat) : Word := BitVec.ofNat 32 n

end Sys2Proof
end

