-- ==== Sys2Proof/Syntax.lean ====
section
/-!
DEFINITION. The commands of the device: one constructor per row of spec/opcode_table.json, with the operands
the spec gives it. `b` is the booth a command was posted on; its payload stands in the booth's request area.
-/
namespace Sys2Proof

/-- Who issues a write or a read (00 R3, 02 R50). -/
inductive Writer where
  /-- The Warden. -/
  | warden
  /-- The Tally, acting on its ladder. -/
  | tally
  /-- The host through PF0 or PF1. -/
  | host (pf : Nat)
  /-- A station of the Bough, by station ID: a design station, a tile group, a porter channel. -/
  | station (id : Nat)
  /-- The slave of the service port (02 R52). -/
  | service
  /-- The debug station, driven by its owner: 1 JTAG, 2 PF0 (18 R533). -/
  | debug (owner : Nat)
  deriving DecidableEq, Repr

/-- A firmware image as the Warden reads it from its source (02 R66). -/
structure FwImage where
  version : Nat
  level : Nat
  format : Nat
  length : Nat
  epoch : Nat
  digest : List Word
  sig : List Word
  /-- Data of the source was answered POISON. -/
  poisoned : Bool
  deriving DecidableEq, Repr

/-- A clock source or loop whose ready or lock flag rises (03 R79). -/
inductive ClockSource where
  | sosc
  | fosc
  | xin (x : Nat)
  | srl
  | tl
  | lrl (l : Nat)
  | dcl (die : Nat)
  | ful (grove loop : Nat)
  /-- Lane reference input `n` of lane die `l` present. -/
  | refin (l n : Nat)
  /-- The reference input on a service pin in range. -/
  | pinRef
  deriving DecidableEq, Repr

/-- A PTP message that the Warden takes (15 R475). -/
inductive PtpMsg where
  /-- Announce: the sender's portIdentity and clockClass, and the portState that the alternate BMCA gives the port. -/
  | announce (parent clockClass portState : Nat)
  /-- Sync with its measured offset from master. -/
  | sync (offset : Int)
  /-- Delay_Resp with the mean path delay it gives. -/
  | delayResp (delay : Nat)
  | delayReq
  deriving DecidableEq, Repr

/-- What both ends of a link unit find in one training round (07 R209-R211): end A is the end the command names. -/
structure TrainRound where
  /-- Phase 1 found a clean clock, and two copies of the peer's width word agreed, at both ends. -/
  heard : Bool
  /-- Wires that the receivers of ends A and B marked bad: one number for a trunk port or bundle, eight, by group,
  for a crossing. -/
  badA : List Nat
  badB : List Nat
  /-- Physical wires most recently marked bad. -/
  wireA : Nat
  wireB : Nat
  /-- Phase 5 found no error; for a crossing, mask of the groups whose check failed. -/
  checkOk : Bool
  failedGroups : Nat
  deriving DecidableEq, Repr


/-- A command of the device: a step of spec/opcode_table.json. -/
inductive Instr where
  /-- PACKAGE_RESET: POR_N low, a rail below tolerance, SYS_RESET or the host watchdog resets every die, register, booth and Warden pair (R91). -/
  | packageReset (cause : Nat)
  /-- PACKAGE_RESET_RELEASE: release of the package reset starts the boot: hub logic released, SRL locks to FOSC, boot code checks its flash and the ledger and reads the boot header (R98). -/
  | packageResetRelease (straps : Nat) (vsvc33 : Bool) (primary : List Word) (backup : List Word)
  /-- RAIL_ORDER_VIOLATION: A rail of a later step rises before an earlier one is in tolerance; SEQ_ERR is set and the package reset is held (R18). -/
  | railOrderViolation
  /-- RAIL_BELOW_TOLERANCE: A rail monitor reads a rail below its lower tolerance and the package reset is held (R18). -/
  | railBelowTolerance
  /-- PERST_N_RISE: PERST_N rises and the host-link endpoint must answer configuration within 21 ms (R99). -/
  | perstNRise
  /-- UNMAPPED_ACCESS: an access to an unmapped address reads zero or is discarded, and is counted and recorded with its address (R27). -/
  | unmappedAccess (station : Nat) (addr : Nat)
  /-- PF_DENIED_ACCESS: A PF1 access outside its reach reads zero or is discarded and counts in WDN_PF_DENIED (R35). -/
  | pfDeniedAccess (addr : Nat)
  /-- WDN_APERTURE_WRITE: A write of BASE moves the BAR2 aperture for TLPs received after its completion is observed (R37). -/
  | wdnApertureWrite (pf : Nat) (base : Nat)
  /-- REGISTER_WRITE: A write to a register without a row of its own acts by its access codes (RW, W1C, W1S, RWL) and the writer authority of its block (R7). -/
  | registerWrite (src : Writer) (addr : Nat) (width : Nat) (value : Word)
  /-- BOOTH_AREA_WRITE: A request-area write is stored in IDLE, or discarded with STALE_WRITE otherwise (R46). -/
  | boothAreaWrite (src : Writer) (b : Nat) (off : Nat) (value : Word)
  /-- BOOTH_POST: POST in the doorbell moves an IDLE booth to POSTED, freezing the request and loading LAST_SEQ, or sets SEQ_ERR (R46). -/
  | boothPost (src : Writer) (b : Nat)
  /-- BOOTH_RELEASE: RELEASE in the doorbell moves a DONE booth to IDLE and clears DONE_FLAG, or sets SEQ_ERR (R46). -/
  | boothRelease (src : Writer) (b : Nat)
  /-- WARDEN_TAKE: the Warden takes the oldest POSTED command when fewer than 8 are in TAKEN, running the checks of R56 (R48). -/
  | wardenTake
  /-- WARDEN_COMPLETE: the Warden completes a TAKEN command: the booth enters DONE with its response, or IDLE when DISCARD is set (R46). -/
  | wardenComplete (b : Nat)
  /-- SYS_EVENTS_LOST: when a ring entry next becomes free after a loss, the Warden writes SYS_EVENTS_LOST before any later event (R62). -/
  | sysEventsLost
  /-- EVT_CONS_WRITE: A write to CONS frees ring entries if it lies between CONS and PROD, else BAD_CONS is set (R61). -/
  | evtConsWrite (src : Writer) (cons : Nat)
  /-- LOCKSTEP_MISMATCH: A comparator mismatch fences the pair within 2 cycles; the standby takes over if the active pair was fenced (R41). -/
  | lockstepMismatch (pair : Nat)
  /-- WARDEN_WATCHDOG_EXPIRY: the Warden watchdog reaches zero and fences the active pair as a mismatch does (R553). -/
  | wardenWatchdogExpiry
  /-- WARDEN_SRAM_UNCORRECTABLE: an uncorrectable Warden SRAM word fences its pair; corrected words are rewritten (R568). -/
  | wardenSramUncorrectable (pair : Nat) (index : Nat) (uncorrectable : Bool)
  /-- TAKEOVER_RESUME: the new active pair resumes booth service, re-executing or completing TAKEN commands and placing queued events (R41). -/
  | takeoverResume
  /-- PAIR_SELF_TEST_DONE: the fenced pair's self-test ends; it becomes standby on pass, else the complex runs without standby (R41). -/
  | pairSelfTestDone (pair : Nat) (pass : Bool)
  /-- SYS_INFO: returns system state, slot states, versions, node ID and takeover count (R70). -/
  | sysInfo (b : Nat)
  /-- SYS_EVENT_CONFIG: sets the event time base, group mask and severity threshold (R70). -/
  | sysEventConfig (b : Nat)
  /-- SYS_FW_STAGE: erases a slot and writes and checks an image from device memory (R70). -/
  | sysFwStage (b : Nat)
  /-- FW_STAGE_CHECKED: the staged slot has been written and checked and becomes STAGED or INVALID; the system state returns (R66). -/
  | fwStageChecked (img : FwImage)
  /-- SYS_FW_SWITCH: starts the hitless hand-over of R68 to the named slot, which becomes TRIAL (R70). -/
  | sysFwSwitch (b : Nat)
  /-- HANDOVER_COMPLETE: the standby pair has taken the state and journal and is active; the system state becomes TRIAL or RUN (R68). -/
  | handoverComplete (ok : Bool)
  /-- SYS_FW_COMMIT: makes the named STAGED or TRIAL slot BOOT and appends an audit record (R70). -/
  | sysFwCommit (b : Nat)
  /-- SYS_FW_REVERT: hands over back to the BOOT slot's firmware; the TRIAL slot becomes STAGED (R70). -/
  | sysFwRevert (b : Nat)
  /-- SYS_FAILOVER: forces a takeover as under R41 without a mismatch (R70). -/
  | sysFailover (b : Nat)
  /-- SYS_RESET: checks the magic and answers OK, scheduling a package reset 1 ms later (R70). -/
  | sysReset (b : Nat)
  /-- SYS_RESET_EXPIRY: 1 ms after SYS_RESET completes, the package reset is asserted (R70). -/
  | sysResetExpiry
  /-- SYS_BOOTH_RESET: resets a named booth: discards a POSTED command, sets DISCARD on a TAKEN one, drops a DONE response (R70). -/
  | sysBoothReset (b : Nat)
  /-- BOOT_SLOT_START: the boot code runs the BOOT slot, falls back to a valid STAGED slot, or enters SAFE (R65). -/
  | bootSlotStart
  /-- SET_QUERY: returns each counted setting's allowed and used steps and current value (R77). -/
  | setQuery (b : Nat)
  /-- SET_PREPARE: checks the value rule and steps left and enters SET_PREPARED with a token (R77). -/
  | setPrepare (b : Nat)
  /-- SET_CONFIRM: burns one OTP step, changes the setting, appends an audit record and returns to SET_IDLE (R77). -/
  | setConfirm (b : Nat) (verified : Bool)
  /-- SET_CANCEL: cancels the preparation and returns to SET_IDLE (R77). -/
  | setCancel (b : Nat)
  /-- SET_AUDIT_INFO: returns records held, next INDEX and wrap count (R77). -/
  | setAuditInfo (b : Nat)
  /-- SET_AUDIT_READ: returns audit records from a first INDEX onward (R77). -/
  | setAuditRead (b : Nat)
  /-- SET_PREPARE_EXPIRED: A preparation lapses 10 s after SET_PREPARE completes (R73). -/
  | setPrepareExpired
  /-- XIN_START_DELAY_EXPIRY: the XSTART delay elapses and the amplitude detector is consulted, setting XIN_SLOW after 16 failures (R82). -/
  | xinStartDelayExpiry (x : Nat) (satisfied : Bool)
  /-- BOOT_REFERENCE_SWITCH: the boot code switches SRL to the first XIN that becomes ready (R81). -/
  | bootReferenceSwitch
  /-- REFERENCE_WAIT_TIMEOUT: 200 ms pass without a ready XIN; CLK_NO_REFERENCE is raised and booths are served on FOSC (R81). -/
  | referenceWaitTimeout
  /-- CLK_SOURCE_SELECT_WRITE: A write of a source-selection field is honoured only if the target is ready, else REFUSED is set (R84). -/
  | clkSourceSelectWrite (src : Writer) (die : Nat) (value : Word)
  /-- REFERENCE_SLEW_END: the SRL or TL phase slew to the new reference ends and SWITCHING clears (R85). -/
  | referenceSlewEnd (domain : Nat)
  /-- REF_LOST: SRL's reference loses its ready flag; SRL holds over and switches to its fallback if ready (R86). -/
  | refLost
  /-- SOSC_MONITOR_FAULT: monitor M0 finds SOSC outside ±12 % of FOSC (R90). -/
  | soscMonitorFault (ppm : Int)
  /-- XIN_MONITOR_FAULT: monitor M1 or M2 finds no edge or a frequency error; the ready flag clears (R90). -/
  | xinMonitorFault (x : Nat) (ppm : Int)
  /-- SRL_LOCK_LOST: monitor M3 finds SRL_LOCK lost and SRL holds over (R90). -/
  | srlLockLost
  /-- SRL_RELOCK_TIMEOUT: SRL has not relocked within 1 ms; a severity-3 event is raised (R90). -/
  | srlRelockTimeout
  /-- TL_LOCK_LOST: monitor M4 finds TL_LOCK lost and TL holds over (R90). -/
  | tlLockLost
  /-- DCL_LOCK_LOST: monitor M5 finds a die's DCL_LOCK lost and the die enters LOST (R94). -/
  | dclLockLost (die : Nat)
  /-- LRL_LOCK_LOST: monitor M6 finds LRL_LOCK lost; lanes idle and every port of the die goes DOWN (R428). -/
  | lrlLockLost (l : Nat)
  /-- LRL_RELOCK: the LRL relocks and the lanes resume with their settings (R428). -/
  | lrlRelock (l : Nat)
  /-- PEER_CLOCK_LOST: monitor M7 finds a neighbour's forwarded clock gone; the bridge isolates the peer and the survivors act on the loss (R220). -/
  | peerClockLost (die : Nat) (unit : Nat)
  /-- BLOCK_CLOCK_STOP: A block whose gate bit was cleared stops its clock at its first point with no Bough transaction outstanding (R88). -/
  | blockClockStop (die : Nat) (blk : Nat)
  /-- GATED_BLOCK_ACCESS: an access to a gated block reads zero or is discarded and counts in CLK_GATED_HITS (R88). -/
  | gatedBlockAccess (die : Nat) (blk : Nat)
  /-- BLOCK_RESET: A write of 1 to RST_BLOCK resets a block to its reset values (R89). -/
  | blockReset (src : Writer) (die : Nat) (bits : Word)
  /-- BLOCK_RESET_DONE: the block reset completes and its RST_BLOCK bit clears (R89). -/
  | blockResetDone (die : Nat) (blk : Nat)
  /-- CLK_INFO: returns clock ready, selection, switch and monitor status and die states (R97). -/
  | clkInfo (b : Nat)
  /-- CLK_SELECT: switches the reference of SRL, TL or an LRL by the procedure of Switching a source (R97). -/
  | clkSelect (b : Nat)
  /-- CLK_FUL_SET: reprograms and relocks a fabric user loop (R97). -/
  | clkFulSet (b : Nat)
  /-- CLK_GATE: sets or clears gate bits of a die's blocks together, refused when a contract touches them (R97). -/
  | clkGate (b : Nat)
  /-- CLK_POWER_STATE: moves a die between RUN, SLEEP and DEEP (R97). -/
  | clkPowerState (b : Nat)
  /-- CLK_DIE_RESET: resets one die while the others run, with optional KEEP_DRAM, retraining its links to REJOIN (R93). -/
  | clkDieReset (b : Nat)
  /-- DIE_RELOCK_COMPLETE: relock and retrain of a reset die complete and it enters REJOIN (R94). -/
  | dieRelockComplete (die : Nat)
  /-- DIE_REJOIN_TIMEOUT: A die still in RESET 100 ms after the reset enters LOST (R94). -/
  | dieRejoinTimeout (die : Nat)
  /-- DIE_RELEASE: A lane die or grove is released once its DCL locks; its links train and default routes and time replicas are loaded (R92). -/
  | dieRelease (die : Nat) (vio : Nat)
  /-- WAKE_REQUEST: A wake source (Tally plan or delay-list release due within 100 µs) returns a sleeping die to RUN (R95). -/
  | wakeRequest (die : Nat)
  /-- CFG_INFO: returns boot status and the region states of a grove (R127). -/
  | cfgInfo (b : Nat)
  /-- CFG_HEADER: accepts a boot header from the host, states XIN frequencies and adopts its image table (R127). -/
  | cfgHeader (b : Nat)
  /-- CFG_LOAD: reads and checks an image header and descriptor and begins a live or shadow load (R127). -/
  | cfgLoad (b : Nat) (hdr : List Word) (desc : List Word) (outcome : Nat)
  /-- CFG_RELEASE: releases a LOADED region, at once or at a named time (R127). -/
  | cfgRelease (b : Nat)
  /-- CFG_SWAP: swaps a STAGED clearing's planes, at once or at a named time (R127). -/
  | cfgSwap (b : Nat)
  /-- CFG_ROLLBACK: exchanges a RELEASED clearing's planes back to the previous image (R127). -/
  | cfgRollback (b : Nat)
  /-- CFG_CLEAR: gates a clearing, applies fence defaults and erases both planes (R127). -/
  | cfgClear (b : Nat)
  /-- LOAD_FRAME: A frame arrives and is written after its CRC and tag verify, or the load fails (R108). -/
  | loadFrame (g : Nat) (region : Nat) (frame : List Word) (ports : List (Nat × Nat)) (outcome : Nat)
  /-- LOAD_DIGEST_CHECK: after the last frame the running SHA-384 is compared with DIGEST and the region becomes LOADED or STAGED (R115). -/
  | loadDigestCheck (g : Nat) (region : Nat)
  /-- STREAM_PORT_WRITE: A 32-bit write to the stream port is consumed in order by an open stream load, or ignored and counted (R123). -/
  | streamPortWrite (station : Nat) (value : Word)
  /-- STREAM_IDLE: A stream with no write for 100 ms fails its load (R123). -/
  | streamIdle
  /-- RELEASE_EDGE: on one CK_LINK edge a region's clocks start, fence outputs and pins take their function, and the grove may enter RUN (R117). -/
  | releaseEdge (g : Nat) (region : Nat)
  /-- SWAP_EDGE: on a swap or rollback edge the clearing is gated for 4 cycles while the planes exchange (R118). -/
  | swapEdge (g : Nat) (region : Nat)
  /-- CONFIG_SWEEP_READ: the sweep reads a frame, corrects a single-bit error or counts an uncorrectable one and raises CFG_FRAME_UPSET (R124). -/
  | configSweepRead (g : Nat) (far : Nat) (shadow : Bool) (finding : Nat)
  /-- REJOIN_RELOAD: after a grove reaches REJOIN, the Warden reloads it from the header's image table when REJOIN_RELOAD = 1 (R125). -/
  | rejoinReload (g : Nat) (entry : Nat) (hdr : List Word) (desc : List Word) (outcome : Nat)
  /-- AUTO_RELEASE: at boot step 9 the AUTO_RELEASE regions are released and CFG_BOOT_DONE is raised (R98). -/
  | autoRelease
  /-- BRAM_PORT_OPERATION: A block RAM port takes a read or full write when EN and ACCEPT are 1 (R146). -/
  | bramPortOperation (g : Nat) (r : Nat) (port : Nat) (write : Bool) (addr : Nat) (din : Nat) (be : Nat)
  /-- BRAM_PARTIAL_WRITE: A partial write reads, checks, merges and writes the internal word over two cycles (R147). -/
  | bramPartialWrite (g : Nat) (r : Nat) (port : Nat) (addr : Nat) (din : Nat) (be : Nat)
  /-- BRAM_WRITE_BACK: A corrected word is written back in the next idle port cycle or sweep access (R151). -/
  | bramWriteBack (g : Nat) (r : Nat)
  /-- BRAM_SWEEP_READ: the sweep reads one block RAM word every 8,000 CK_LINK cycles (R153). -/
  | bramSweepRead (g : Nat) (r : Nat)
  /-- BRAM_EXPORT_ACCESS: A Bough access of 8 bytes or fewer reaches an exported block RAM through port B (R155). -/
  | bramExportAccess (src : Nat) (tag : Nat) (g : Nat) (r : Nat) (write : Bool) (off : Nat) (len : Nat) (data : List Byte)
  /-- NVM_READ: user NVM command READ of one word (R158). -/
  | nvmRead (g : Nat) (addr : Nat) (upset : List Nat)
  /-- NVM_PROGRAM: user NVM command PROGRAM of an erased word (R158). -/
  | nvmProgram (g : Nat) (addr : Nat) (wdata : Nat)
  /-- NVM_ERASE: user NVM command ERASE of a sector, refused WORN at 100,000 erases (R159). -/
  | nvmErase (g : Nat) (addr : Nat)
  /-- NVM_COUNT: user NVM command COUNT returns a sector's erase count (R158). -/
  | nvmCount (g : Nat) (addr : Nat)
  /-- NVM_DONE: an NVM command ends, DONE pulses and STATUS is given (R158). -/
  | nvmDone (g : Nat)
  /-- FABRIC_SERIAL_TRANSFER: A fabric UART, SPI or I²C port moves data through its FIFOs (R161). -/
  | fabricSerialTransfer (g : Nat) (port : Nat) (kind : Nat) (item : Nat)
  /-- PROBE_ARM: A write of ARM = 1 clears the capture status and starts sampling on the next edge (R168). -/
  | probeArm (src : Writer) (g : Nat) (value : Word)
  /-- PROBE_TRIGGER: the probe trigger fires on its source and its actions take effect (R547). -/
  | probeTrigger (g : Nat) (samples : List Nat)
  /-- PROBE_CAPTURE_END: POST samples after the trigger, or 131,072 in MODE 1, end the capture; DONE sets and ARM clears (R168). -/
  | probeCaptureEnd (g : Nat) (samples : List Nat)
  /-- TRACE_READ: A trace-memory read checks byte parity and sets PERR on failure (R169). -/
  | traceRead (g : Nat) (i : Nat)
  /-- BOUGH_REQUEST_SEND: A station's network interface sends a request by its route entry, in order per virtual channel and destination (R188). -/
  | boughRequestSend (src : Nat) (op : Nat) (tag : Nat) (addr : Nat) (len : Nat) (data : List Byte) (flow : Option Nat) (prov : Bool)
  /-- CONTRACT_METER_RELEASE: A waiting VC0 packet leaves once both allowances suffice (R196). -/
  | contractMeterRelease (src : Nat) (dst : Nat)
  /-- RESPONSE_SLOT_RESERVED: A waiting non-posted request leaves once its response slots are free (R189). -/
  | responseSlotReserved (src : Nat) (dst : Nat)
  /-- HOPS_EXPIRED: A router finds HOPS at zero and discards the packet (R187). -/
  | hopsExpired (i : Nat)
  /-- BAD_OP_DISCARD: A packet with an unlisted OP is discarded at the first router (R181). -/
  | badOpDiscard (i : Nat)
  /-- TRUNK_TURN: A packet with ALT_OK facing a DOWN trunk port turns onto the other trunk direction (R193). -/
  | trunkTurn (i : Nat)
  /-- PACKET_ARRIVAL: A transaction arrives at its destination station and its end-to-end CRC is checked (R184). -/
  | packetArrival (i : Nat) (fault : Bool) (taken : Bool)
  /-- SINK_VIOLATION: A sink-mode station leaves a response untaken for 64 cycles and loses it (R190). -/
  | sinkViolation (station : Nat)
  /-- TRUNK_REROUTE: within 1 ms of a trunk port DOWN, the Warden rewrites TDIR and re-admits or breaks each crossing contract (R194). -/
  | trunkReroute
  /-- TRUNK_RESTORE: when the port trains again, LINE clears and rewritten best-effort entries regain their directions (R194). -/
  | trunkRestore
  /-- FLOW_INFO: returns contract counts, LINE and per-grove reservations (R203). -/
  | flowInfo (b : Nat)
  /-- FLOW_OPEN: runs the admission calculation and opens a contract or refuses it (R198). -/
  | flowOpen (b : Nat)
  /-- FLOW_CLOSE: closes a contract and releases its reservations at once (R199). -/
  | flowClose (b : Nat)
  /-- FLOW_QUERY: returns a contract's state, bound, direction and terms (R203). -/
  | flowQuery (b : Nat)
  /-- FLOW_STATION: sets a design station's sink mode, PROV_OK and drain rate (R203). -/
  | flowStation (b : Nat)
  /-- FLOW_ROUTE_WRITE: writes route-table entries of a station together (R203). -/
  | flowRouteWrite (b : Nat)
  /-- FLOW_ROUTE_READ: returns route-table entries of a station (R203). -/
  | flowRouteRead (b : Nat)
  /-- FLOW_STATS: returns a die's Bough counters without clearing them (R203). -/
  | flowStats (b : Nat)
  /-- LINK_TRAIN_ROUND_END: A training round ends and the unit goes UP, NARROW, DOWN or to the next round (R209). -/
  | linkTrainRoundEnd (die : Nat) (unit : Nat) (round : TrainRound)
  /-- LINK_ROUND_TIMEOUT: A training phase not ended within 150 µs fails the round (R209). -/
  | linkRoundTimeout (die : Nat) (unit : Nat)
  /-- TRANSFER_CRC_ERROR: A receiver finds a CRC error or sequence gap and asks for a replay (R213). -/
  | transferCrcError (die : Nat) (unit : Nat) (same : Bool)
  /-- REPLAY_ARRIVAL: A replayed transfer arrives and differing wires are charged errors (R214). -/
  | replayArrival (die : Nat) (unit : Nat) (wires : List Nat)
  /-- NARROW_REEVALUATION: within 1 ms of a unit entering NARROW the Warden reruns admission for crossing contracts (R215). -/
  | narrowReevaluation
  /-- CROSSING_PARITY_ERROR: A crossing parity mismatch counts in LNK_CRC_ERR (R219). -/
  | crossingParityError (die : Nat) (unit : Nat)
  /-- CACHEABLE_REQUEST: A cacheable request reaches the remote cache and hits S or M, or needs the home (R222). -/
  | cacheableRequest (i : Nat)
  /-- CACHE_FILL_ARRIVAL: A read-shared or read-exclusive answer fills the line and the waiting request is answered (R223). -/
  | cacheFillArrival (i : Nat)
  /-- HOME_REQUEST: A home directory serves a fill, check, write-back or local access in arrival order per line (R227). -/
  | homeRequest (i : Nat)
  /-- DIRECTORY_EVICT: A full directory set reuses its least recently used entry after RELEASE to its holders (R228). -/
  | directoryEvict (i : Nat)
  /-- WITHDRAWAL_ARRIVAL: A cache receives STALE, RECALL_SHARE, RECALL_DROP or RELEASE and answers (R226). -/
  | withdrawalArrival (i : Nat)
  /-- SURRENDER_ARRIVAL: A home receives a holder's surrender, ending its copy and possibly granting a waiting request (R227). -/
  | surrenderArrival (i : Nat)
  /-- CHECK_ANSWER_ARRIVAL: A CONFIRM or RETRACT answering a vestige check resolves it to the requesters (R232). -/
  | checkAnswerArrival (i : Nat)
  /-- CONFIRM_WINDOW_EXPIRY: the 1 µs window ends first; requesters get a LEN 0 RETRACT (R232). -/
  | confirmWindowExpiry (i : Nat)
  /-- VC0_DRAM_WRITE: A VC0 write to DRAM is performed at once, sending STALE or RECALL_DROP to holders (R229). -/
  | vc0DramWrite (i : Nat)
  /-- RMC_FLUSH: clearing RMC_CTRL.EN writes back M lines, surrenders S lines and drops every line (R237). -/
  | rmcFlush (g : Nat)
  /-- RMC_FLUSH_DONE: the flush ends and FLUSHING clears (R237). -/
  | rmcFlushDone (g : Nat)
  /-- RMC_BLOCK_RESET: A block reset of the remote cache and directory is handled as loss of that grove's cache (R575). -/
  | rmcBlockReset (g : Nat)
  /-- NOP: does nothing (R284). -/
  | nop (t : Nat) (pair : Bool)
  /-- ADD: scalar add under SAT (R284). -/
  | add (t : Nat) (pair : Bool) (d : Nat) (a : Nat) (b : Nat)
  /-- SUB: scalar subtract under SAT (R284). -/
  | sub (t : Nat) (pair : Bool) (d : Nat) (a : Nat) (b : Nat)
  /-- MUL: scalar signed multiply under SAT (R284). -/
  | mul (t : Nat) (pair : Bool) (d : Nat) (a : Nat) (b : Nat)
  /-- MIN: signed minimum (R284). -/
  | min (t : Nat) (pair : Bool) (d : Nat) (a : Nat) (b : Nat)
  /-- MAX: signed maximum (R284). -/
  | max (t : Nat) (pair : Bool) (d : Nat) (a : Nat) (b : Nat)
  /-- AND: scalar AND (R284). -/
  | and (t : Nat) (pair : Bool) (d : Nat) (a : Nat) (b : Nat)
  /-- OR: scalar OR (R284). -/
  | or (t : Nat) (pair : Bool) (d : Nat) (a : Nat) (b : Nat)
  /-- XOR: scalar XOR (R284). -/
  | xor (t : Nat) (pair : Bool) (d : Nat) (a : Nat) (b : Nat)
  /-- SLL: shift left logical by register (R284). -/
  | sll (t : Nat) (pair : Bool) (d : Nat) (a : Nat) (b : Nat)
  /-- SRL: shift right logical by register (R284). -/
  | srl (t : Nat) (pair : Bool) (d : Nat) (a : Nat) (b : Nat)
  /-- SRA: shift right arithmetic by register (R284). -/
  | sra (t : Nat) (pair : Bool) (d : Nat) (a : Nat) (b : Nat)
  /-- SLT: set on signed less-than (R284). -/
  | slt (t : Nat) (pair : Bool) (d : Nat) (a : Nat) (b : Nat)
  /-- SLTU: set on unsigned less-than (R284). -/
  | sltu (t : Nat) (pair : Bool) (d : Nat) (a : Nat) (b : Nat)
  /-- ADDI: add sign-extended immediate under SAT (R284). -/
  | addi (t : Nat) (pair : Bool) (d : Nat) (a : Nat) (imm : Nat)
  /-- ANDI: AND with zero-extended immediate (R284). -/
  | andi (t : Nat) (pair : Bool) (d : Nat) (a : Nat) (imm : Nat)
  /-- ORI: OR with zero-extended immediate (R284). -/
  | ori (t : Nat) (pair : Bool) (d : Nat) (a : Nat) (imm : Nat)
  /-- XORI: XOR with zero-extended immediate (R284). -/
  | xori (t : Nat) (pair : Bool) (d : Nat) (a : Nat) (imm : Nat)
  /-- SLLI: shift left logical by immediate (R284). -/
  | slli (t : Nat) (pair : Bool) (d : Nat) (a : Nat) (imm : Nat)
  /-- SRLI: shift right logical by immediate (R284). -/
  | srli (t : Nat) (pair : Bool) (d : Nat) (a : Nat) (imm : Nat)
  /-- SRAI: shift right arithmetic by immediate (R284). -/
  | srai (t : Nat) (pair : Bool) (d : Nat) (a : Nat) (imm : Nat)
  /-- LI: load sign-extended immediate (R284). -/
  | li (t : Nat) (pair : Bool) (d : Nat) (imm : Nat)
  /-- LUI: load immediate into the upper half (R284). -/
  | lui (t : Nat) (pair : Bool) (d : Nat) (imm : Nat)
  /-- MTS: moves a scalar into ST.SAT and ST.OVF (R285). -/
  | mts (t : Nat) (pair : Bool) (a : Nat)
  /-- MFS: moves ST or TMR into a scalar (R285). -/
  | mfs (t : Nat) (pair : Bool) (d : Nat) (sel : Nat)
  /-- AMOV: moves a scalar into an a, b or l register (R286). -/
  | amov (t : Nat) (kind : Nat) (n : Nat) (sc : Nat)
  /-- ASETI: sets an a, b or l register from an immediate (R286). -/
  | aseti (t : Nat) (kind : Nat) (n : Nat) (imm : Nat)
  /-- ASTEP: post-modifies an address register by a signed immediate with circular wrap (R286). -/
  | astep (t : Nat) (n : Nat) (imm : Nat)
  /-- MFA: moves an a, b or l register into a scalar (R286). -/
  | mfa (t : Nat) (kind : Nat) (n : Nat) (sc : Nat)
  /-- LW: loads 4 bytes into a scalar, locally or through the external window (R288). -/
  | lw (t : Nat) (r : Nat) (n : Nat) (am : Nat) (imm : Nat)
  /-- SW: stores a scalar, locally or through the external window or commit buffer (R288). -/
  | sw (t : Nat) (r : Nat) (n : Nat) (am : Nat) (imm : Nat)
  /-- VLD: loads 32 bytes into a vector (R288). -/
  | vld (t : Nat) (r : Nat) (n : Nat) (am : Nat) (imm : Nat)
  /-- VST: stores 32 bytes from a vector (R288). -/
  | vst (t : Nat) (r : Nat) (n : Nat) (am : Nat) (imm : Nat)
  /-- VADD: byte-wise vector add under SAT (R290). -/
  | vadd (t : Nat) (pair : Bool) (d : Nat) (a : Nat) (b : Nat)
  /-- VSUB: byte-wise vector subtract under SAT (R290). -/
  | vsub (t : Nat) (pair : Bool) (d : Nat) (a : Nat) (b : Nat)
  /-- VNEG: byte-wise negate under SAT (R290). -/
  | vneg (t : Nat) (pair : Bool) (d : Nat) (a : Nat)
  /-- VCONJ: complex conjugate under SAT (R290). -/
  | vconj (t : Nat) (pair : Bool) (d : Nat) (a : Nat)
  /-- VAND: vector AND (R290). -/
  | vand (t : Nat) (pair : Bool) (d : Nat) (a : Nat) (b : Nat)
  /-- VOR: vector OR (R290). -/
  | vor (t : Nat) (pair : Bool) (d : Nat) (a : Nat) (b : Nat)
  /-- VXOR: vector XOR (R290). -/
  | vxor (t : Nat) (pair : Bool) (d : Nat) (a : Nat) (b : Nat)
  /-- VSRAI: byte-wise arithmetic right shift by immediate (R290). -/
  | vsrai (t : Nat) (pair : Bool) (d : Nat) (a : Nat) (sh : Nat)
  /-- VMOV: vector move (R290). -/
  | vmov (t : Nat) (pair : Bool) (d : Nat) (a : Nat)
  /-- VSPLAT: broadcasts a scalar's I and Q into every lane (R290). -/
  | vsplat (t : Nat) (pair : Bool) (d : Nat) (a : Nat)
  /-- VEXT: extracts one lane into a scalar (R290). -/
  | vext (t : Nat) (pair : Bool) (d : Nat) (a : Nat) (x : Nat)
  /-- VINS: inserts a scalar into one lane (R290). -/
  | vins (t : Nat) (pair : Bool) (d : Nat) (a : Nat) (x : Nat)
  /-- CMAC: complex multiply by a weight lane, accumulating (R292). -/
  | cmac (t : Nat) (pair : Bool) (k : Nat) (x : Nat) (w : Nat) (lane : Nat)
  /-- CMACZ: complex multiply by a weight lane, replacing the accumulator (R292). -/
  | cmacz (t : Nat) (pair : Bool) (k : Nat) (x : Nat) (w : Nat) (lane : Nat)
  /-- CMACJ: conjugate complex multiply by a weight lane, accumulating (R292). -/
  | cmacj (t : Nat) (pair : Bool) (k : Nat) (x : Nat) (w : Nat) (lane : Nat)
  /-- CMACJZ: conjugate complex multiply by a weight lane, replacing (R292). -/
  | cmacjz (t : Nat) (pair : Bool) (k : Nat) (x : Nat) (w : Nat) (lane : Nat)
  /-- CMACE: element-wise complex multiply, accumulating (R292). -/
  | cmace (t : Nat) (pair : Bool) (k : Nat) (x : Nat) (w : Nat)
  /-- CMACEZ: element-wise complex multiply, replacing (R292). -/
  | cmacez (t : Nat) (pair : Bool) (k : Nat) (x : Nat) (w : Nat)
  /-- NARROW: shifts an accumulator by an immediate and narrows it to 8 bits (R293). -/
  | narrow (t : Nat) (pair : Bool) (d : Nat) (k : Nat) (sh : Nat)
  /-- NARROWS: shifts an accumulator by a scalar and narrows it to 8 bits (R293). -/
  | narrows (t : Nat) (pair : Bool) (d : Nat) (k : Nat) (a : Nat)
  /-- B: conditional branch with two delay slots (R294). -/
  | b (t : Nat) (cond : Nat) (a : Nat) (b : Nat) (target : Nat)
  /-- JAL: jump and link (R295). -/
  | jal (t : Nat) (d : Nat) (target : Nat)
  /-- JR: jump to a scalar's address (R294). -/
  | jr (t : Nat) (a : Nat)
  /-- DBNZ: decrement and branch if not zero (R295). -/
  | dbnz (t : Nat) (a : Nat) (target : Nat)
  /-- REP: repeats the next issue unit a fixed count (R253). -/
  | rep (t : Nat) (count : Nat)
  /-- REPR: repeats the next issue unit a scalar count (R297). -/
  | repr (t : Nat) (a : Nat)
  /-- LOCK: makes the next 1-4 instructions a locked sequence (R256). -/
  | lock (t : Nat) (n : Nat)
  /-- WAIT: gates the tile clock until TMR is zero or the wake latch is set (R274). -/
  | wait (t : Nat) (timed : Bool)
  /-- EXIT: ends the item and moves the tile to EXITING (R261). -/
  | exit (t : Nat) (code : Nat)
  /-- SETTMR: sets TMR from an immediate or scalar (R299). -/
  | settmr (t : Nat) (reg : Bool) (v : Nat)
  /-- KICK: reloads the tile watchdog with the item's value (R298). -/
  | kick (t : Nat)
  /-- FENCE: stalls until the commit buffer is empty and earlier external writes are acknowledged or accepted (R300). -/
  | fence (t : Nat)
  /-- TILE_ITEM_ENTRY: A tile enters a work item with its registers set from the descriptor (R260). -/
  | tileItemEntry (t : Nat)
  /-- EXTERNAL_LOAD_ANSWER: an external load's answer arrives; the tile resumes, is tainted on PROV = 1, or faults (R251). -/
  | externalLoadAnswer (i : Nat)
  /-- EXTERNAL_WRITE_ANSWER: an external WR is acknowledged, or answered other than OK and raises imprecise WRITE_ERR (R269). -/
  | externalWriteAnswer (i : Nat)
  /-- COMMIT_BUFFER_DRAIN: an untainted commit-buffer entry leaves as the network interface accepts it (R265). -/
  | commitBufferDrain (t : Nat)
  /-- PROVISIONAL_CONFIRM: A CONFIRM reduces PROV_PEND; at zero all taint clears in one cycle (R266). -/
  | provisionalConfirm (i : Nat)
  /-- RETRACT_RESTART: A RETRACT restarts the item from its entry, discarding buffers and taint (R267). -/
  | retractRestart (i : Nat)
  /-- ITEM_COMPLETION_REPORT: an EXITING tile whose conditions are met reports completion and takes its next item, restores, or idles (R261). -/
  | itemCompletionReport (t : Nat)
  /-- TILE_ABORT: an abort discards buffers, records the fault and reports the item failed (R270). -/
  | tileAbort (t : Nat)
  /-- PREEMPTION_STOP: A pre-emption stop saves the context into the save slot (R272). -/
  | preemptionStop (t : Nat)
  /-- CONTEXT_SAVE_DONE: the 40-cycle save ends and the pre-empting item enters (R272). -/
  | contextSaveDone (t : Nat)
  /-- CONTEXT_RESTORE_DONE: the 40-cycle restore ends and the saved item continues (R272). -/
  | contextRestoreDone (t : Nat)
  /-- TILE_RESUME: TIL_CTRL RESUME re-executes the faulting instruction of a FAULTED tile (R271). -/
  | tileResume (src : Writer) (t : Nat)
  /-- TILE_KILL: TIL_CTRL KILL aborts the running item with KILLED (R270). -/
  | tileKill (src : Writer) (t : Nat)
  /-- TILE_WAKE: TIL_CTRL WAKE sets the tile's wake latch (R274). -/
  | tileWake (src : Writer) (t : Nat)
  /-- TILE_DISCARD_SLOT: TIL_CTRL DISCARD_SLOT discards the saved context and reports its item KILLED (R278). -/
  | tileDiscardSlot (src : Writer) (t : Nat)
  /-- WAIT_END: TMR reaches zero or the wake latch is set and the WAIT ends (R274). -/
  | waitEnd (t : Nat)
  /-- TILE_WATCHDOG_EXPIRY: the tile watchdog reaches zero and raises a WATCHDOG stop (R275). -/
  | tileWatchdogExpiry (t : Nat)
  /-- TILE_OFF: gating or DEEP stops each tile at its next stop boundary into OFF (R277). -/
  | tileOff (t : Nat)
  /-- DESCRIPTOR_POST: A write to word 7 of a post slot posts the descriptor, which is checked and accepted or refused (R302). -/
  | descriptorPost (g : Nat) (p : Nat) (value : Word)
  /-- POST_SLOT_STORE: A write to another post-slot word only stores its value (R302). -/
  | postSlotStore (g : Nat) (p : Nat) (w : Nat) (value : Word)
  /-- RESULT_READ: A read of RESULT is answered once earlier posts to the slot are decided (R303). -/
  | resultRead (station : Nat) (g : Nat) (p : Nat) (tag : Nat)
  /-- DSP_CANCEL: removes an unstarted item named by a handle, or sets CANCEL_MISS (R308). -/
  | dspCancel (g : Nat) (handle : Word)
  /-- DELAY_LIST_RELEASE: at a tick boundary every due entry enters its ready queue (R311). -/
  | delayListRelease (g : Nat) (k : Nat)
  /-- FLOW_CONTEXT_FILL: A context read from DRAM arrives and the waiting item enters, or fails on POISON or ABSENT (R317). -/
  | flowContextFill (i : Nat)
  /-- ENTRY_BACKLOG_ENTER: an item waiting for an unpinned context enters when one is unpinned (R317). -/
  | entryBacklogEnter (g : Nat)
  /-- ITEM_START: an item that may start enters the next idle tile of its tile set (R310). -/
  | itemStart (g : Nat)
  /-- PREEMPT_REQUEST: A PREEMPTS item with no idle tile chooses a victim and raises the pre-emption stop (R324). -/
  | preemptRequest (g : Nat)
  /-- ITEM_COMPLETION: the dispatcher releases the slot, advances the flow and writes a completion record (R326). -/
  | itemCompletion (g : Nat)
  /-- RESTART_REPORT: A tile's restart is counted and at RESTART_LIMIT the item is killed (R327). -/
  | restartReport (g : Nat)
  /-- DSP_QMIN_WRITE: A write of a queue reservation is refused when the sum would exceed 65,536 (R307). -/
  | dspQminWrite (src : Writer) (g : Nat) (q : Nat) (value : Word)
  /-- DSP_DL_CFG_WRITE: A change of TB or TICK_NS of a non-empty list is ignored and sets CFG_REFUSED (R314). -/
  | dspDlCfgWrite (src : Writer) (g : Nat) (k : Nat) (value : Word)
  /-- DSP_EN_CLEAR: A write of EN = 0 stops acceptance and begins a drain (R319). -/
  | dspEnClear (src : Writer) (g : Nat) (value : Word)
  /-- DSP_EN_SET: A write of EN = 1 resumes acceptance, ending a drain, or is refused without trained flow-table DRAM (R319). -/
  | dspEnSet (src : Writer) (g : Nat) (value : Word)
  /-- DRAIN_END: when every ready slot is free, cached contexts are written back and DRAINING clears (R319). -/
  | drainEnd (g : Nat)
  /-- DSP_FLOW_FLUSH: writes back a named context or all, dropping unpinned ones (R318). -/
  | dspFlowFlush (src : Writer) (g : Nat) (value : Word)
  /-- FLOW_FLUSH_DONE: the flush ends and FLUSHING clears (R318). -/
  | flowFlushDone (g : Nat)
  /-- CLS_CYC_LOW_READ: A read of a 64-bit counter's low word latches its high word for the same station (R322). -/
  | clsCycLowRead (station : Nat) (g : Nat) (c : Nat)
  /-- PTR_PROD_WRITE: A producer index write posts descriptors, or is refused with RING_OVF (R336). -/
  | ptrProdWrite (src : Writer) (c : Nat) (value : Word)
  /-- DESCRIPTOR_READ_ANSWER: A descriptor read answers; a bad answer or bad descriptor completes it without moving a byte (R336). -/
  | descriptorReadAnswer (i : Nat)
  /-- MOVER_TAKE: A waiting channel takes a free mover in guaranteed, priority and round-robin order (R344). -/
  | moverTake (die : Nat)
  /-- MOVER_PREEMPT: A best-effort channel is pre-empted at a pre-emption point and enters PARKED (R344). -/
  | moverPreempt (c : Nat)
  /-- BEAT_READ_ANSWER: A beat's read data arrives and its write is issued, or an error stops the channel (R341). -/
  | beatReadAnswer (c : Nat) (i : Option Nat) (data : List Byte) (status : Nat)
  /-- BEAT_WRITE_ANSWER: A beat's WR is acknowledged, or an error completes the descriptor under R347 (R342). -/
  | beatWriteAnswer (c : Nat) (i : Option Nat) (status : Nat)
  /-- PORTER_TRANSLATION_FAULT: A beat's translation fails; the channel enters FAULTED after earlier beats complete (R346). -/
  | porterTranslationFault (c : Nat)
  /-- DESCRIPTOR_COMPLETE: A descriptor completes, its record is written and the notify is made (R349). -/
  | descriptorComplete (c : Nat)
  /-- CQ_RECORD_ACK: the completion record's write is acknowledged and CONS advances (R336). -/
  | cqRecordAck (i : Nat)
  /-- UNIT_PACKET_RECEIVE: A receive channel places a unit packet, opening or closing a unit (R340). -/
  | unitPacketReceive (i : Nat)
  /-- RESUME: PTR_CTRL RESUME translates again from DONE and continues (R346). -/
  | resume (src : Writer) (c : Nat)
  /-- SKIP: PTR_CTRL SKIP completes the faulted descriptor with SKIPPED (R346). -/
  | skip (src : Writer) (c : Nat)
  /-- ABORT: PTR_CTRL ABORT completes the descriptor ABORTED and stops the channel (R348). -/
  | abort (src : Writer) (c : Nat)
  /-- GO: PTR_CTRL GO leaves STOPPED for the next descriptor (R348). -/
  | go (src : Writer) (c : Nat)
  /-- CLOSE_UNIT: PTR_CTRL CLOSE_UNIT closes an open unit with ABORTED_PEER (R340). -/
  | closeUnit (src : Writer) (c : Nat)
  /-- PTR_CH_CFG_WRITE: A write of EN turns a channel OFF or on; other fields change only while EN = 0, or set CFG_REFUSED (R348). -/
  | ptrChCfgWrite (src : Writer) (c : Nat) (value : Word)
  /-- TRANSLATION_WALK_DONE: A table walk ends; a success enters the TLB, a failure is logged and reported (R353). -/
  | translationWalkDone (i : Nat)
  /-- XLT_INVAL_WRITE: starts invalidation of a page, ASID or everything, or is refused (R354). -/
  | xltInvalWrite (src : Writer) (g : Nat) (value : Word)
  /-- INVAL_DONE: every TLB entry in scope is removed, earlier translations delivered, and INVAL_BUSY clears (R354). -/
  | invalDone (g : Nat)
  /-- PEER_LOSS_CLOSE_UNIT: within 1 ms of a die's loss, the Warden writes CLOSE_UNIT to receive channels whose sender lay there (R356). -/
  | peerLossCloseUnit (c : Nat)
  /-- MEM_INFO: returns a channel's status, configuration, map and counters (R390). -/
  | memInfo (b : Nat)
  /-- MEM_CONFIG: configures a channel from its SPD image (R390). -/
  | memConfig (b : Nat)
  /-- MEM_TRAIN: starts full training of a channel (R364). -/
  | memTrain (b : Nat)
  /-- MEM_FILL: begins writing a pattern over a range of lines (R386). -/
  | memFill (b : Nat)
  /-- MEM_SCRUB: enables or disables patrol scrub with its period (R387). -/
  | memScrub (b : Nat)
  /-- MEM_ERRLOG: returns the correctable-error log, optionally clearing it (R390). -/
  | memErrlog (b : Nat)
  /-- MEM_DISABLE: turns a channel OFF and rebuilds the map (R390). -/
  | memDisable (b : Nat)
  /-- TRAINING_DONE: training passes and the channel becomes READY with the map rebuilt, or fails (R364). -/
  | trainingDone (c : Nat) (pass : Bool) (phase : Nat) (rank : Nat) (trn : List Word)
  /-- TRAINING_PHASE_TIMEOUT: A training phase not ended within its limit fails the training (R364). -/
  | trainingPhaseTimeout (c : Nat) (phase : Nat) (rank : Nat)
  /-- SELF_REFRESH_ENTRY: after the drain, banks are precharged, SRE issued and clocks stopped (R372). -/
  | selfRefreshEntry (c : Nat)
  /-- SELF_REFRESH_EXIT: clocks restart, SRX is issued and the quick recheck or retention training runs to READY (R373). -/
  | selfRefreshExit (c : Nat) (quick : Bool) (pass : Bool) (rank : Nat) (trn : List Word)
  /-- DRAM_REQUEST: A request takes queue entries at a channel station and is later scheduled (R368). -/
  | dramRequest (c : Nat) (bank : Option Nat)
  /-- DRAM_READ_DECODE: A burst's four codewords are decoded, corrected, logged or marked poisoned (R378). -/
  | dramReadDecode (c : Nat) (bank : Nat)
  /-- CORRECTED_WRITE_BACK: A corrected codeword is written back unless a write to it is queued first (R380). -/
  | correctedWriteBack (c : Nat)
  /-- DRAM_RMW: A partial-codeword write reads, merges and writes, or is refused on a poisoned line (R381). -/
  | dramRmw (c : Nat) (bank : Nat)
  /-- REFRESH_DUE: A rank's tREFI elapses and a REF is issued, postponed or pulled in (R371). -/
  | refreshDue (c : Nat) (rank : Nat) (want : Nat)
  /-- RT_PORT_WRITE: A VC0 write enters the real-time buffer, entering or leaving panic (R376). -/
  | rtPortWrite (c : Nat) (late : Bool) (drain : Bool)
  /-- ALERT_N_FALL: ALERT_n falls and writes or commands of the last 64 cycles are re-issued (R382). -/
  | alertNFall (c : Nat) (parity : Bool)
  /-- FILL_LINE_WRITE: A fill writes the next line of its range (R386). -/
  | fillLineWrite (c : Nat)
  /-- MEM_FILL_DONE: A fill ends on a channel, OK or ABSENT (R386). -/
  | memFillDone (c : Nat)
  /-- SCRUB_READ: patrol scrub reads the next line and decodes it (R387). -/
  | scrubRead (c : Nat)
  /-- CE_LOG_CLEAR: MEM_CE_CTRL CLEAR empties the log (R388). -/
  | ceLogClear (src : Writer) (c : Nat)
  /-- MEM_ENC_INFO: returns encryption status, region registers and counters (R416). -/
  | memEncInfo (b : Nat)
  /-- MEM_REGION_SETUP: loads region keys and begins building its counter tree (R416). -/
  | memRegionSetup (b : Nat) (drbg : Bool)
  /-- MEM_REGION_CLEAR: erases a region's keys and returns it to FREE (R416). -/
  | memRegionClear (b : Nat)
  /-- MEM_REKEY_SUBTREE: begins rebuilding a listed node or a BROKEN region's root (R411). -/
  | memRekeySubtree (b : Nat)
  /-- MEM_KEY_PROVISION: burns the verification-key hash of an epoch into OTP (R416). -/
  | memKeyProvision (b : Nat) (verified : Bool)
  /-- TREE_BUILD_DONE: every tree node is written and the region becomes ACTIVE (R394). -/
  | treeBuildDone (g : Nat) (r : Nat)
  /-- SUBTREE_REBUILD_DONE: A rebuild ends; lines beneath become UNWRITTEN and a rebuilt root makes the region ACTIVE (R411). -/
  | subtreeRebuildDone (g : Nat) (r : Nat)
  /-- ENC_LINE_READ: A region line is read, its tag checked, and decrypted or answered POISON (R406). -/
  | encLineRead (c : Nat) (bank : Nat)
  /-- ENC_FULL_WRITE: A full write takes a new counter, encrypts, tags and writes the line (R407). -/
  | encFullWrite (c : Nat) (bank : Nat)
  /-- ENC_PARTIAL_WRITE: A partial write reads, merges and writes a line, or is refused (R408). -/
  | encPartialWrite (c : Nat) (bank : Nat)
  /-- COUNTER_CACHE_EVICT: A dirty node is evicted with a new counter and tag and its parent updated (R405). -/
  | counterCacheEvict (g : Nat) (set : Nat)
  /-- META_ACCESS: A Bough access to a metadata area reads zero or is discarded and counted (R395). -/
  | metaAccess (c : Nat) (bank : Nat)
  /-- LANE_INFO: returns LRL, lane and port states of a lane die (R457). -/
  | laneInfo (b : Nat)
  /-- LANE_LRL_SET: sets a lane die's LRL frequency (R420). -/
  | laneLrlSet (b : Nat)
  /-- LANE_CONFIG: sets lanes' FIR, swing, CTLE, LOS threshold and polarity (R457). -/
  | laneConfig (b : Nat)
  /-- LANE_TUNE: sweeps CTLE codes with the eye monitor and sets the best (R423). -/
  | laneTune (b : Nat) (eyes : List (List Nat))
  /-- LANE_TEST: sets lanes into TEST with loopback and PRBS, or back to OFF (R425). -/
  | laneTest (b : Nat)
  /-- LANE_PRBS_READ: returns a lane's PRBS lock and error count (R426). -/
  | lanePrbsRead (b : Nat) (errors : Nat)
  /-- LANE_PORT_CONFIG: configures a port's speed, FEC and defaults, powering or releasing lanes (R429). -/
  | lanePortConfig (b : Nat)
  /-- LANE_ENGINE_CONFIG: sets an engine's ingress shares and timestamp ring (R457). -/
  | laneEngineConfig (b : Nat)
  /-- LANE_CLS_WRITE: writes or replaces a classifier entry (R445). -/
  | laneClsWrite (b : Nat)
  /-- LANE_CLS_DELETE: deletes a classifier entry (R445). -/
  | laneClsDelete (b : Nat)
  /-- LANE_CLS_READ: returns a classifier entry (R457). -/
  | laneClsRead (b : Nat)
  /-- LANE_POLICER_SET: sets a policer's rates and fills its buckets (R442). -/
  | lanePolicerSet (b : Nat)
  /-- LANE_GATE_LOAD: writes a new gate list into the shadow bank to switch at its BASE (R448). -/
  | laneGateLoad (b : Nat)
  /-- LANE_TRIM_TRY: applies a trial reference trim code until the next die reset (R454). -/
  | laneTrimTry (b : Nat)
  /-- LANE_STATS: returns an engine's stage and port counters (R457). -/
  | laneStats (b : Nat)
  /-- LOS_ASSERT: amplitude below threshold for 1 µs sets LOS and LOL (R422). -/
  | losAssert (lane : Nat)
  /-- LOS_CLEAR: amplitude above threshold for 10 µs clears LOS (R422). -/
  | losClear (lane : Nat)
  /-- LOL_ASSERT: offset beyond ±300 ppm or no transition for 1 µs sets LOL (R421). -/
  | lolAssert (lane : Nat)
  /-- LOL_CLEAR: 10 µs within ±200 ppm with transitions clears LOL (R421). -/
  | lolClear (lane : Nat)
  /-- PORT_LINK_CHANGE: A port changes between DOWN and UP and LANE_LINK is raised (R432). -/
  | portLinkChange (pe : Nat) (port : Nat) (up : Bool)
  /-- FEC_CODEWORD: A received codeword is corrected or found uncorrectable (R431). -/
  | fecCodeword (pe : Nat) (port : Nat) (errs : Nat) (correctable : Bool)
  /-- FRAME_RECEIVE: A wholly received frame is checked, timestamped, parsed, classified, policed, admitted and steered (R438). -/
  | frameReceive (pe : Nat) (port : Nat) (frame : List Byte) (touched : Bool)
  /-- TX_UNIT_QUEUED: A transmit unit's LAST packet is accepted and the frame queued, or discarded as TX_BAD (R433). -/
  | txUnitQueued (pe : Nat) (src : Nat)
  /-- FRAME_TRANSMIT: A queued frame starts when its gate stays open long enough, with one-step or ring timestamping (R447). -/
  | frameTransmit (pe : Nat) (port : Nat)
  /-- TX_DOWN_DROP: A frame at the head of a DOWN port's queue is discarded (R434). -/
  | txDownDrop (pe : Nat) (port : Nat)
  /-- GATE_ENTRY_END: A gate-list entry's duration ends and the next entry or cycle begins (R446). -/
  | gateEntryEnd (pe : Nat)
  /-- GATE_LIST_SWITCH: at BASE the shadow list becomes active and LANE_GATE_SWITCHED is raised (R448). -/
  | gateListSwitch (pe : Nat)
  /-- RAW_BLOCK_RECEIVE: A 256-byte raw block is sent as one WRP packet of a 64 KiB unit (R451). -/
  | rawBlockReceive (pe : Nat) (port : Nat) (block : List Byte)
  /-- RAW_UNDERRUN: A raw port out of blocks sends its IDLE word for a block time (R451). -/
  | rawUnderrun (pe : Nat) (port : Nat)
  /-- LANE_SETTINGS_REAPPLY: when a lane die reaches REJOIN the Warden reapplies its LANE settings and it enters RUN (R453). -/
  | laneSettingsReapply (l : Nat)
  /-- TIME_INFO: returns a time base's state, time, rate and offsets (R487). -/
  | timeInfo (b : Nat)
  /-- TIME_SET: loads a time base's count and ORIGIN, at once or at a capture edge (R487). -/
  | timeSet (b : Nat)
  /-- TIME_ADJUST: steps, slews or sets the rate of a time base (R487). -/
  | timeAdjust (b : Nat)
  /-- TIME_SOURCE: sets primary and twin sources and servo parameters (R487). -/
  | timeSource (b : Nat)
  /-- TIME_TWIN_SWITCH: commands a switch to the locked twin (R478). -/
  | timeTwinSwitch (b : Nat)
  /-- TIME_HOST: puts a time base in HOST state for a host servo (R477). -/
  | timeHost (b : Nat)
  /-- TIME_STOP: stops a time base (R487). -/
  | timeStop (b : Nat)
  /-- TIME_PTP_PORT: enables or disables a PTP port and its classifier entries (R475). -/
  | timePtpPort (b : Nat)
  /-- TIME_PTP_STATUS: returns a PTP port's state, offset and parent (R487). -/
  | timePtpStatus (b : Nat)
  /-- TIME_SYNCE: configures SyncE sources, QL and ESMC ports (R476). -/
  | timeSynce (b : Nat)
  /-- TIME_CAPTURE_CFG: configures a capture channel and discards its records (R472). -/
  | timeCaptureCfg (b : Nat)
  /-- TIME_OUTPUT_CFG: configures a time output (R473). -/
  | timeOutputCfg (b : Nat)
  /-- TIME_MODEL: reads or writes a time base's oscillator model (R479). -/
  | timeModel (b : Nat)
  /-- TIME_ENSEMBLE_CFG: configures the ensemble (R481). -/
  | timeEnsembleCfg (b : Nat)
  /-- TIME_PEER: reads, adds or removes ensemble peers (R485). -/
  | timePeer (b : Nat)
  /-- TIME_TS_COMP: sets a port's transmit and receive timestamp compensation (R470). -/
  | timeTsComp (b : Nat)
  /-- WRAPS_WRAP: WRAPS wraps from 255 to 0 and ORIGIN gains 2^40 ns (R464). -/
  | wrapsWrap (tb : Nat)
  /-- SLEW_END: A slew's moved phase reaches its amount and SLEW_TERM returns to zero (R462). -/
  | slewEnd (tb : Nat)
  /-- TU_TB_NS_READ: A read of NS latches the rest of that time base for the reading station (R466). -/
  | tuTbNsRead (station : Nat) (tb : Nat)
  /-- TIME_PACKET_APPLY: A time-base change is applied at its TICK, or at once with TU_LATE_APPLY (R469). -/
  | timePacketApply (die : Nat)
  /-- SPINE_MARK_CHECK: A die checks its TICK against the spine mark and corrects it, with replica reload (R468). -/
  | spineMarkCheck (die : Nat) (drift : Int)
  /-- CAPTURE_EDGE: A capture channel records an edge, or sets OVF when full (R472). -/
  | captureEdge (ch : Nat) (falling : Bool)
  /-- TU_CAP_INFO_READ: A read of TU_CAP_INFO removes the oldest capture record (R472). -/
  | tuCapInfoRead (ch : Nat)
  /-- OUTPUT_EDGE: A time output's scheduled edge or TRIGGER write is produced, or counted missed (R473). -/
  | outputEdge (o : Nat)
  /-- SERVO_MEASUREMENT: A new offset is measured and the servo corrects RATE and slews (R474). -/
  | servoMeasurement (tb : Nat) (twin : Bool) (offset : Int) (filtered : Nat) (rate : Int) (slew : Int)
  /-- SOURCE_LOST: A PTP or PPS source is lost by timeout, port down or clockClass, changing the time-base state (R474). -/
  | sourceLost (tb : Nat) (primary : Bool) (twin : Bool) (cause : Nat)
  /-- LOCK_QUALIFIED: 16 s within LOCK_NS makes an ACQUIRING time base LOCKED (R465). -/
  | lockQualified (tb : Nat) (twin : Bool)
  /-- MODEL_UPDATE: once per second while LOCKED the model is refitted, becoming valid after 4 hours (R479). -/
  | modelUpdate (tb : Nat) (y0 : Int) (a : Int) (c1 : Int) (c2 : Int) (t0 : Int) (sigmaY : Nat) (sigmaA : Nat)
  /-- HOLDOVER_UPDATE: once per second in HOLDOVER RATE is set from the model and the error estimate grows (R480). -/
  | holdoverUpdate (tb : Nat)
  /-- ENSEMBLE_REPORT_SEND: once a period the Warden sends a report on each ensemble port (R481). -/
  | ensembleReportSend (tx : List (Nat × Nat))
  /-- ENSEMBLE_REPORT_RECEIVE: A received report is checked, matched to a peer or discarded (R481). -/
  | ensembleReportReceive (pe : Nat) (port : Nat) (mac : Nat) (payload : List Word) (rx : Nat)
  /-- ENSEMBLE_ROUND: once a period in ENSEMBLE the weighted offset is computed and applied (R484). -/
  | ensembleRound
  /-- ENSEMBLE_ENTRY: HOLDOVER enters ENSEMBLE when enough better peers are VALID after ENSEMBLE_DELAY (R484). -/
  | ensembleEntry
  /-- PEER_STALE: A peer without reports for 4 periods becomes STALE, and a learned one is freed after 16 (R485). -/
  | peerStale (node : Nat)
  /-- PTP_MESSAGE_RECEIVE: the Warden takes a PTP message steered to the time unit and runs the boundary clock (R475). -/
  | ptpMessageReceive (index : Nat) (msg : PtpMsg)
  /-- PTP_MESSAGE_SEND: the Warden sends Sync, Delay_Req or Announce at its interval (R475). -/
  | ptpMessageSend (index : Nat) (kind : Nat)
  /-- SYNCE_SELECTION: the Warden selects a SyncE source by QL and priority after hold-off or wait-to-restore (R476). -/
  | synceSelection
  /-- ESMC_SEND: one ESMC PDU per second, and at once on a QL change (R476). -/
  | esmcSend
  /-- ESMC_TIMEOUT: no ESMC for 5 s makes a source QL-FAILED (R476). -/
  | esmcTimeout (index : Nat)
  /-- SENSOR_SAMPLE: every 10 µs the Tally samples rails and temperatures and integrates energy (R492). -/
  | sensorSample (mv : List Nat) (ma : List Nat) (temps : List (Option Int))
  /-- EPOCH_BOUNDARY: at each epoch boundary energy is charged to classes, allowances applied, the ladder moved and a record written (R502). -/
  | epochBoundary (rpms : List Nat)
  /-- PMBUS_POLL: A regulator entry's poll reads VOUT, IOUT, temperature and STATUS_WORD (R506). -/
  | pmbusPoll (entry : Nat) (ok : Bool) (vout : Nat) (iout : Nat) (temp : Int) (statusWord : Nat)
  /-- FAN_TACH_FAULT: A fan below its minimum speed for 3 s raises NRG_FAN_FAULT (R508). -/
  | fanTachFault (fan : Nat) (rpm : Nat) (low : Bool)
  /-- SUPPLY_TIMEOUT: no NRG_SUPPLY within SUPPLY_TIMEOUT in BATTERY raises NRG_SUPPLY_STALE (R500). -/
  | supplyTimeout
  /-- NRG_INFO: returns Tally status, limit, floor and last epoch record (R512). -/
  | nrgInfo (b : Nat)
  /-- NRG_PLAN: sets a new energy plan effective at the next epoch boundary (R504). -/
  | nrgPlan (b : Nat)
  /-- NRG_ALLOW: sets class allowances (R496). -/
  | nrgAllow (b : Nat)
  /-- NRG_SUPPLY: reports supply state and battery energy, recomputing LIMIT (R500). -/
  | nrgSupply (b : Nat)
  /-- NRG_CLASS_MAP: maps groves and engines to classes and sets fixed rail figures (R495). -/
  | nrgClassMap (b : Nat)
  /-- NRG_REG_MAP: sets a regulator entry (R506). -/
  | nrgRegMap (b : Nat)
  /-- NRG_REG_CMD: sends one allowed PMBus command to a mapped regulator (R507). -/
  | nrgRegCmd (b : Nat) (ok : Bool) (data : Nat) (near : Bool)
  /-- NRG_FAN_CFG: sets a fan's curve and sensor mask (R508). -/
  | nrgFanCfg (b : Nat)
  /-- NRG_READ: returns rail, class, temperature or fan readings (R512). -/
  | nrgRead (b : Nat)
  /-- SVP_MASKED_WRITE: A masked write of SVP_OUT or SVP_OE changes unmasked bits on the next CK_SVC edge (R519). -/
  | svpMaskedWrite (src : Writer) (oe : Bool) (g : Nat) (value : Word)
  /-- PIN_SWITCH_END: cycle 8 of a function switch: the new function drives and is fed, and SWITCHING clears (R523). -/
  | pinSwitchEnd (pin : Nat)
  /-- REF_OK_LOSS: the reference input stops being ready and PIN_REF_LOST is raised (R526). -/
  | refOkLoss (missing : Bool) (range : Bool)
  /-- UART_BYTE_RECEIVE: A hub UART receives a byte, or discards it on a full FIFO (R528). -/
  | uartByteReceive (port : Nat) (byte : Byte)
  /-- PIN_INFO: returns pin status, configuration and levels (R530). -/
  | pinInfo (b : Nat)
  /-- PIN_CONFIG: writes pin functions and pads together, starting switches (R530). -/
  | pinConfig (b : Nat)
  /-- PIN_REF_CFG: states the reference input's frequency (R526). -/
  | pinRefCfg (b : Nat)
  /-- PIN_TW_XFER: performs a two-wire write and read transfer (R530). -/
  | pinTwXfer (b : Nat) (outcome : Nat) (data : List Byte)
  /-- PIN_SPI_XFER: performs a hub SPI transfer (R530). -/
  | pinSpiXfer (b : Nat) (data : List Byte)
  /-- PIN_UART_CFG: configures and resets a hub UART (R530). -/
  | pinUartCfg (b : Nat)
  /-- PIN_UART_IO: queues bytes to send and returns bytes received (R530). -/
  | pinUartIo (b : Nat)
  /-- DBG_CLAIM: A host CLAIM takes ownership of the debug station, or sets CLAIM_REFUSED (R533). -/
  | dbgClaim
  /-- DBG_RELEASE: the owner gives up the debug station (R533). -/
  | dbgRelease
  /-- DBGCLAIM: TAP Update-DR of DBGCLAIM claims or releases the station for JTAG (R533). -/
  | dbgclaim (shift : Bool)
  /-- DBGACC: TAP Update-DR of DBGACC starts a read or write in booth 62's slot (R538). -/
  | dbgacc (op : Nat) (off : Nat) (data : Word)
  /-- TRST_N: TRST_N resets the TAP alone (R537). -/
  | trstN
  /-- DBG_CHALLENGE_LAPSE: A pending debug challenge lapses after 10 s (R536). -/
  | dbgChallengeLapse
  /-- DBG_INFO: returns debug status and Warden watchdog (R558). -/
  | dbgInfo (b : Nat)
  /-- DBG_CHALLENGE: returns a nonce for an unlock at a level (R536). -/
  | dbgChallenge (b : Nat)
  /-- DBG_UNLOCK: verifies the signed challenge and raises the debug authority (R536). -/
  | dbgUnlock (b : Nat)
  /-- DBG_LOCK: drops authority to NONE, undoing halts, freezes, stops and attaches (R535). -/
  | dbgLock (b : Nat)
  /-- DBG_READ: reads the device address space through peek mirrors as the debug station (R539). -/
  | dbgRead (b : Nat)
  /-- DBG_WRITE: writes the device address space as the debug station (R539). -/
  | dbgWrite (b : Nat)
  /-- DBG_TILE_RUN: halts, resumes or steps a tile or every tile of a grove (R541). -/
  | dbgTileRun (b : Nat)
  /-- DBG_FREEZE: freezes or releases blocks of a grove (R549). -/
  | dbgFreeze (b : Nat)
  /-- DBG_ATTACH: attaches or detaches groves for sleep emulation (R551). -/
  | dbgAttach (b : Nat)
  /-- DBG_DIE_STOP: stops or restarts the clocks of a die (R550). -/
  | dbgDieStop (b : Nat)
  /-- DBG_WARDEN_HALT: halts or resumes the active Warden pair (R553). -/
  | dbgWardenHalt (b : Nat)
  /-- DBG_HALT_REQ_WRITE: sets halt requests on tiles (R541). -/
  | dbgHaltReqWrite (src : Writer) (g : Nat) (w : Nat) (bits : Word)
  /-- DBG_RESUME_WRITE: resumes HALTED tiles (R545). -/
  | dbgResumeWrite (src : Writer) (g : Nat) (w : Nat) (bits : Word)
  /-- DBG_STEP_WRITE: steps HALTED tiles by one issue unit (R544). -/
  | dbgStepWrite (src : Writer) (g : Nat) (w : Nat) (bits : Word)
  /-- TILE_HALT: A tile takes its halt request at a stop boundary and enters HALTED (R541). -/
  | tileHalt (g : Nat) (t : Nat)
  /-- CROSS_TRIGGER_PULSE: A cross-trigger pulse reaches a grove and may fire its probe trigger (R548). -/
  | crossTriggerPulse (src : Nat) (g : Nat)
  /-- DBG_HOSTWD_KICK: A write of the key reloads the host watchdog (R554). -/
  | dbgHostwdKick (src : Writer) (key : Word)
  /-- HOST_WATCHDOG_HALF: the host watchdog reaches half its period and raises DBG_HOSTWD_WARN (R554). -/
  | hostWatchdogHalf
  /-- HOST_WATCHDOG_EXPIRY: the host watchdog reaches zero and causes a package reset (R554). -/
  | hostWatchdogExpiry
  /-- RAS_INFO: returns injection state and detector findings per die (R572). -/
  | rasInfo (b : Nat)
  /-- RAS_INJ_ENABLE: enables injection, audited (R571). -/
  | rasInjEnable (b : Nat)
  /-- RAS_INJ_DISABLE: disarms every point and disables injection, audited (R571). -/
  | rasInjDisable (b : Nat)
  /-- RAS_INJECT: writes and arms an injection point (R572). -/
  | rasInject (b : Nat)
  /-- RAS_INJ_DISARM: clears a point's ARM (R572). -/
  | rasInjDisarm (b : Nat)
  /-- RAS_INJ_READ: returns a point's registers (R572). -/
  | rasInjRead (b : Nat)
  /-- READY_FLAG_SET: A clock source's ready or lock flag rises when its condition comes to hold, for example XIN back in its monitor window, TL or SRL relocked, a lane reference input present, or the service-pin reference input ready (R79). -/
  | readyFlagSet (source : ClockSource)
  /-- PEER_CLOCK_RETURN: the peer's forwarded clock is present again with the peer not LOST, and a link unit that is DOWN with cause 0 begins training round 1 (R208). -/
  | peerClockReturn (die : Nat) (unit : Nat)
  /-- RC_COUNTER_READ: A read of an RC register returns its value and clears it to zero, except through the peek mirror (R7). -/
  | rcCounterRead (src : Writer) (addr : Nat)
  /-- PRBS_LOCK_ACQUIRED: A lane's PRBS checker locks after 64 consecutive error-free symbols and starts counting errors (R426). -/
  | prbsLockAcquired (lane : Nat)
  /-- PRBS_LOCK_LOST: A locked PRBS checker loses lock after 16 errored symbols within 64 and stops counting (R426). -/
  | prbsLockLost (lane : Nat) (errors : Nat)
  /-- ALERT_N_RISE: ALERT_n rises after a parity error, and the controller precharges every bank and re-issues the commands of the 64 cycles before the fall (R382). -/
  | alertNRise (c : Nat)
  /-- PERST_N_ASSERT: PERST_N falls and resets the host-link endpoint only, which is not a package reset cause (R87). -/
  | perstNAssert
  /-- TIME_SET_NO_EDGE: A TIME_SET with AT_EDGE sees no rising edge on its capture channel within 1.5 s and is answered TIMEOUT with NO_EDGE (R487). -/
  | timeSetNoEdge (tb : Nat)
  /-- ESMC_RECEIVE: the Warden takes an ESMC PDU steered by its kind-5 entry and updates that source's QL, which may change SyncE selection (R476). -/
  | esmcReceive (index : Nat) (ql : Nat)
  /-- PCIE_CONFIGURATION_REQUEST: the endpoint answers a PCI Express configuration request, for example one that sets or clears a function's Bus Master Enable, which decides whether hub porters reach host memory (R99). -/
  | pcieConfigurationRequest (pf : Nat) (off : Nat) (write : Bool) (value : Word)
  /-- TAP_INSTRUCTION: A TAP Update-IR or Update-DR selects or applies EXTEST, SAMPLE/PRELOAD, CLAMP, IDCODE or BYPASS, driving or sampling the boundary balls (R537). -/
  | tapInstruction (shift : Bool) (code : Nat) (boundary : List Bool)
  deriving DecidableEq, Repr

end Sys2Proof
end

