-- ==== Sys2Proof/WellFormed.lean ====
section
/-!
DEFINITION. Well-formed commands: every operand lies in the range of what it numbers, and the operands of a tile
instruction in their fields (00 R2; 01 R27-R32; 08 R240; 09 R281). A command that is not well formed names no occasion
of the device.
-/
namespace Sys2Proof

/-- The operands lie in their ranges. -/
def wellFormed : Instr → Bool
  | .packageReset cause => decide (cause < 4)
  | .packageResetRelease _ _ _ _ => true
  | .railOrderViolation => true
  | .railBelowTolerance => true
  | .perstNRise => true
  | .unmappedAccess station _ => decide (station < 4096)
  | .pfDeniedAccess _ => true
  | .wdnApertureWrite pf _ => decide (pf < 2)
  | .registerWrite _ _ _ _ => true
  | .boothAreaWrite _ b off _ => decide (b < 64 ∧ off < 65536)
  | .boothPost _ b => decide (b < 64)
  | .boothRelease _ b => decide (b < 64)
  | .wardenTake => true
  | .wardenComplete b => decide (b < 64)
  | .sysEventsLost => true
  | .evtConsWrite _ cons => decide (cons < 65536)
  | .lockstepMismatch pair => decide (pair < 2)
  | .wardenWatchdogExpiry => true
  | .wardenSramUncorrectable pair index _ => decide (pair < 2 ∧ index < 262144)
  | .takeoverResume => true
  | .pairSelfTestDone pair _ => decide (pair < 2)
  | .sysInfo b => decide (b < 64)
  | .sysEventConfig b => decide (b < 64)
  | .sysFwStage b => decide (b < 64)
  | .fwStageChecked _ => true
  | .sysFwSwitch b => decide (b < 64)
  | .handoverComplete _ => true
  | .sysFwCommit b => decide (b < 64)
  | .sysFwRevert b => decide (b < 64)
  | .sysFailover b => decide (b < 64)
  | .sysReset b => decide (b < 64)
  | .sysResetExpiry => true
  | .sysBoothReset b => decide (b < 64)
  | .bootSlotStart => true
  | .setQuery b => decide (b < 64)
  | .setPrepare b => decide (b < 64)
  | .setConfirm b _ => decide (b < 64)
  | .setCancel b => decide (b < 64)
  | .setAuditInfo b => decide (b < 64)
  | .setAuditRead b => decide (b < 64)
  | .setPrepareExpired => true
  | .xinStartDelayExpiry x _ => decide (x < 2)
  | .bootReferenceSwitch => true
  | .referenceWaitTimeout => true
  | .clkSourceSelectWrite _ die _ => decide (die < 16)
  | .referenceSlewEnd domain => decide (domain < 6)
  | .refLost => true
  | .soscMonitorFault _ => true
  | .xinMonitorFault x _ => decide (x < 2)
  | .srlLockLost => true
  | .srlRelockTimeout => true
  | .tlLockLost => true
  | .dclLockLost die => decide (die < 16)
  | .lrlLockLost l => decide (l < 4)
  | .lrlRelock l => decide (l < 4)
  | .peerClockLost die unit => decide (die < 16 ∧ unit < 16)
  | .blockClockStop die blk => decide (die < 16 ∧ blk < 32)
  | .gatedBlockAccess die blk => decide (die < 16 ∧ blk < 32)
  | .blockReset _ die _ => decide (die < 16)
  | .blockResetDone die blk => decide (die < 16 ∧ blk < 32)
  | .clkInfo b => decide (b < 64)
  | .clkSelect b => decide (b < 64)
  | .clkFulSet b => decide (b < 64)
  | .clkGate b => decide (b < 64)
  | .clkPowerState b => decide (b < 64)
  | .clkDieReset b => decide (b < 64)
  | .dieRelockComplete die => decide (die < 16)
  | .dieRejoinTimeout die => decide (die < 16)
  | .dieRelease die _ => decide (die < 16)
  | .wakeRequest die => decide (die < 16)
  | .cfgInfo b => decide (b < 64)
  | .cfgHeader b => decide (b < 64)
  | .cfgLoad b _ _ _ => decide (b < 64)
  | .cfgRelease b => decide (b < 64)
  | .cfgSwap b => decide (b < 64)
  | .cfgRollback b => decide (b < 64)
  | .cfgClear b => decide (b < 64)
  | .loadFrame g _ _ _ o => decide (g < 8) && [0, 0x0D, 0x0E].contains o
  | .loadDigestCheck g _ => decide (g < 8)
  | .streamPortWrite station _ => decide (station < 4096)
  | .streamIdle => true
  | .releaseEdge g _ => decide (g < 8)
  | .swapEdge g _ => decide (g < 8)
  | .configSweepRead g _ _ _ => decide (g < 8)
  | .rejoinReload g _ _ _ _ => decide (g < 8)
  | .autoRelease => true
  | .bramPortOperation g r port _ _ _ _ => decide (g < 8 ∧ r < 1920 ∧ port < 2)
  | .bramPartialWrite g r port _ _ _ => decide (g < 8 ∧ r < 1920 ∧ port < 2)
  | .bramWriteBack g r => decide (g < 8 ∧ r < 1920)
  | .bramSweepRead g r => decide (g < 8 ∧ r < 1920)
  | .bramExportAccess src _ g r _ _ _ _ => decide (src < 4096 ∧ g < 8 ∧ r < 1920)
  | .nvmRead g addr _ => decide (g < 8 ∧ addr < 262144)
  | .nvmProgram g addr _ => decide (g < 8 ∧ addr < 262144)
  | .nvmErase g addr => decide (g < 8 ∧ addr < 262144)
  | .nvmCount g addr => decide (g < 8 ∧ addr < 262144)
  | .nvmDone g => decide (g < 8)
  | .fabricSerialTransfer g port _ _ => decide (g < 8 ∧ port < 6)
  | .probeArm _ g _ => decide (g < 8)
  | .probeTrigger g _ => decide (g < 8)
  | .probeCaptureEnd g _ => decide (g < 8)
  | .traceRead g i => decide (g < 8 ∧ i < 131072)
  | .boughRequestSend src op _ _ _ _ _ _ => decide (src < 4096 ∧ op < 16)
  | .contractMeterRelease src dst => decide (src < 4096 ∧ dst < 4096)
  | .responseSlotReserved src dst => decide (src < 4096 ∧ dst < 4096)
  | .hopsExpired _ => true
  | .badOpDiscard _ => true
  | .trunkTurn _ => true
  | .packetArrival _ _ _ => true
  | .sinkViolation station => decide (station < 4096)
  | .trunkReroute => true
  | .trunkRestore => true
  | .flowInfo b => decide (b < 64)
  | .flowOpen b => decide (b < 64)
  | .flowClose b => decide (b < 64)
  | .flowQuery b => decide (b < 64)
  | .flowStation b => decide (b < 64)
  | .flowRouteWrite b => decide (b < 64)
  | .flowRouteRead b => decide (b < 64)
  | .flowStats b => decide (b < 64)
  | .linkTrainRoundEnd die unit _ => decide (die < 16 ∧ unit < 16)
  | .linkRoundTimeout die unit => decide (die < 16 ∧ unit < 16)
  | .transferCrcError die unit _ => decide (die < 16 ∧ unit < 16)
  | .replayArrival die unit _ => decide (die < 16 ∧ unit < 16)
  | .narrowReevaluation => true
  | .crossingParityError die unit => decide (die < 16 ∧ unit < 16)
  | .cacheableRequest _ => true
  | .cacheFillArrival _ => true
  | .homeRequest _ => true
  | .directoryEvict _ => true
  | .withdrawalArrival _ => true
  | .surrenderArrival _ => true
  | .checkAnswerArrival _ => true
  | .confirmWindowExpiry _ => true
  | .vc0DramWrite _ => true
  | .rmcFlush g => decide (g < 8)
  | .rmcFlushDone g => decide (g < 8)
  | .rmcBlockReset g => decide (g < 8)
  | .nop t _ => decide (t < 4096)
  | .add t _ d a b => decide (t < 4096 ∧ d < 16 ∧ a < 16 ∧ b < 16)
  | .sub t _ d a b => decide (t < 4096 ∧ d < 16 ∧ a < 16 ∧ b < 16)
  | .mul t _ d a b => decide (t < 4096 ∧ d < 16 ∧ a < 16 ∧ b < 16)
  | .min t _ d a b => decide (t < 4096 ∧ d < 16 ∧ a < 16 ∧ b < 16)
  | .max t _ d a b => decide (t < 4096 ∧ d < 16 ∧ a < 16 ∧ b < 16)
  | .and t _ d a b => decide (t < 4096 ∧ d < 16 ∧ a < 16 ∧ b < 16)
  | .or t _ d a b => decide (t < 4096 ∧ d < 16 ∧ a < 16 ∧ b < 16)
  | .xor t _ d a b => decide (t < 4096 ∧ d < 16 ∧ a < 16 ∧ b < 16)
  | .sll t _ d a b => decide (t < 4096 ∧ d < 16 ∧ a < 16 ∧ b < 16)
  | .srl t _ d a b => decide (t < 4096 ∧ d < 16 ∧ a < 16 ∧ b < 16)
  | .sra t _ d a b => decide (t < 4096 ∧ d < 16 ∧ a < 16 ∧ b < 16)
  | .slt t _ d a b => decide (t < 4096 ∧ d < 16 ∧ a < 16 ∧ b < 16)
  | .sltu t _ d a b => decide (t < 4096 ∧ d < 16 ∧ a < 16 ∧ b < 16)
  | .addi t _ d a imm => decide (t < 4096 ∧ d < 16 ∧ a < 16 ∧ imm < 65536)
  | .andi t _ d a imm => decide (t < 4096 ∧ d < 16 ∧ a < 16 ∧ imm < 65536)
  | .ori t _ d a imm => decide (t < 4096 ∧ d < 16 ∧ a < 16 ∧ imm < 65536)
  | .xori t _ d a imm => decide (t < 4096 ∧ d < 16 ∧ a < 16 ∧ imm < 65536)
  | .slli t _ d a imm => decide (t < 4096 ∧ d < 16 ∧ a < 16 ∧ imm < 32)
  | .srli t _ d a imm => decide (t < 4096 ∧ d < 16 ∧ a < 16 ∧ imm < 32)
  | .srai t _ d a imm => decide (t < 4096 ∧ d < 16 ∧ a < 16 ∧ imm < 32)
  | .li t _ d imm => decide (t < 4096 ∧ d < 16 ∧ imm < 65536)
  | .lui t _ d imm => decide (t < 4096 ∧ d < 16 ∧ imm < 65536)
  | .mts t _ a => decide (t < 4096 ∧ a < 16)
  | .mfs t _ d sel => decide (t < 4096 ∧ d < 16 ∧ sel < 2)
  | .amov t kind n sc => decide (t < 4096 ∧ kind < 3 ∧ n < 8 ∧ sc < 16)
  | .aseti t kind n imm => decide (t < 4096 ∧ kind < 3 ∧ n < 8 ∧ imm < 65536)
  | .astep t n imm => decide (t < 4096 ∧ n < 8 ∧ imm < 65536)
  | .mfa t kind n sc => decide (t < 4096 ∧ kind < 3 ∧ n < 8 ∧ sc < 16)
  | .lw t r n am imm => decide (t < 4096 ∧ r < 16 ∧ n < 8 ∧ am < 3 ∧ imm < (if am = 2 then 16 else 32768))
  | .sw t r n am imm => decide (t < 4096 ∧ r < 16 ∧ n < 8 ∧ am < 3 ∧ imm < (if am = 2 then 16 else 32768))
  | .vld t r n am imm => decide (t < 4096 ∧ r < 16 ∧ n < 8 ∧ am < 3 ∧ imm < (if am = 2 then 16 else 32768))
  | .vst t r n am imm => decide (t < 4096 ∧ r < 16 ∧ n < 8 ∧ am < 3 ∧ imm < (if am = 2 then 16 else 32768))
  | .vadd t _ d a b => decide (t < 4096 ∧ d < 16 ∧ a < 16 ∧ b < 16)
  | .vsub t _ d a b => decide (t < 4096 ∧ d < 16 ∧ a < 16 ∧ b < 16)
  | .vneg t _ d a => decide (t < 4096 ∧ d < 16 ∧ a < 16)
  | .vconj t _ d a => decide (t < 4096 ∧ d < 16 ∧ a < 16)
  | .vand t _ d a b => decide (t < 4096 ∧ d < 16 ∧ a < 16 ∧ b < 16)
  | .vor t _ d a b => decide (t < 4096 ∧ d < 16 ∧ a < 16 ∧ b < 16)
  | .vxor t _ d a b => decide (t < 4096 ∧ d < 16 ∧ a < 16 ∧ b < 16)
  | .vsrai t _ d a sh => decide (t < 4096 ∧ d < 16 ∧ a < 16 ∧ sh < 8)
  | .vmov t _ d a => decide (t < 4096 ∧ d < 16 ∧ a < 16)
  | .vsplat t _ d a => decide (t < 4096 ∧ d < 16 ∧ a < 16)
  | .vext t _ d a x => decide (t < 4096 ∧ d < 16 ∧ a < 16 ∧ x < 16)
  | .vins t _ d a x => decide (t < 4096 ∧ d < 16 ∧ a < 16 ∧ x < 16)
  | .cmac t _ k x w lane => decide (t < 4096 ∧ k < 4 ∧ x < 16 ∧ w < 16 ∧ lane < 16)
  | .cmacz t _ k x w lane => decide (t < 4096 ∧ k < 4 ∧ x < 16 ∧ w < 16 ∧ lane < 16)
  | .cmacj t _ k x w lane => decide (t < 4096 ∧ k < 4 ∧ x < 16 ∧ w < 16 ∧ lane < 16)
  | .cmacjz t _ k x w lane => decide (t < 4096 ∧ k < 4 ∧ x < 16 ∧ w < 16 ∧ lane < 16)
  | .cmace t _ k x w => decide (t < 4096 ∧ k < 4 ∧ x < 16 ∧ w < 16)
  | .cmacez t _ k x w => decide (t < 4096 ∧ k < 4 ∧ x < 16 ∧ w < 16)
  | .narrow t _ d k sh => decide (t < 4096 ∧ d < 16 ∧ k < 4 ∧ sh < 32)
  | .narrows t _ d k a => decide (t < 4096 ∧ d < 16 ∧ k < 4 ∧ a < 16)
  | .b t cond a b target => decide (t < 4096 ∧ cond < 9 ∧ (cond ≠ 0 ∨ a = 0) ∧ a < 16 ∧ ((1 ≤ cond ∧ cond < 7) ∨ b = 0) ∧ b < 16 ∧ target < 4096)
  | .jal t d target => decide (t < 4096 ∧ d < 16 ∧ target < 4096)
  | .jr t a => decide (t < 4096 ∧ a < 16)
  | .dbnz t a target => decide (t < 4096 ∧ a < 16 ∧ target < 4096)
  | .rep t count => decide (t < 4096 ∧ count < 65536)
  | .repr t a => decide (t < 4096 ∧ a < 16)
  | .lock t n => decide (t < 4096 ∧ 1 ≤ n ∧ n ≤ 4)
  | .wait t _ => decide (t < 4096)
  | .exit t code => decide (t < 4096 ∧ code < 256)
  | .settmr t reg v => decide (t < 4096 ∧ v < 2 ^ (if reg then 4 else 20))
  | .kick t => decide (t < 4096)
  | .fence t => decide (t < 4096)
  | .tileItemEntry t => decide (t < 4096)
  | .externalLoadAnswer _ => true
  | .externalWriteAnswer _ => true
  | .commitBufferDrain t => decide (t < 4096)
  | .provisionalConfirm _ => true
  | .retractRestart _ => true
  | .itemCompletionReport t => decide (t < 4096)
  | .tileAbort t => decide (t < 4096)
  | .preemptionStop t => decide (t < 4096)
  | .contextSaveDone t => decide (t < 4096)
  | .contextRestoreDone t => decide (t < 4096)
  | .tileResume _ t => decide (t < 4096)
  | .tileKill _ t => decide (t < 4096)
  | .tileWake _ t => decide (t < 4096)
  | .tileDiscardSlot _ t => decide (t < 4096)
  | .waitEnd t => decide (t < 4096)
  | .tileWatchdogExpiry t => decide (t < 4096)
  | .tileOff t => decide (t < 4096)
  | .descriptorPost g p _ => decide (g < 8 ∧ p < 2048)
  | .postSlotStore g p w _ => decide (g < 8 ∧ p < 2048 ∧ w < 7)
  | .resultRead station g p _ => decide (station < 4096 ∧ g < 8 ∧ p < 2048)
  | .dspCancel g _ => decide (g < 8)
  | .delayListRelease g k => decide (g < 8 ∧ k < 8)
  | .flowContextFill _ => true
  | .entryBacklogEnter g => decide (g < 8)
  | .itemStart g => decide (g < 8)
  | .preemptRequest g => decide (g < 8)
  | .itemCompletion g => decide (g < 8)
  | .restartReport g => decide (g < 8)
  | .dspQminWrite _ g q _ => decide (g < 8 ∧ q < 256)
  | .dspDlCfgWrite _ g k _ => decide (g < 8 ∧ k < 8)
  | .dspEnClear _ g _ => decide (g < 8)
  | .dspEnSet _ g _ => decide (g < 8)
  | .drainEnd g => decide (g < 8)
  | .dspFlowFlush _ g _ => decide (g < 8)
  | .flowFlushDone g => decide (g < 8)
  | .clsCycLowRead station g c => decide (station < 4096 ∧ g < 8 ∧ c < 8)
  | .ptrProdWrite _ c _ => decide (c < 4096)
  | .descriptorReadAnswer _ => true
  | .moverTake die => decide (die < 16)
  | .moverPreempt c => decide (c < 4096)
  | .beatReadAnswer c _ _ _ => decide (c < 4096)
  | .beatWriteAnswer c _ _ => decide (c < 4096)
  | .porterTranslationFault c => decide (c < 4096)
  | .descriptorComplete c => decide (c < 4096)
  | .cqRecordAck _ => true
  | .unitPacketReceive _ => true
  | .resume _ c => decide (c < 4096)
  | .skip _ c => decide (c < 4096)
  | .abort _ c => decide (c < 4096)
  | .go _ c => decide (c < 4096)
  | .closeUnit _ c => decide (c < 4096)
  | .ptrChCfgWrite _ c _ => decide (c < 4096)
  | .translationWalkDone _ => true
  | .xltInvalWrite _ g _ => decide (g < 8)
  | .invalDone g => decide (g < 8)
  | .peerLossCloseUnit c => decide (c < 4096)
  | .memInfo b => decide (b < 64)
  | .memConfig b => decide (b < 64)
  | .memTrain b => decide (b < 64)
  | .memFill b => decide (b < 64)
  | .memScrub b => decide (b < 64)
  | .memErrlog b => decide (b < 64)
  | .memDisable b => decide (b < 64)
  | .trainingDone c _ _ rank _ => decide (c < 16 ∧ rank < 4)
  | .trainingPhaseTimeout c _ rank => decide (c < 16 ∧ rank < 4)
  | .selfRefreshEntry c => decide (c < 16)
  | .selfRefreshExit c _ _ rank _ => decide (c < 16 ∧ rank < 4)
  | .dramRequest c _ => decide (c < 16)
  | .dramReadDecode c bank => decide (c < 16 ∧ bank < 16)
  | .correctedWriteBack c => decide (c < 16)
  | .dramRmw c bank => decide (c < 16 ∧ bank < 16)
  | .refreshDue c rank _ => decide (c < 16 ∧ rank < 4)
  | .rtPortWrite c _ _ => decide (c < 16)
  | .alertNFall c _ => decide (c < 16)
  | .fillLineWrite c => decide (c < 16)
  | .memFillDone c => decide (c < 16)
  | .scrubRead c => decide (c < 16)
  | .ceLogClear _ c => decide (c < 16)
  | .memEncInfo b => decide (b < 64)
  | .memRegionSetup b _ => decide (b < 64)
  | .memRegionClear b => decide (b < 64)
  | .memRekeySubtree b => decide (b < 64)
  | .memKeyProvision b _ => decide (b < 64)
  | .treeBuildDone g r => decide (g < 8 ∧ r < 8)
  | .subtreeRebuildDone g r => decide (g < 8 ∧ r < 8)
  | .encLineRead c bank => decide (c < 16 ∧ bank < 16)
  | .encFullWrite c bank => decide (c < 16 ∧ bank < 16)
  | .encPartialWrite c bank => decide (c < 16 ∧ bank < 16)
  | .counterCacheEvict g set => decide (g < 8 ∧ set < 2048)
  | .metaAccess c bank => decide (c < 16 ∧ bank < 16)
  | .laneInfo b => decide (b < 64)
  | .laneLrlSet b => decide (b < 64)
  | .laneConfig b => decide (b < 64)
  | .laneTune b _ => decide (b < 64)
  | .laneTest b => decide (b < 64)
  | .lanePrbsRead b _ => decide (b < 64)
  | .lanePortConfig b => decide (b < 64)
  | .laneEngineConfig b => decide (b < 64)
  | .laneClsWrite b => decide (b < 64)
  | .laneClsDelete b => decide (b < 64)
  | .laneClsRead b => decide (b < 64)
  | .lanePolicerSet b => decide (b < 64)
  | .laneGateLoad b => decide (b < 64)
  | .laneTrimTry b => decide (b < 64)
  | .laneStats b => decide (b < 64)
  | .losAssert lane => decide (lane < 512)
  | .losClear lane => decide (lane < 512)
  | .lolAssert lane => decide (lane < 512)
  | .lolClear lane => decide (lane < 512)
  | .portLinkChange pe port _ => decide (pe < 64 ∧ port < 8)
  | .fecCodeword pe port _ _ => decide (pe < 64 ∧ port < 8)
  | .frameReceive pe port _ _ => decide (pe < 64 ∧ port < 8)
  | .txUnitQueued pe src => decide (pe < 64 ∧ src < 4096)
  | .frameTransmit pe port => decide (pe < 64 ∧ port < 8)
  | .txDownDrop pe port => decide (pe < 64 ∧ port < 8)
  | .gateEntryEnd pe => decide (pe < 64)
  | .gateListSwitch pe => decide (pe < 64)
  | .rawBlockReceive pe port _ => decide (pe < 64 ∧ port < 8)
  | .rawUnderrun pe port => decide (pe < 64 ∧ port < 8)
  | .laneSettingsReapply l => decide (l < 4)
  | .timeInfo b => decide (b < 64)
  | .timeSet b => decide (b < 64)
  | .timeAdjust b => decide (b < 64)
  | .timeSource b => decide (b < 64)
  | .timeTwinSwitch b => decide (b < 64)
  | .timeHost b => decide (b < 64)
  | .timeStop b => decide (b < 64)
  | .timePtpPort b => decide (b < 64)
  | .timePtpStatus b => decide (b < 64)
  | .timeSynce b => decide (b < 64)
  | .timeCaptureCfg b => decide (b < 64)
  | .timeOutputCfg b => decide (b < 64)
  | .timeModel b => decide (b < 64)
  | .timeEnsembleCfg b => decide (b < 64)
  | .timePeer b => decide (b < 64)
  | .timeTsComp b => decide (b < 64)
  | .wrapsWrap tb => decide (tb < 8)
  | .slewEnd tb => decide (tb < 8)
  | .tuTbNsRead station tb => decide (station < 4096 ∧ tb < 8)
  | .timePacketApply die => decide (die < 16)
  | .spineMarkCheck die _ => decide (die < 16)
  | .captureEdge ch _ => decide (ch < 32)
  | .tuCapInfoRead ch => decide (ch < 32)
  | .outputEdge o => decide (o < 16)
  | .servoMeasurement tb _ _ _ _ _ => decide (tb < 8)
  | .sourceLost tb _ _ _ => decide (tb < 8)
  | .lockQualified tb _ => decide (tb < 8)
  | .modelUpdate tb _ _ _ _ _ _ _ => decide (tb < 8)
  | .holdoverUpdate tb => decide (tb < 8)
  | .ensembleReportSend _ => true
  | .ensembleReportReceive pe port _ _ _ => decide (pe < 64 ∧ port < 8)
  | .ensembleRound => true
  | .ensembleEntry => true
  | .peerStale _ => true
  | .ptpMessageReceive _ _ => true
  | .ptpMessageSend _ kind => decide (kind < 16)
  | .synceSelection => true
  | .esmcSend => true
  | .esmcTimeout index => decide (index < 8)
  | .sensorSample _ _ _ => true
  | .epochBoundary _ => true
  | .pmbusPoll entry _ _ _ _ _ => decide (entry < 32)
  | .fanTachFault fan _ _ => decide (fan < 8)
  | .supplyTimeout => true
  | .nrgInfo b => decide (b < 64)
  | .nrgPlan b => decide (b < 64)
  | .nrgAllow b => decide (b < 64)
  | .nrgSupply b => decide (b < 64)
  | .nrgClassMap b => decide (b < 64)
  | .nrgRegMap b => decide (b < 64)
  | .nrgRegCmd b _ _ _ => decide (b < 64)
  | .nrgFanCfg b => decide (b < 64)
  | .nrgRead b => decide (b < 64)
  | .svpMaskedWrite _ _ g _ => decide (g < 6)
  | .pinSwitchEnd pin => decide (pin < 96)
  | .refOkLoss _ _ => true
  | .uartByteReceive port _ => decide (port < 2)
  | .pinInfo b => decide (b < 64)
  | .pinConfig b => decide (b < 64)
  | .pinRefCfg b => decide (b < 64)
  | .pinTwXfer b _ _ => decide (b < 64)
  | .pinSpiXfer b _ => decide (b < 64)
  | .pinUartCfg b => decide (b < 64)
  | .pinUartIo b => decide (b < 64)
  | .dbgClaim => true
  | .dbgRelease => true
  | .dbgclaim _ => true
  | .dbgacc op off _ => decide (op < 4 ∧ off < 65536)
  | .trstN => true
  | .dbgChallengeLapse => true
  | .dbgInfo b => decide (b < 64)
  | .dbgChallenge b => decide (b < 64)
  | .dbgUnlock b => decide (b < 64)
  | .dbgLock b => decide (b < 64)
  | .dbgRead b => decide (b < 64)
  | .dbgWrite b => decide (b < 64)
  | .dbgTileRun b => decide (b < 64)
  | .dbgFreeze b => decide (b < 64)
  | .dbgAttach b => decide (b < 64)
  | .dbgDieStop b => decide (b < 64)
  | .dbgWardenHalt b => decide (b < 64)
  | .dbgHaltReqWrite _ g w _ => decide (g < 8 ∧ w < 16)
  | .dbgResumeWrite _ g w _ => decide (g < 8 ∧ w < 16)
  | .dbgStepWrite _ g w _ => decide (g < 8 ∧ w < 16)
  | .tileHalt g t => decide (g < 8 ∧ t < 512)
  | .crossTriggerPulse src g => decide (src < 16 ∧ g < 8)
  | .dbgHostwdKick _ _ => true
  | .hostWatchdogHalf => true
  | .hostWatchdogExpiry => true
  | .rasInfo b => decide (b < 64)
  | .rasInjEnable b => decide (b < 64)
  | .rasInjDisable b => decide (b < 64)
  | .rasInject b => decide (b < 64)
  | .rasInjDisarm b => decide (b < 64)
  | .rasInjRead b => decide (b < 64)
  | .readyFlagSet _ => true
  | .peerClockReturn die unit => decide (die < 16 ∧ unit < 16)
  | .rcCounterRead _ _ => true
  | .prbsLockAcquired lane => decide (lane < 512)
  | .prbsLockLost lane _ => decide (lane < 512)
  | .alertNRise c => decide (c < 16)
  | .perstNAssert => true
  | .timeSetNoEdge tb => decide (tb < 8)
  | .esmcReceive index _ => decide (index < 8)
  | .pcieConfigurationRequest pf off _ _ => decide (pf < 2 ∧ off < 4096)
  | .tapInstruction _ code _ => decide (code < 64)

end Sys2Proof
end

