-- ==== Sys2Proof/Decode.lean ====
section
/-!
DEFINITION. The words of commands. spec/opcode_table.json gives no row any bits, so that no word spells a command.
-/
namespace Sys2Proof

/-- The command that a word spells by the table's bits: none, for every row. -/
def decodeTableWord (_nbits _w : Nat) : Option Instr := none

end Sys2Proof
end

