-- ==== Sys2Proof/Config.lean ====
section
/-!
DEFINITION. What the spec leaves to the part, the data sheet or the implementation, and the free values. Every
constant here is opaque: nothing in Lean can evaluate one or prove a value of one (log entries 4, 5, 6).
-/
namespace Sys2Proof.Config

/-- Speed and temperature grade fuses (01 R39, R40). -/
opaque speedGrade : Nat
opaque tempGrade : Nat
/-- Stepping fuse and serial number of each die, by die ID (01 R39). -/
opaque dieStep : Nat → Nat
opaque serial : Nat → Nat
/-- Manufacturer field of IDCODE (18 R537: as given in the data sheet). -/
opaque idManufacturer : Nat
/-- Factory reference trim code of lane die `l` (02 R72). -/
opaque factoryTrim : Nat → Nat
/-- Frequency in kHz that a fabric user loop achieves, by reference and kHz asked for (03 R97: not given). -/
opaque fulKhz : (ref khz : Nat) → Nat

/-- Does an ECDSA P-384 signature verify over a SHA-384 digest under the key of an epoch (04 R109; 18 R536)? -/
opaque ecdsaOk : (epoch : Nat) → (digest sig : List Word) → Bool
/-- AES-256-GCM decryption of a frame payload under the image key of an epoch, with the image nonce and the frame's
SEQ as IV and its first four words as additional data; none when the tag fails (04 R111). -/
opaque gcmOpen : (epoch nonce seq : Nat) → (aad payload tag : List Word) → Option (List Word)
/-- SHA-384 of a byte string, as twelve words. -/
opaque sha384 : List Byte → List Word
/-- Does a firmware image accept a running state-format version (02 R68)? -/
opaque acceptsFormat : (image running : Nat) → Bool

/-- AES-256 (FIPS 197) of a 128-bit block under a region's data key (13 R399). -/
opaque aes256 : (key : List Word) → Nat → BitVec 128
/-- First 64 bits of the GMAC (SP 800-38D) of a byte string under a tag key and a 128-bit IV (13 R400). -/
opaque gmac : (key : List Word) → (iv : Nat) → List Byte → BitVec 64
/-- KW unwrap (SP 800-38F) of a region's wrapped keys under the key-encryption key of a root-key epoch, grove and
region (13 R397): data key and tag key, 16 words; none when the integrity check fails. -/
opaque kwUnwrap : (epoch grove region : Nat) → List Word → Option (List Word)
/-- Counter value that a build or rebuild gives a tree node, the order of the build being open (13 R394, R411): by
generation, level and node; its remainder modulo the build's nodes is used. -/
opaque treeOrder : (gen level node : Nat) → Nat

/-- Free values: what an operation leaves undefined or unstated, by the count of free values taken so far. -/
opaque freeWord : Nat → Word
opaque freeByte : Nat → Byte
opaque freeBit : Nat → Bool
opaque freeNat : Nat → Nat
opaque freeInt : Nat → Int
/-- Data and check bits of block RAM words that their region's state leaves undefined (04 R116): by the count of such
states entered, block RAM and word. -/
opaque undefBram : (count bram word : Nat) → Nat × Nat
/-- Words drawn from the random bit generator of the key store (13 R397), by the same count. -/
opaque random : Nat → Word

end Sys2Proof.Config
end

