-- ==== Sys2Proof/Machine/Bits.lean ====
section
/-!
DEFINITION. Bit fields of register words and payload words, sign extension, bytes and words, saturating
counts, and the CRCs the spec names.
-/
namespace Sys2Proof.Machine

/-- Bits [hi:lo] of a number. -/
def nfld (n hi lo : Nat) : Nat := (n >>> lo) % 2 ^ (hi - lo + 1)

/-- Bits [hi:lo] of a register word. -/
def fld (w : Word) (hi lo : Nat) : Nat := nfld w.toNat hi lo

/-- Bit `i` of a register word. -/
def bit (w : Word) (i : Nat) : Bool := w.toNat.testBit i

/-- A register word with bits [hi:lo] replaced. -/
def setFld (w : Word) (hi lo v : Nat) : Word :=
  BitVec.ofNat 32 (w.toNat - fld w hi lo * 2 ^ lo + (v % 2 ^ (hi - lo + 1)) * 2 ^ lo)

/-- A register word with bit `i` replaced. -/
def setBit (w : Word) (i : Nat) (b : Bool) : Word := setFld w i i (if b then 1 else 0)

/-- 1 for true, 0 for false. -/
def b2n (b : Bool) : Nat := if b then 1 else 0

/-- The mask of bits [hi:lo]. -/
def mask (hi lo : Nat) : Nat := (2 ^ (hi - lo + 1) - 1) * 2 ^ lo

/-- An event counter one up, stopping at all ones (00 R9). -/
def satInc (w : Word) : Word := if w = BitVec.allOnes 32 then w else w + 1

/-- A count raised by `k`, stopping at 2^32 - 1 (00 R9). -/
def satAdd (w : Word) (k : Nat) : Word := word (min (2 ^ 32 - 1) (w.toNat + k))

/-- The signed value of the low `bits` bits of `n`. -/
def sint (bits n : Nat) : Int :=
  let m := n % 2 ^ bits
  if m < 2 ^ (bits - 1) then (m : Int) else (m : Int) - (2 ^ bits : Nat)

/-- The `bits`-bit two's-complement form of an integer. -/
def uint (bits : Nat) (i : Int) : Nat := (i % (2 ^ bits : Nat)).toNat

/-- An integer held to the signed range of `bits` bits. -/
def clampS (bits : Nat) (i : Int) : Int :=
  max (-(2 ^ (bits - 1) : Nat) : Int) (min ((2 ^ (bits - 1) : Nat) - 1 : Int) i)

/-- Word `i` of a list of payload words; absent words read zero. -/
def wordAt (l : List Word) (i : Nat) : Nat := (l.getD i 0).toNat

/-- The 64-bit number held in words `i` and `i+1`, low word first. -/
def word64At (l : List Word) (i : Nat) : Nat := wordAt l i + wordAt l (i + 1) * 2 ^ 32

/-- Byte `i` of a list of little-endian words. -/
def byteAt (l : List Word) (i : Nat) : Nat := nfld (wordAt l (i / 4)) (8 * (i % 4) + 7) (8 * (i % 4))

/-- The low word of a number. -/
def lo32 (n : Nat) : Word := word n
/-- Bits [63:32] of a number. -/
def hi32 (n : Nat) : Word := word (n / 2 ^ 32)

/-- A number as little-endian bytes. -/
def toBytes : Nat → Nat → List Byte
  | 0, _ => []
  | k + 1, n => BitVec.ofNat 8 n :: toBytes k (n / 256)

/-- The number that little-endian bytes hold. -/
def ofBytes : List Byte → Nat
  | [] => 0
  | b :: r => b.toNat + 256 * ofBytes r

/-- Words as little-endian bytes. -/
def wordsToBytes (l : List Word) : List Byte := l.flatMap (fun w => toBytes 4 w.toNat)

/-- Bytes as little-endian words, padded with zero to a whole word. -/
def bytesToWords : List Byte → List Word
  | [] => []
  | [a] => [word (ofBytes [a])]
  | [a, b] => [word (ofBytes [a, b])]
  | [a, b, c] => [word (ofBytes [a, b, c])]
  | a :: b :: c :: d :: r => word (ofBytes [a, b, c, d]) :: bytesToWords r

/-- One bit of a reflected CRC with polynomial `poly`. -/
def crcBit (poly c : Nat) : Nat := if c % 2 = 1 then (c / 2) ^^^ poly else c / 2

/-- One byte of a reflected CRC. -/
def crcByte (poly c b : Nat) : Nat :=
  crcBit poly (crcBit poly (crcBit poly (crcBit poly
    (crcBit poly (crcBit poly (crcBit poly (crcBit poly (c ^^^ b))))))))

/-- CRC-32 with the IEEE 802.3 polynomial over bytes, reflected, all ones in and out. -/
def crc32 (l : List Byte) : Nat :=
  (l.foldl (fun c b => crcByte 0xEDB88320 c b.toNat) 0xFFFFFFFF) ^^^ 0xFFFFFFFF

/-- The smallest number of a list, or `d` when it is empty. -/
def listMin (d : Nat) (l : List Nat) : Nat :=
  match l with
  | [] => d
  | a :: r => r.foldl min a

/-- The first `n` numbers. -/
def upto (n : Nat) : List Nat := List.range n

/-- An element put in its place in a list sorted by a key, behind equal keys. -/
def insertBy {α : Type} (key : α → Nat) (a : α) : List α → List α
  | [] => [a]
  | b :: r => if key a < key b then a :: b :: r else b :: insertBy key a r
/-- A list sorted by a key; equal keys keep their order. -/
def sortBy {α : Type} (key : α → Nat) (l : List α) : List α := l.foldl (fun r a => insertBy key a r) []

end Sys2Proof.Machine
end

