-- ==== Sys2Proof/Machine/RegMap.lean ====
section
/-!
DEFINITION. The register map: windows, offsets, access codes, reset values and writer authority of every
memory-mapped register, from the register tables of spec/.
-/
namespace Sys2Proof.Machine

/-- Which sources may write a register. -/
inductive Auth where
  /-- The Warden only (03 R78 and others). -/
  | warden
  /-- The Warden and the host through PF0. -/
  | wardenPf0
  /-- The Warden and the host through PF0 or PF1. -/
  | wardenHost
  /-- The host through PF0 (18 R554, R556). -/
  | pf0
  /-- The Warden and the Tally (10 R331). -/
  | wardenTally
  /-- The Warden, and the debug station in USER or FULL (18 R557). -/
  | wardenDebug
  /-- The Warden, and the debug station in FULL (18 R556). -/
  | wardenFull
  /-- The writers of the booth's class (02 R50). -/
  | booth
  /-- Every source. -/
  | any
  deriving DecidableEq, Repr

/-- One register, or an array of registers, of a window. Masks give the bits of each access code (00 R7). -/
structure RegRow where
  name : String
  lo : Nat
  rw : Nat := 0
  w1c : Nat := 0
  w1s : Nat := 0
  rc : Bool := false
  reset : Nat := 0
  auth : Auth := .warden
  stride : Nat := 4
  count : Nat := 1
  stride2 : Nat := 0
  count2 : Nat := 1
  /-- Reset value that depends on the die or is a fuse: a code of `specialReset`. -/
  special : Nat := 0

/-- The row holds the register at a window offset. -/
def RegRow.covers (r : RegRow) (off : Nat) : Bool :=
  if off < r.lo then false
  else
    let d := off - r.lo
    if r.count2 ≤ 1 then d % r.stride = 0 && decide (d / r.stride < r.count)
    else decide (d / r.stride2 < r.count2) && (d % r.stride2) % r.stride = 0
      && decide (d % r.stride2 / r.stride < r.count)

/-- A read-only register. -/
def ro (name : String) (lo reset : Nat) : RegRow := { name := name, lo := lo, reset := reset }
/-- A counter that a read clears. -/
def rc (name : String) (lo : Nat) : RegRow := { name := name, lo := lo, rc := true }
/-- A register with RW bits `rw`, W1C bits `w1c`. -/
def rwr (name : String) (lo rwm w1cm reset : Nat) (a : Auth := .warden) : RegRow :=
  { name := name, lo := lo, rw := rwm, w1c := w1cm, reset := reset, auth := a }
/-- An array of a register. -/
def RegRow.arr (r : RegRow) (stride count : Nat) : RegRow := { r with stride := stride, count := count }
/-- An array of arrays of a register. -/
def RegRow.arr2 (r : RegRow) (stride2 count2 : Nat) : RegRow := { r with stride2 := stride2, count2 := count2 }

/-! ### Windows (01 R25, R29-R32) -/

/-- Base of hub register window `i` (R29). -/
def hubWin (i : Nat) : Nat := 0x030000000000 + i * 0x01000000
def wdnBase : Nat := 0x030000000000
def boothWin : Nat := 0x030001000000
def clkBase : Nat := 0x030002000000
def cfgBase : Nat := 0x030003000000
def tuBase : Nat := 0x030004000000
def talBase : Nat := 0x030005000000
def svpBase : Nat := 0x030006000000
def dbgBase : Nat := 0x030007000000
def injBase : Nat := 0x030008000000
def hubPtrBase : Nat := 0x030009000000
def keyBase : Nat := 0x03000A000000
/-- Register window of grove `g` and of lane die `l`. -/
def groveWin (g : Nat) : Nat := 0x030010000000 + g * 0x01000000
def laneWin (l : Nat) : Nat := 0x030020000000 + l * 0x01000000
/-- Register window of a die by die ID (01 R11); the hub's first window for the hub. -/
def dieWin (d : Nat) : Nat := if d = 0 then wdnBase else if d < 8 then laneWin (d - 1) else groveWin (d - 8)
/-- Clock and reset block of a die (03 R89). -/
def clkBlk (d : Nat) : Nat := if d = 0 then clkBase else dieWin d + 0x10000
/-- Slot of booth `b` (02, Booth layout). -/
def boothSlot (b : Nat) : Nat := boothWin + b * 0x10000
/-- Grove debug block (18). -/
def dbgBlk (g : Nat) : Nat := groveWin g + 0x100000
/-- Injection point `n` of a die (19 R560). -/
def injPt (d n : Nat) : Nat := (if d = 0 then injBase else dieWin d + 0xF0000) + 0x20 * n
/-- Register block of lane LN`n` (01 R12, R31). -/
def lanBlk (n : Nat) : Nat := laneWin (n / 128) + 0x200000 + 0x1000 * (n % 128)
/-- Register block of port engine PE`p` (01 R12, R31). -/
def penBlk (p : Nat) : Nat := laneWin (p / 16) + 0x400000 + 0x10000 * (p % 16)
/-- Lane die of a die ID, grove of a die ID. -/
def isLaneDie (d : Nat) : Bool := 1 ≤ d && d ≤ 4
def isGroveDie (d : Nat) : Bool := 8 ≤ d && d ≤ 15
/-- A die ID that names a die (R11). -/
def isDie (d : Nat) : Bool := d = 0 || isLaneDie d || isGroveDie d
/-- The grove and lane dies. -/
def dies : List Nat := [1, 2, 3, 4, 8, 9, 10, 11, 12, 13, 14, 15]

/-- The station ID names a populated station (06 R172-R174). -/
def populated (id : Nat) : Bool :=
  let d := id / 256
  let k := id % 256
  if isGroveDie d then
    decide (k ≤ 4) || (decide (0x10 ≤ k) && decide (k ≤ 0x4F)) || (decide (0x80 ≤ k) && decide (k ≤ 0x9F))
  else if d = 0 then decide (k ≤ 6) || (decide (0x10 ≤ k) && decide (k ≤ 0x1F))
  else if isLaneDie d then k = 0 || (decide (0x10 ≤ k) && decide (k ≤ 0x1F))
  else false

/-- The link unit that a die's unit connects to, with the die's own end: the peer die and its unit (07 R207). -/
def linkPeer (d u : Nat) : Option (Nat × Nat) :=
  if isGroveDie d then
    let g := d - 8
    let r := g / 4
    let c := g % 4
    match u with
    | 0 => if g = 0 then some (0, 1) else if g = 4 then some (13, 1) else if r = 0 then some (7 + g, 1)
           else if g = 7 then some (11, 1) else some (9 + g, 1)
    | 1 => if g = 4 then some (0, 0) else if g = 3 then some (15, 0) else if r = 0 then some (9 + g, 0)
           else some (7 + g, 0)
    | 2 => if c = 0 then none else some (d - 1, 3)
    | 3 => if c = 3 then none else some (d + 1, 2)
    | 4 => some (if r = 0 then d + 4 else d - 4, 4)
    | _ => if 8 ≤ u ∧ u < 12 then some (1 + g / 2, 4 * (g % 2) + (u - 8)) else none
  else if isLaneDie d then
    if u < 8 then some (8 + 2 * (d - 1) + u / 4, 8 + u % 4) else none
  else if d = 0 then
    (match u with
     | 0 => some (12, 1)
     | 1 => some (8, 0)
     | _ => none)
  else none

/-! ### Hub windows -/

/-- 01 R39. -/
def rowsWdn : List RegRow :=
  [ { name := "WDN_DEV_ID", lo := 0x0, special := 1 }, { name := "WDN_DIE_INFO", lo := 0x4, special := 2 },
    { name := "WDN_SERIAL_LO", lo := 0x8, special := 3 }, { name := "WDN_SERIAL_HI", lo := 0xC, special := 4 },
    ro "WDN_STRAP" 0x10 0, rwr "WDN_PWR_STATUS" 0x14 0 1 0 .wardenPf0, rc "WDN_UNMAPPED_HITS" 0x18,
    ro "WDN_UNMAPPED_ADDR_LO" 0x1C 0, ro "WDN_UNMAPPED_ADDR_HI" 0x20 0, rc "WDN_PF_DENIED" 0x24 ]

/-- 01 R39: the identification block of a grove or lane die. -/
def rowsId : List RegRow := rowsWdn.take 4

/-- 02 R45: booths 0-62, then the event ring in booth 63's slot, then the shared registers. -/
def rowsBooth : List RegRow :=
  [ (ro "WDN_BOOTH_STATE" 0x0 0).arr 0x10000 63, (rwr "WDN_BOOTH_IRQ" 0x8 2 1 0 .booth).arr 0x10000 63,
    (rwr "WDN_BOOTH_ERR" 0xC 0 7 0 .booth).arr 0x10000 63,
    (rwr "WDN_BOOTH_NOTIFY_LO" 0x10 0xFFFFFFFC 0 0 .booth).arr 0x10000 63,
    (rwr "WDN_BOOTH_NOTIFY_HI" 0x14 0x8000FFFF 0 0 .booth).arr 0x10000 63,
    (rc "WDN_BOOTH_DONE_COUNT" 0x18).arr 0x10000 63,
    ro "WDN_EVT_PROD" 0x3F0000 0, ro "WDN_EVT_CONS" 0x3F0004 0, rwr "WDN_EVT_IRQ" 0x3F0008 2 5 0 .pf0,
    rc "WDN_EVT_LOST" 0x3F000C, ro "WDN_EVT_LOST_GROUPS" 0x3F0010 0,
    ro "WDN_WARDEN_STATUS" 0x400000 0x1000, rc "WDN_FAILOVER_COUNT" 0x400004,
    rc "WDN_BOOTH_DENIED" 0x400008, ro "WDN_BOOTH_DENIED_SRC" 0x40000C 0 ]

/-- 03 R86-R90: the hub's clock and reset block. CLK_GATE_EN resets to 1 in its gateable bits. Source selections and
RST_BLOCK are written through commands of their own. -/
def rowsClkHub : List RegRow :=
  [ ro "CLK_READY" 0x0 0, ro "CLK_ROOT_SEL" 0x4 0, rwr "CLK_SWITCH_STATUS" 0x8 0 0x6D 0,
    rwr "CLK_MON_STATUS" 0xC 0 0x9F 0, rwr "CLK_GATE_EN" 0x10 0x3 0 0x3, rc "CLK_GATED_HITS" 0x14,
    ro "RST_CAUSE" 0x100 0, ro "RST_BLOCK" 0x108 0 ]

/-- 03 R89: the clock block of a grove. -/
def rowsClkGrove : List RegRow :=
  [ ro "CLK_DIE_STATUS" 0x10000 0, rwr "CLK_MON_STATUS" 0x1000C 0 0xA0 0,
    rwr "CLK_GATE_EN" 0x10010 0x3FFFF 0 0x3FFFF, rc "CLK_GATED_HITS" 0x10014, ro "CLK_DIE_STATUS2" 0x10018 0x33,
    ro "RST_BLOCK" 0x10108 0 ]

/-- 03 R89: the clock block of a lane die. -/
def rowsClkLane : List RegRow :=
  [ ro "CLK_DIE_STATUS" 0x10000 0x330000, ro "CLK_LRL_SEL" 0x10004 0, rwr "CLK_MON_STATUS" 0x1000C 0 0xE0 0,
    rwr "CLK_GATE_EN" 0x10010 0x1FFFF 0 0x1FFFF, rc "CLK_GATED_HITS" 0x10014,
    ro "RST_BLOCK" 0x10108 0 ]

/-- 15 R486. -/
def rowsTu : List RegRow :=
  [ ro "TU_STATUS" 0x0 0, (rc "TU_COUNTERS" 0x4).arr 4 6,
    (ro "TU_TB_NS" 0x100 0).arr 0x40 8, (ro "TU_TB_FRAC" 0x104 0).arr 0x40 8, (ro "TU_TB_WRAPS" 0x108 0).arr 0x40 8,
    (ro "TU_TB_STATE" 0x10C 0xC0).arr 0x40 8, (ro "TU_TB_STEP_LO" 0x110 0).arr 0x40 8,
    (ro "TU_TB_STEP_HI" 0x114 0).arr 0x40 8, (ro "TU_TB_RATE" 0x118 0).arr 0x40 8,
    (ro "TU_TB_SLEW" 0x11C 0).arr 0x40 8, (ro "TU_TB_ORIGIN_LO" 0x120 0).arr 0x40 8,
    (ro "TU_TB_ORIGIN_HI" 0x124 0).arr 0x40 8, (ro "TU_TB_TWIN_OFFSET" 0x128 0).arr 0x40 8,
    (ro "TU_TB_OFFSET" 0x12C 0).arr 0x40 8, (ro "TU_TB_ERR_EST" 0x130 0).arr 0x40 8,
    (rwr "TU_CAP_STATUS" 0x400 0 0x80000000 0 .wardenHost).arr 0x10 32, (ro "TU_CAP_NS" 0x404 0).arr 0x10 32,
    (ro "TU_CAP_INFO" 0x408 0).arr 0x10 32, (ro "TU_OUT_STATUS" 0x800 0).arr 0x10 16,
    (ro "TU_OUT_NEXT" 0x804 0).arr 0x10 16 ]

/-- 16 R510. -/
def rowsTal : List RegRow :=
  [ ro "TAL_STATUS" 0x0 0, ro "TAL_LIMIT_MW" 0x4 720000, ro "TAL_FLOOR_MW" 0x8 0, ro "TAL_RESERVED_MW" 0xC 0,
    ro "TAL_EPOCH_COUNT" 0x10 0, rwr "TAL_RING_LO" 0x14 0xFFFFFFC0 0 0, rwr "TAL_RING_HI" 0x18 0x801FFFFF 0 0,
    ro "TAL_RING_PROD" 0x1C 0, (rc "TAL_COUNTERS" 0x20).arr 4 4, (ro "TAL_E_RAIL" 0x100 0).arr 4 96,
    (ro "TAL_E_CLASS" 0x300 0).arr 4 16, (ro "TAL_E_OVH_PKG" 0x340 0).arr 4 4, (ro "TAL_TEMP" 0x400 0).arr 4 74 ]

/-- 16 R511: sensor block of a grove, and of a lane die. -/
def rowsSensGrove : List RegRow := [ (ro "TAL_SENSOR" 0x110000 0).arr 4 8 ]
def rowsSensLane : List RegRow := [ (ro "TAL_SENSOR" 0x110000 0).arr 4 3, (ro "TAL_SENSOR_T" 0x110010 0).arr 4 2 ]

/-- 17 R529. SVP_OUT and SVP_OE are written through their own command. -/
def rowsSvp : List RegRow :=
  [ (ro "SVP_OUT_G" 0x0 0).arr 4 6, (ro "SVP_OE_G" 0x20 0).arr 4 6, (ro "SVP_IN_G" 0x40 0).arr 4 6,
    rwr "SVP_STATUS" 0x60 0 1 0 .wardenHost, ro "SVP_CONFLICT_LAST" 0x64 0, (rc "SVP_COUNTERS" 0x68).arr 4 2,
    (ro "SVP_PIN" 0x100 0x00010009).arr 4 4, (ro "SVP_PIN" 0x110 0x9).arr 4 92 ]

/-- 18 R556: the hub debug window. -/
def rowsDbgHub : List RegRow :=
  [ rwr "DBG_STATUS" 0x0 0 0x08000000 0x00D00000 .wardenPf0, ro "DBG_CLAIM" 0x4 0,
    rwr "DBG_HOSTWD_CTRL" 0x8 0x8000FFFF 0 1000 .pf0, ro "DBG_HOSTWD_KICK" 0xC 0, ro "DBG_HOSTWD_COUNT" 0x10 0,
    rwr "DBG_WARD_WDOG" 0x14 0x80000000 0 50000 .wardenFull, rc "DBG_XTRIG_COUNT" 0x18 ]

/-- 18 R557: the grove debug block; the probe registers of 05 R167 stand before them. -/
def rowsDbgGrove : List RegRow :=
  [ rwr "DBG_PRB_TCTRL" 0x10010C 0xEF000003 0 0 .wardenDebug,
    (rwr "DBG_PRB_TMASK_TVAL" 0x100110 0xFFFFFFFF 0 0 .wardenDebug).arr 4 4,
    (ro "DBG_HALT_REQ" 0x100200 0).arr 4 16,
    (ro "DBG_RESUME" 0x100240 0).arr 4 16, (ro "DBG_STEP" 0x100280 0).arr 4 16, (ro "DBG_HALTED" 0x1002C0 0).arr 4 16,
    rwr "DBG_RUNCTL" 0x100300 1 4 0 .wardenDebug, rwr "DBG_FREEZE_EN" 0x100304 0x3FFFF 0 0 .wardenDebug,
    rwr "DBG_FREEZE" 0x100308 0x3FFFF 0 0 .wardenDebug, rwr "DBG_TILE_SEL" 0x10030C 0x1FF 0 0 .wardenDebug ]

/-- 19 R562: the injection points of a window, `n` of them from offset `base`. -/
def rowsInj (base n : Nat) : List RegRow :=
  [ (rwr "INJ_CTRL" base 0x8F00FFFF 0 1).arr 0x20 n, (rwr "INJ_TARGET" (base + 4) 0xFFFFFFFF 0 0).arr 0x20 n,
    (rwr "INJ_PATTERN" (base + 8) 0xFFFFFFFF 0 0).arr 0x20 n, (rwr "INJ_STATUS" (base + 12) 0 0x80000000 0).arr 0x20 n,
    (rc "INJ_SEEN" (base + 16)).arr 0x20 n, (ro "INJ_WHERE0" (base + 20) 0).arr 0x20 n,
    (ro "INJ_WHERE1" (base + 24) 0).arr 0x20 n, (ro "INJ_WHERE2" (base + 28) 0).arr 0x20 n ]

/-- 14 R455: the lanes of a lane die. SWING resets to binary 10. -/
def rowsLan : List RegRow :=
  [ (rwr "LAN_CFG" 0x200000 0xFFC 0 0).arr 0x1000 128, (rwr "LAN_TX" 0x200004 0x1FEF 0 0x800).arr 0x1000 128,
    (rwr "LAN_RX" 0x200008 0x1F1F 0 0x508).arr 0x1000 128, (ro "LAN_STATUS" 0x20000C 0xB00003).arr 0x1000 128,
    (rc "LAN_LOS_COUNT" 0x200010).arr 0x1000 128, (rc "LAN_LOL_COUNT" 0x200014).arr 0x1000 128,
    (rc "LAN_PRBS_ERR" 0x200018).arr 0x1000 128 ]

/-- 14 R456: the port engines of a lane die. -/
def rowsPen : List RegRow :=
  [ ((rwr "PEN_PORT_CFG" 0x400000 0xFFF83FFF 0 0x805EE).arr 4 8).arr2 0x10000 16,
    ((rwr "PEN_PORT_DEF" 0x400020 0xE0FF0FFF 0 0xC0000000).arr 8 8).arr2 0x10000 16,
    ((rwr "PEN_PORT_IDLE" 0x400024 0xFFFFFFFF 0 0x55555555).arr 8 8).arr2 0x10000 16,
    (rwr "PEN_INGRESS" 0x400060 0x3FFFFFFF 0 0x20070100).arr 0x10000 16,
    (rwr "PEN_GATE_CFG" 0x400064 0xFF000700 0 0xFF000000).arr 0x10000 16,
    (ro "PEN_GATE_STATUS" 0x400068 0xFF000000).arr 0x10000 16,
    (rwr "PEN_TSRING_LO" 0x400070 0xFFFFFFF0 0 0).arr 0x10000 16,
    (rwr "PEN_TSRING_HI" 0x400074 0x801FFFFF 0 0).arr 0x10000 16, (ro "PEN_TSRING_PROD" 0x400078 0).arr 0x10000 16,
    ((rc "PEN_STAGE_COUNT" 0x400400).arr 4 8).arr2 0x10000 16,
    ((ro "PEN_GATE_ENTRY" 0x401000 0).arr 4 512).arr2 0x10000 16 ]
  ++ (List.range 8).map (fun k => ((rc "PEN_PORT_COUNT" (0x400100 + 0x40 * k)).arr 4 10).arr2 0x10000 16)

/-- 04 R126: hub configuration window; the stream port is no register. -/
def rowsCfg : List RegRow :=
  [ ro "CFG_BOOT_STATUS" 0x0 0x00010000, rc "CFG_AUTH_FAIL" 0x4, rc "CFG_STREAM_DENIED" 0x8 ]

/-- 04 R126, 05 R170: configuration block of a grove. -/
def rowsCfgGrove : List RegRow :=
  [ (ro "CFG_CLR_STATE" 0xE0000 0x40).arr 4 16, ro "CFG_STATIC_STATE" 0xE0040 0x40,
    (rc "CFG_COUNTERS" 0xE0044).arr 4 4, ro "CFG_SWEEP_LAST_FAR" 0xE0054 0,
    ro "CFG_IO_STATUS" 0xE0100 0, (rc "CFG_IO_BRAM_COUNTERS" 0xE0104).arr 4 3, ro "CFG_BRAM_LAST" 0xE0110 0,
    rc "CFG_BRAM_MENDED" 0xE0114, ro "CFG_BRAM_SPARES_OUT" 0xE0118 0, ro "CFG_NVM_WORN" 0xE011C 0 ]

/-- 05 R167: probe registers. ARM is written through PROBE_ARM's operation. -/
def rowsProbe : List RegRow :=
  [ (rwr "DBG_PRB_SEL" 0x100000 0x803FFFFF 0 0 .wardenDebug).arr 4 64,
    rwr "DBG_PRB_CTRL" 0x100100 0xFFFF807F 0 0x60 .wardenDebug,
    rwr "DBG_PRB_STATUS" 0x100104 0 0x10000000 0 .wardenDebug, ro "DBG_PRB_TRIG_IDX" 0x100108 0 ]

/-- 06 R202: Bough block of a grove. -/
def rowsBgh : List RegRow :=
  [ ro "BGH_STATUS" 0x20000 0, rc "BGH_E2E_ERR" 0x20004, ro "BGH_E2E_LAST" 0x20008 0,
    (rc "BGH_COUNTERS" 0x2000C).arr 4 6, { (ro "BGH_STN_CFG" 0x20400 0).arr 4 256 with special := 6 } ]

/-- 07 R236: link units of a grove or lane die. -/
def rowsLnk : List RegRow :=
  [ { ((ro "LNK_STATE" 0x30000 0).arr 0x40 16) with special := 5 }, (ro "LNK_REPAIR" 0x30004 0).arr 0x40 16,
    ((rc "LNK_COUNTERS" 0x30008).arr 4 4).arr2 0x40 16, (ro "LNK_NEED" 0x30018 0).arr 0x40 16,
    (ro "LNK_LAST_WIRE" 0x3001C 0).arr 0x40 16 ]

/-- 07 R237: remote cache of a grove. -/
def rowsRmc : List RegRow :=
  [ rwr "RMC_CTRL" 0x40000 0x00FF0003 0 3 .wardenPf0, ro "RMC_STATUS" 0x40004 0,
    rwr "RMC_PROBE_SEL" 0x40008 0x3FFFF 0 0 .wardenPf0, ro "RMC_PROBE" 0x4000C 0, (rc "RMC_COUNTERS" 0x40010).arr 4 12 ]

/-- Dispatcher block of a grove (10 R331). -/
def dspBlk (g : Nat) : Nat := groveWin g + 0x50000

/-- 10 R331. The post slots, DSP_CANCEL and DSP_FLOW_FLUSH hold nothing. -/
def rowsDsp : List RegRow :=
  [ rwr "DSP_CTRL" 0x50000 0x800000FF 0 8 .wardenPf0, rwr "DSP_STATUS" 0x50004 0 5 0 .wardenPf0,
    rwr "DSP_FLOW_BASE_LO" 0x50008 0xF8000000 0 0 .wardenPf0, rwr "DSP_FLOW_BASE_HI" 0x5000C 0xFFFF 0 0 .wardenPf0,
    rwr "DSP_ECLASS_EN" 0x50010 0xFE 0 0xFF .wardenTally, rwr "DSP_TILE_CAP" 0x50014 0x3FF 0 512 .wardenTally,
    ro "DSP_FLOW_FLUSH" 0x50018 0, ro "DSP_CANCEL" 0x5001C 0, ro "DSP_SLOTS_FREE" 0x50020 65536,
    (rc "DSP_COUNTERS" 0x50040).arr 4 10, (ro "DSP_CLS_CYC" 0x50080 0).arr 4 16,
    (rwr "DSP_DL_CFG" 0x50100 0x8700FFFF 0 250 .wardenPf0).arr 8 8, (ro "DSP_DL_STAT" 0x50104 0).arr 8 8,
    (rwr "DSP_TSET0" 0x50200 0xFFFFFFFF 0 0xFFFFFFFF .wardenPf0).arr 4 16,
    (rwr "DSP_TSET" 0x50240 0xFFFFFFFF 0 0 .wardenPf0).arr 4 240,
    (rwr "DSP_QCFG" 0x51000 0xC771FFFF 0 0x710000 .wardenPf0).arr 0x10 256,
    (rwr "DSP_QMIN" 0x51004 0x1FFFF 0 0 .wardenPf0).arr 0x10 256, (ro "DSP_QSTAT" 0x51008 0).arr 0x10 256,
    (rwr "DSP_QCOMP_LO" 0x52000 0xFFFFFFF0 0 0 .wardenPf0).arr 0x10 256,
    (rwr "DSP_QCOMP_HI" 0x52004 0x801FFFFF 0 0 .wardenPf0).arr 0x10 256, (ro "DSP_QCOMP_PROD" 0x52008 0).arr 0x10 256 ]

/-- 12 R389: the two halves of a grove's DRAM block. MEM_CE_CTRL.CLEAR empties the log. -/
def rowsMem : List RegRow :=
  ([ ro "MEM_STATUS" 0xB0000 0x90, ro "MEM_CFG" 0xB0004 0, ro "MEM_MAP" 0xB0008 0,
     rwr "MEM_RT" 0xB000C 0x07FF0000 0 0x01000000 .wardenPf0, ro "MEM_FILL_PTR" 0xB0010 0, ro "MEM_SCRUB_PTR" 0xB0014 0,
     rwr "MEM_CE_CTRL" 0xB0018 0 0x80000000 0 .wardenPf0, ro "MEM_UE_LAST" 0xB0050 0,
     ro "MEM_UE_LAST_INFO" 0xB0054 0 ] : List RegRow).map (fun r => r.arr 0x10000 2)
  ++ [ ((rc "MEM_COUNTERS" 0xB0020).arr 4 12).arr2 0x10000 2, ((ro "MEM_LOG" 0xB0100 0).arr 4 64).arr2 0x10000 2,
       ((ro "MEM_TRN" 0xB0400 0).arr 4 18).arr2 0x10000 2 ]

/-- 13 R414. -/
def rowsEnc : List RegRow :=
  [ ro "ENC_STATUS" 0xD0000 0, (rc "ENC_COUNTERS" 0xD0010).arr 4 9, (ro "ENC_RGN_BASE" 0xD0100 0).arr 0x10 8,
    (ro "ENC_RGN_SIZE" 0xD0104 0).arr 0x10 8, (ro "ENC_RGN_META" 0xD0108 0).arr 0x10 8,
    (ro "ENC_RGN_STATE" 0xD010C 0xA0).arr 0x10 8, (ro "ENC_BROKEN" 0xD0400 0).arr 4 128 ]

/-- 08 R278: control blocks of the tiles. LOCK_BROKEN and the counts held by the tile are views of it. -/
def rowsTil : List RegRow :=
  [ (rwr "TIL_STATUS" 0x200000 0 0x40000000 0x7000 .wardenHost).arr 0x1000 512, (ro "TIL_CTRL" 0x200004 0).arr 0x1000 512,
    (rwr "TIL_CFG" 0x200008 0xFFFF 0 0xFFFF .wardenPf0).arr 0x1000 512,
    (rwr "TIL_WDOG" 0x20000C 0x80000000 0 0 .wardenPf0).arr 0x1000 512,
    (rwr "TIL_WDOG_DEF" 0x200010 0xFFFFF 0 0 .wardenPf0).arr 0x1000 512, (ro "TIL_FAULT" 0x200014 0).arr 0x1000 512,
    (ro "TIL_FAULT_VA" 0x200018 0).arr 0x1000 512, (ro "TIL_PC" 0x20001C 0).arr 0x1000 512,
    ((rc "TIL_COUNTERS" 0x200020).arr 4 5).arr2 0x1000 512, ((ro "TIL_SLOT" 0x200800 0).arr 4 308).arr2 0x1000 512 ]

/-- 11 R358: `n` porter channels from offset `base`. -/
def rowsPtr (base n : Nat) (a : Auth) : List RegRow :=
  [ (rwr "PTR_CH_CFG" base 0xF3FF071F 0 0 .wardenPf0).arr 0x100 n, (rwr "PTR_STATE" (base + 4) 0 0x600 0x85 .wardenPf0).arr 0x100 n,
    (rwr "PTR_RING_LO" (base + 8) 0xFFFFFFC0 0 0 .wardenPf0).arr 0x100 n,
    (rwr "PTR_RING_HI" (base + 0xC) 0xFFFF 0 0 .wardenPf0).arr 0x100 n, (rwr "PTR_PROD" (base + 0x10) 0xFFFF 0 0 a).arr 0x100 n,
    (ro "PTR_CONS" (base + 0x14) 0).arr 0x100 n, (rwr "PTR_CQ_LO" (base + 0x18) 0xFFFFFFF0 0 0 .wardenPf0).arr 0x100 n,
    (rwr "PTR_CQ_HI" (base + 0x1C) 0x801FFFFF 0 0 .wardenPf0).arr 0x100 n, (ro "PTR_CQ_PROD" (base + 0x20) 0).arr 0x100 n,
    (rwr "PTR_NOTIFY_LO" (base + 0x24) 0xFFFFFFFC 0 0 .wardenPf0).arr 0x100 n,
    (rwr "PTR_NOTIFY_HI" (base + 0x28) 0x8000FFFF 0 0 .wardenPf0).arr 0x100 n, (ro "PTR_CTRL" (base + 0x2C) 0).arr 0x100 n,
    ((ro "PTR_DONE_FAULT" (base + 0x30) 0).arr 4 4).arr2 0x100 n, ((rc "PTR_COUNTERS" (base + 0x40)).arr 4 5).arr2 0x100 n ]

/-- 11 R359. -/
def rowsXlt : List RegRow :=
  [ rwr "XLT_STATUS" 0xA0000 0 4 0 .wardenPf0, ro "XLT_INVAL" 0xA0004 0, rwr "XLT_INVAL_VA" 0xA0008 0x7FFFFFF 0 0 .wardenPf0,
    ro "XLT_FLOG_PROD" 0xA000C 0, (rc "XLT_COUNTERS" 0xA0010).arr 4 3, (ro "XLT_FLOG" 0xA0100 0).arr 4 64,
    (rwr "XLT_ROOT_LO" 0xA1000 0xFFFFF001 0 0 .wardenPf0).arr 8 256, (rwr "XLT_ROOT_HI" 0xA1004 0xFFFF 0 0 .wardenPf0).arr 8 256 ]

/-- The rows of hub register window `i` (01 R29). -/
def rowsHub : Nat → List RegRow
  | 0 => rowsWdn
  | 1 => rowsBooth
  | 2 => rowsClkHub
  | 3 => rowsCfg
  | 4 => rowsTu
  | 5 => rowsTal
  | 6 => rowsSvp
  | 7 => rowsDbgHub
  | 8 => rowsInj 0 7
  | 9 => rowsPtr 0 16 .wardenHost
  | 10 => [ ro "ENC_KS_STATUS" 0x0 0 ]
  | _ => []

/-- The rows of a 64 KiB block of a grove register window (01 R30). -/
def rowsGrove (blk : Nat) : List RegRow :=
  if 0x20 ≤ blk then (if blk < 0x40 then rowsTil else [])
  else match blk with
  | 0x0 => rowsId
  | 0x1 => rowsClkGrove
  | 0x2 => rowsBgh
  | 0x3 => rowsLnk
  | 0x4 => rowsRmc
  | 0x5 => rowsDsp
  | 0x9 => rowsPtr 0x90000 32 .any
  | 0xA => rowsXlt
  | 0xB => rowsMem
  | 0xC => rowsMem
  | 0xD => rowsEnc
  | 0xE => rowsCfgGrove
  | 0xF => rowsInj 0xF0000 14
  | 0x10 => rowsProbe ++ rowsDbgGrove
  | 0x11 => rowsSensGrove
  | _ => []

/-- The rows of a 64 KiB block of a lane die register window (01 R31). -/
def rowsLane (blk : Nat) : List RegRow :=
  if 0x40 ≤ blk then (if blk < 0x50 then rowsPen else [])
  else if 0x20 ≤ blk then (if blk < 0x28 then rowsLan else [])
  else match blk with
  | 0x0 => rowsId
  | 0x1 => rowsClkLane
  | 0x3 => rowsLnk
  | 0xF => rowsInj 0xF0000 6
  | 0x11 => rowsSensLane
  | _ => []

/-- The rows of the block that holds a device address. -/
def rowsAt (a : Nat) : List RegRow :=
  if a < 0x030000000000 then []
  else if a < 0x03000B000000 then rowsHub ((a - 0x030000000000) / 0x01000000)
  else if a < 0x030010000000 then []
  else if a < 0x030018000000 then rowsGrove (a % 0x01000000 / 0x10000)
  else if a < 0x030020000000 then []
  else if a < 0x030024000000 then rowsLane (a % 0x01000000 / 0x10000)
  else []

/-- Offset of a device address in its 16 MiB register window. -/
def winOff (a : Nat) : Nat := a % 0x01000000

/-- The register at a device address in the lower 8 MiB of its window. -/
def regAt (a : Nat) : Option RegRow := (rowsAt a).find? (fun r => r.covers (winOff a))

/-- Die ID of the register window of an address. -/
def dieOfAddr (a : Nat) : Nat :=
  if a < 0x030010000000 then 0
  else if a < 0x030018000000 then 8 + (a - 0x030010000000) / 0x01000000
  else 1 + (a - 0x030020000000) / 0x01000000

/-- Reset values that depend on the die or on a fuse (01 R39). -/
def specialReset (code a : Nat) : Word :=
  let d := dieOfAddr a
  match code with
  | 1 => word (0x85120021 + (Config.speedGrade % 16) * 2 ^ 12 + (Config.tempGrade % 16) * 2 ^ 8)
  | 2 => word ((Config.dieStep d % 256) * 2 ^ 8 + (if d = 0 then 0 else if d < 8 then 0x10 else 0x20) + d)
  | 3 => lo32 (Config.serial d)
  | 4 => hi32 (Config.serial d)
  | 5 => word (0x600000 + (if (linkPeer d ((winOff a - 0x30000) / 0x40)).isSome then 2 ^ 31 else 0))
  | 6 => word (64 * 2 ^ 8 + (if populated (d * 256 + (winOff a - 0x20400) / 4) then 1 else 0))
  | _ => 0

/-- The value a register has at reset; zero where no register is. -/
def regReset (a : Nat) : Word :=
  match regAt a with
  | some r => if r.special = 0 then word r.reset else specialReset r.special a
  | none => 0

end Sys2Proof.Machine
end

