-- ==== Sys2Proof/Machine/Sparse.lean ====
section
/-!
DEFINITION. Sparse maps in one canonical form: a list of key and value pairs, keys strictly rising, and no
entry equal to what an unlisted key reads as. Register files, memories and tables of units are held so.
-/
namespace Sys2Proof.Machine

/-- A sparse map from unit numbers or addresses to values. -/
abbrev Sparse (α : Type) := List (Nat × α)

/-- What key `n` reads as; an unlisted key reads as `d`. -/
def sget {α : Type} (d : α) : List (Nat × α) → Nat → α
  | [], _ => d
  | (k, v) :: r, n => if n = k then v else sget d r n

/-- The entry of key `n` put in its place, the keys still rising. -/
def sput {α : Type} : List (Nat × α) → Nat → α → List (Nat × α)
  | [], n, v => [(n, v)]
  | (k, w) :: r, n, v =>
    if n < k then (n, v) :: (k, w) :: r
    else if n = k then (n, v) :: r
    else (k, w) :: sput r n v

/-- The map without an entry for key `n`. -/
def sdel {α : Type} (m : List (Nat × α)) (n : Nat) : List (Nat × α) :=
  m.filter (fun e => e.1 != n)

/-- Key `n` set to `v`: an entry equal to the default is not listed. -/
def sset {α : Type} [DecidableEq α] (d : α) (m : List (Nat × α)) (n : Nat) (v : α) : List (Nat × α) :=
  if v = d then sdel m n else sput m n v

/-- Key `n` changed by `f`. -/
def smod {α : Type} [DecidableEq α] (d : α) (m : List (Nat × α)) (n : Nat) (f : α → α) : List (Nat × α) :=
  sset d m n (f (sget d m n))

/-- The keys rise strictly. -/
def srising {α : Type} : List (Nat × α) → Bool
  | [] => true
  | [_] => true
  | (k, _) :: (k', w) :: r => decide (k < k') && srising ((k', w) :: r)

/-- The canonical form: keys strictly rising, no entry equal to the default. -/
def swf {α : Type} [DecidableEq α] (d : α) (m : List (Nat × α)) : Bool :=
  srising m && m.all (fun e => decide (e.2 ≠ d))

/-- The keys a predicate holds for. -/
def skeys {α : Type} (m : List (Nat × α)) (p : Nat → α → Bool) : List Nat :=
  (m.filter (fun e => p e.1 e.2)).map (·.1)

/-- Every listed value changed by `f`, the form kept canonical. -/
def smapAll {α : Type} [DecidableEq α] (d : α) (m : List (Nat × α)) (f : Nat → α → α) : List (Nat × α) :=
  (m.map (fun e => (e.1, f e.1 e.2))).filter (fun e => decide (e.2 ≠ d))

/-- The map without the keys of a range. -/
def sdrop {α : Type} (m : List (Nat × α)) (p : Nat → Bool) : List (Nat × α) :=
  m.filter (fun e => !p e.1)

end Sys2Proof.Machine
end

