-- ==== Sys2Proof/Machine/Units/Net.lean ====
section
/-!
DEFINITION. A Bough transaction as the flit control word, the transaction header and the route word give it.
-/
namespace Sys2Proof.Machine

/-- The fields of one transaction: flit control word (06 R179), header (R180), route word (R185). -/
structure Packet where
  /-- OP code, R181. -/
  op : Nat
  /-- Virtual channel 0-3. -/
  vc : Nat
  /-- Destination station ID, DIE and STOP of the route word. -/
  dst : Nat
  /-- SRC: station of the requester; in a response, of the responder. -/
  src : Nat
  tag : Nat := 0
  addr : Nat := 0
  /-- LEN in bytes, 1-256 (0 in a RETRACT of a lapsed check). -/
  len : Nat := 0
  data : List Byte := []
  flow : Nat := 0
  flowValid : Bool := false
  guar : Bool := false
  contract : Nat := 0
  status : Nat := 0
  prov : Bool := false
  poison : Bool := false
  cut : Bool := false
  tdir : Nat := 0
  altOk : Bool := false
  turned : Bool := false
  hops : Nat := 128
  /-- CHK field received differs from the one computed (a fault on the way; R184). -/
  chkBad : Bool := false
  /-- Carries the hidden INJECTED mark (19 R565). -/
  marked : Bool := false
  deriving DecidableEq, Repr

end Sys2Proof.Machine
end

