-- ==== Sys2Proof/Machine/Units/Bough.lean ====
section
/-!
DEFINITION. State of the Bough network, the flow contracts and the die links that no register holds (files 06 and
07 of spec/).
-/
namespace Sys2Proof.Machine

/-- An output that a flow's packets take (06 R198). `up` of a ring hop is toward higher positions; of a lane
crossing, from the lane die. -/
inductive Output where
  | hop (die ring pos : Nat) (up : Bool)
  /-- From a ring into its trunk router. -/
  | turnIn (die ring : Nat)
  /-- From a trunk router onto a ring. -/
  | turnOut (die ring : Nat)
  /-- Trunk step out of a die: direction 0 trunk A, 1 trunk B. -/
  | trunk (die tdir : Nat)
  /-- Bundle of a grove's lane port. -/
  | lane (die bundle : Nat) (up : Bool)
  | eject (station : Nat)
  deriving DecidableEq, Repr

/-- States of a contract (R201). -/
inductive ContractState where
  | free
  | opened
  | broken
  deriving DecidableEq, Repr

/-- A flow contract (R195-R201). -/
structure Contract where
  state : ContractState := .free
  /-- The twelve words of R195. -/
  terms : List Word := []
  /-- Opening booth. -/
  booth : Nat := 0
  tdir : Nat := 0
  path : List Output := []
  /-- Reported bound in ns. -/
  bound : Nat := 0
  /-- Peak and sustained allowances of R196, in 1/4000 byte: rates in Mb/s fill them by RATE each 2 ns. -/
  peakA : Int := 0
  rateA : Int := 0
  deriving DecidableEq, Repr

/-- The Bough and its contracts. -/
structure Bough where
  /-- The default entries of the tables of die a's stations toward die b's populated stations have been written, by
  a * 16 + b (R186). -/
  blocks : Sparse Bool := []
  /-- Entries that stand in place of a default, by station * 4096 + entry. -/
  entries : Sparse (Option Word) := []
  /-- Trunk segments for whose loss the Warden has rewritten the default entries (R194). -/
  avoid : List Nat := []
  /-- Listed entries rewritten for a segment: segment, key, TDIR before. -/
  rewrites : List (Nat × Nat × Nat) := []
  contracts : Sparse Contract := []
  /-- Response slots in use, by station (R189). -/
  used : Sparse Nat := []
  /-- Requests that wait in a network interface, oldest first (R188). -/
  waiting : List Packet := []
  /-- Packets that have arrived and that their station has not taken. -/
  inbox : List Packet := []
  /-- Counters of the hub and the lane dies, which are not register-mapped, by die * 8 + i (R202). -/
  counters : Sparse Nat := []
  /-- LINE of R193. -/
  line : Bool := false
  /-- Trunk segments gone DOWN or narrow whose contracts and entries the Warden has not reworked. -/
  rerouteDue : List Nat := []
  restoreDue : List Nat := []
  /-- Sink violations since the last event, by station. -/
  sinkSince : Sparse Nat := []
  /-- Blocked provisional writes since the last event, by station (07 R239). -/
  gateSince : Sparse Nat := []
  deriving DecidableEq, Repr

/-- A link unit's training and repair (07 R208-R214), by die * 16 + unit of its lower-numbered end. -/
structure LinkUnit where
  /-- Current training round, 1-3; zero outside training. -/
  round : Nat := 0
  /-- Largest width, or mask of groups, that a round may propose. -/
  cap : Nat := 0
  /-- This training began in service after a replay failed (cause 2). -/
  inService : Bool := false
  /-- Failures in succession of one transfer, by receiving end. -/
  fails : Sparse Nat := []
  /-- Errors charged to wires: receiving end * 2048 + wire, and TICK of the charge. -/
  charges : List (Nat × Nat) := []
  /-- Spares mapped at the hub's end, which has no register (R207). -/
  hubSpares : Nat := 0
  /-- The forwarded clocks are present at both ends. -/
  clock : Bool := true
  /-- The crossing check of R217 has been made and passed. -/
  passing : Bool := false
  deriving DecidableEq, Repr

/-- The die links. -/
structure Links where
  units : Sparse LinkUnit := []
  /-- Units newly NARROW whose contracts the Warden has not re-evaluated (R215). -/
  narrowDue : List (Nat × Nat) := []
  deriving DecidableEq, Repr

end Sys2Proof.Machine
end

