-- ==== Sys2Proof/Machine/Units/Clk.lean ====
section
/-!
DEFINITION. State of the clocks, resets and power states that no register holds (file 03 of spec/).
-/
namespace Sys2Proof.Machine

/-- Clock roots and loops (03 R79-R90). Domains: 0 SRL, 1 TL, 2-5 LRL0-LRL3. -/
structure Clk where
  /-- Domains whose reference is being slewed (R85). -/
  switching : List Nat := []
  /-- TL holds over (R90, M4); LRL domains hold over likewise. -/
  holdover : List Nat := []
  /-- Failed amplitude consultations of XIN0 and XIN1 (R82). -/
  fails0 : Nat := 0
  fails1 : Nat := 0
  /-- XIN inputs whose start delay has elapsed with the detector satisfied. -/
  ampl : List Nat := []
  /-- Frequencies of XIN0, XIN1 stated by the boot header; 0 when none is stated. -/
  xin0Hz : Nat := 0
  xin1Hz : Nat := 0
  /-- The wait for a board reference has ended without one (R81). -/
  noReference : Bool := false
  /-- Blocks whose clock has stopped, as die * 32 + bit (R88). -/
  stopped : List Nat := []
  /-- Fabric user loops: grove * 32 + loop to reference and kHz (R97). -/
  fuls : Sparse (Nat × Nat) := []
  /-- CLK_DIE_RESET in progress: die, booth of its command, KEEP_DRAM. -/
  dieResets : List (Nat × Nat × Bool) := []
  /-- Grove and lane dies released since the package reset (R92). -/
  released : List Nat := []
  /-- Recovered lane clocks that are ready are read from the lanes; the reference input from SVP_STATUS. -/
  selectBooth : List (Nat × Nat) := []
  deriving DecidableEq, Repr

end Sys2Proof.Machine
end

