-- ==== Sys2Proof/Machine/Units/Debug.lean ====
section
/-!
DEFINITION. State of the debug station, the TAP and run control that no register holds (file 18 of spec/).
-/
namespace Sys2Proof.Machine

/-- A DBG_READ or DBG_WRITE under way: one word at a time (18 R539). -/
structure DbgAccess where
  write : Bool
  side : Bool
  addr : Nat
  /-- Words still to do; those to write, and those read or written so far. -/
  left : Nat
  data : List Word
  got : List Word
  deriving DecidableEq, Repr

/-- The debug station and the TAP (18 R533-R538). -/
structure Debug where
  /-- Level and nonce of the pending challenge (R536). -/
  challenge : Option (Nat × List Word) := none
  access : Option DbgAccess := none
  /-- Instruction in force in the TAP; test-logic-reset selects IDCODE. -/
  ir : Nat := 0x02
  /-- Data of the previous DBGACC read, and its outcome: 0 done, 1 in progress, 2 refused. -/
  accData : Word := 0
  accState : Nat := 0
  /-- The boundary register, and whether it drives the balls (EXTEST, CLAMP; R537). -/
  boundary : List Bool := []
  extest : Bool := false
  /-- The active pair is halted (R553). -/
  wardenHalted : Bool := false
  /-- Dies stopped by DBG_DIE_STOP (R550). -/
  stoppedDies : List Nat := []
  /-- Cross-trigger pulses on their way: sending grove and grove reached (R548). -/
  pulses : List (Nat × Nat) := []
  /-- Halts since the last DBG_TILE_HALTED of each grove (R559). -/
  haltsSince : Sparse Nat := []
  /-- TICK of each grove's last DBG_TILE_HALTED. -/
  haltLast : Sparse (Option Nat) := []
  /-- The half-period warning of the host watchdog has been raised since its last reload. -/
  hostWarned : Bool := false
  deriving DecidableEq, Repr

/-- The injection machine and findings (19 R563-R572). Point keys: die * 256 + point. -/
structure Ras where
  on : Bool := false
  /-- Eligible operations since arming (EVERY). -/
  since : Sparse Nat := []
  /-- INJ_WHERE entries in use, oldest first, of each point. -/
  whereUsed : Sparse (List Nat) := []
  seenSince : Sparse Nat := []
  /-- TICK of each point's last RAS_INJ_SEEN, and of each grove's last RAS_BRAM_UNCORR. -/
  seenLast : Sparse (Option Nat) := []
  bramLast : Sparse (Option Nat) := []
  sramCorr : Nat := 0
  sramUncorr : Nat := 0
  /-- Corrected and uncorrectable findings of each die since its reset. -/
  corr : Sparse Nat := []
  uncorr : Sparse Nat := []
  bramSince : Sparse Nat := []
  deriving DecidableEq, Repr

end Sys2Proof.Machine
end

