-- ==== Sys2Proof/Machine/Units/Tile.lean ====
section
/-!
DEFINITION. State of the signal tiles that no register holds (file 08 of spec/). Registers of a tile are numbered
s0-s15 from 0, a0-a7 from 16, b0-b7 from 24, l0-l7 from 32, v0-v15 from 40, acc0-acc3 from 56, ST at 60.
-/
namespace Sys2Proof.Machine

/-- Values and taint bits of a tile's registers (08 R240). Register 60 holds SAT and OVF of ST. -/
structure TRegs where
  vals : Sparse Nat := []
  taints : Sparse Bool := []
  deriving DecidableEq, Repr

/-- A result on its way to its register (08 R249, R250). -/
structure Result where
  reg : Nat
  val : Nat
  taint : Bool
  /-- The cycle in which it becomes visible. -/
  due : Nat
  /-- It only sets OVF (R282). -/
  ovf : Bool := false
  deriving DecidableEq, Repr

/-- A store held in the lock buffer or the commit buffer (08 R256, R265). -/
structure TileStore where
  ext : Bool
  /-- Tile address of a local store, device address of an external one. -/
  addr : Nat
  /-- Tile address of the store. -/
  va : Nat
  data : List Byte
  taint : Bool
  deriving DecidableEq, Repr

/-- A work item as its dispatcher and its tile hold it (10 R304, R328). -/
structure Item where
  /-- Descriptor words 0-7 as posted. -/
  desc : List Word := []
  slot : Nat := 0
  gen : Nat := 0
  late : Bool := false
  eclass : Nat := 0
  /-- NS of the release time of an item released from a delay list, else 0 (08 R260). -/
  release : Nat := 0
  restarts : Nat := 0
  /-- Killed at the restart limit (10 R327). -/
  limit : Bool := false
  cycles : Nat := 0
  deriving DecidableEq, Repr

/-- What a tile stalled under 08 R251 waits for. -/
inductive Stall where
  /-- The external load whose data goes to a register; taint of its result; the post-modify due with it. -/
  | load (reg len va : Nat) (taint : Bool) (post : Option (Nat × Nat × Bool))
  /-- Translation of the external access at PC. -/
  | xlate (walk : Nat)
  /-- The taint of an external load's address register (R263). -/
  | addrTaint
  /-- The commit buffer down to a number of entries (R265). -/
  | buffer (entries : Nat)
  /-- The conditions of FENCE (09 R298). -/
  | fence
  deriving DecidableEq, Repr

/-- The context of a pre-empted item (08 R272). -/
structure SavedTile where
  regs : TRegs := {}
  pc : Nat := 0
  tmr : Nat := 0
  wd : Nat := 0
  wdLoad : Nat := 0
  item : Item := {}
  spec : Bool := false
  restarted : Bool := false
  lockBroken : Bool := false
  /-- RUN, WAIT or FAULTED. -/
  state : Nat := 0x71
  waitT : Bool := false
  wrOut : List (Nat × Nat) := []
  wrGen : Nat := 0
  werr : Option Nat := none
  deriving DecidableEq, Repr

/-- A signal tile (08). -/
structure Tile where
  /-- State code of R276. -/
  state : Nat := 0x70
  item : Option Item := none
  regs : TRegs := {}
  /-- Registers as units issued one and two cycles before see them (09 R294). -/
  old : TRegs := {}
  older : TRegs := {}
  results : List Result := []
  /-- Issue cycles of the tile. -/
  cyc : Nat := 0
  pc : Nat := 0
  /-- Last PC issued (TIL_PC). -/
  lastPc : Nat := 0
  tmr : Nat := 0
  /-- Watchdog ticks remaining, the item's value (0: off), and CK_TILE cycles since the last tick (R275). -/
  wd : Nat := 0
  wdLoad : Nat := 0
  wdSub : Nat := 0
  ctaint : Bool := false
  spec : Bool := false
  restarted : Bool := false
  /-- LOCK_BROKEN of ST and of TIL_STATUS. -/
  stBroken : Bool := false
  broken : Bool := false
  /-- The issue cycle of the unit at PC has begun; its class-C word has issued. -/
  begun : Bool := false
  paired : Bool := false
  /-- Delay slots to come, and the branch target when taken (R252). -/
  slots : Nat := 0
  target : Option Nat := none
  /-- Repetitions to come of the unit at `repPc` (R253). -/
  rep : Nat := 0
  repPc : Nat := 0
  /-- Instructions of the locked sequence to come, PC of its LOCK, and the lock buffer (R256). -/
  lock : Nat := 0
  locked : Bool := false
  lockPc : Nat := 0
  lockBuf : List TileStore := []
  stall : Option Stall := none
  /-- Device address that the translation of the access at PC delivered. -/
  xaddr : Option Nat := none
  provPend : Nat := 0
  /-- Tainted 32-byte units of data memory (R264). -/
  units : Sparse Bool := []
  cbuf : List TileStore := []
  /-- Generation of external loads and of external writes: answers to others are dropped (R267). -/
  rdGen : Nat := 0
  wrGen : Nat := 0
  /-- External WRs not yet acknowledged, by device and tile address, and the tile address of one answered other than
  OK. -/
  wrOut : List (Nat × Nat) := []
  werr : Option Nat := none
  /-- A KILL that has not been taken, and the wake latch. -/
  kill : Bool := false
  wake : Bool := false
  /-- T of the WAIT in progress, code of the EXIT in progress. -/
  waitT : Bool := false
  exitCode : Nat := 0
  /-- Item given by the dispatcher that has not entered, and ready slot of an item that asks to pre-empt. -/
  incoming : Option Item := none
  preempt : Option Nat := none
  saved : Option SavedTile := none
  /-- SWITCHING restores the slot. -/
  restoring : Bool := false
  /-- State to return to from OFF and from HALTED. -/
  before : Nat := 0x70
  halted : Nat := 0x70
  /-- A step: 1 its unit is to issue, 2 the tile halts at the next boundary (18 R544). FORCE of its halt request. -/
  stepping : Nat := 0
  force : Bool := false
  deriving DecidableEq, Repr

end Sys2Proof.Machine
end

