-- ==== Sys2Proof/Machine/Units/Dsp.lean ====
section
/-!
DEFINITION. State of the dispatchers and of the translation units that no register holds (files 10 and 11 of spec/).
-/
namespace Sys2Proof.Machine

/-- Where an accepted item stands (10 R307, R315, R317, R324). -/
inductive Stage where
  /-- In its delay list. -/
  | delay
  /-- Waiting for its flow's context to be read, or in the entry backlog. -/
  | lookup
  | backlog
  /-- In its flow's wait chain. -/
  | chain
  /-- In its ready queue. -/
  | ready
  /-- In service: on a tile, or about to enter one. -/
  | service (tile : Nat)
  deriving DecidableEq, Repr

/-- An item in a ready slot. -/
structure Held where
  item : Item
  stage : Stage
  /-- Order of entry into its place. -/
  order : Nat := 0
  /-- Release time, WRAPS:NS. -/
  due : Nat := 0
  /-- The chain's next ready slot (10 R316). -/
  next : Option Nat := none
  /-- Order of start, for the choice of a victim (10 R324). -/
  started : Nat := 0
  deriving DecidableEq, Repr

/-- What a tile has reported to its dispatcher (08 R261, R270). -/
structure TileReport where
  tile : Nat
  item : Item
  cause : Nat
  code : Nat
  deriving DecidableEq, Repr

/-- The dispatchers. Keys: grove * 65536 + ready slot, grove * 2048 + post slot, grove * 2^21 + FLOW[20:0],
grove * 16 + tile set, grove * 8 + priority or list. -/
structure Dsp where
  slots : Sparse (Option Held) := []
  /-- Generation of each ready slot (10 R305). -/
  gens : Sparse Nat := []
  /-- Count of orders given. -/
  seq : Nat := 0
  /-- Words last written to each post slot, and its RESULT (10 R302, R305). -/
  posted : Sparse (List Word) := []
  results : Sparse Word := []
  /-- Cached contexts, oldest first (10 R317). -/
  ctxs : List (Nat × List Word) := []
  /-- Contexts being read. -/
  reads : List Nat := []
  /-- Items cancelled while their context was awaited, by context (10 R308). -/
  ghosts : Sparse Nat := []
  /-- Items failed for a poisoned context since the last event of each grove, and its TICK (10 R320). -/
  poisonSince : Sparse Nat := []
  poisonLast : Sparse (Option Nat) := []
  /-- Tile last chosen for each set, and queue last served of each priority (10 R309, R310). -/
  lastTile : Sparse Nat := []
  lastQueue : Sparse Nat := []
  reports : List TileReport := []
  restarts : List Nat := []
  /-- High words latched by a read of DSP_CLS_CYC: station, register, value (10 R322). -/
  latches : List (Nat × Nat × Word) := []
  /-- Flush under way of each grove: none, or the flow, or every flow (10 R318). -/
  flush : Sparse (Option (Option Nat)) := []
  deriving DecidableEq, Repr

/-! ### Translation units (11 R350-R355) -/

/-- A TLB entry: a page of 2^k bytes (11 R353). -/
structure TlbEntry where
  asid : Nat
  page : Nat
  k : Nat
  base : Nat
  w : Bool
  deriving DecidableEq, Repr

/-- Who asked for a translation. -/
inductive XUser where
  | tile (t : Nat)
  /-- A porter channel, by station ID; `dst` for the destination side of its beat. -/
  | porter (station : Nat) (dst : Bool)
  deriving DecidableEq, Repr

/-- A table walk (11 R350, R351, R353). -/
structure Walk where
  id : Nat
  grove : Nat
  asid : Nat
  va : Nat
  write : Bool
  user : XUser
  /-- A read is in flight; a walk beyond the 16 waits. -/
  sent : Bool := false
  /-- 1, then 2 with the page's log size. -/
  level : Nat := 1
  k : Nat := 30
  /-- Begun before a block reset: it enters no TLB entry (R356). -/
  stale : Bool := false
  deriving DecidableEq, Repr

/-- The translation units, by grove. -/
structure Xlt where
  /-- TLB entries, most recently used first. -/
  tlb : Sparse (List TlbEntry) := []
  walks : List Walk := []
  walkId : Nat := 0
  /-- Failures since the last XLT_FAULT of each grove, and its TICK (11 R360). -/
  faultSince : Sparse Nat := []
  faultLast : Sparse (Option Nat) := []
  /-- Invalidation under way: scope, ASID, page, and the walks that began before it (11 R354). -/
  inval : Sparse (Option (Nat × Nat × Nat × List Nat)) := []
  deriving DecidableEq, Repr

end Sys2Proof.Machine
end

