-- ==== Sys2Proof/Machine/Units/Fabric.lean ====
section
/-!
DEFINITION. State of configuration and of the programmable fabric that no register holds (files 04 and 05 of
spec/). A region is numbered 0-15 for a clearing and 16 for the static region, and grove * 17 + region device-wide.
-/
namespace Sys2Proof.Machine

/-- A load in progress (04 R108, R115, R122, R123). -/
structure Load where
  grove : Nat
  region : Nat
  /-- The frames go to the shadow plane. -/
  shadow : Bool
  /-- 0 QSPI, 1 device address, 2 stream. -/
  source : Nat
  /-- Station whose stream writes are accepted, and the booth of a CFG_LOAD whose header has not arrived. -/
  station : Nat := 0
  header : Option Nat := none
  auto : Bool
  enc : Bool := false
  epoch : Nat := 0
  nonce : Nat := 0
  frames : Nat := 0
  next : Nat := 0
  digest : List Word := []
  /-- Descriptor and frames so far, as stored. -/
  body : List Word := []
  bramInit : Bool := false
  /-- Words of the stream not yet consumed. -/
  buffer : List Word := []
  /-- A load of the boot header's image table. -/
  table : Bool := false
  deriving DecidableEq, Repr

/-- A release (0), swap (1) or rollback (2) waiting for its CK_LINK edge (R117, R118, R121). -/
structure Edge where
  /-- Booth of its command; none for an AUTO_RELEASE. -/
  booth : Option Nat
  op : Nat
  grove : Nat
  region : Nat
  kind : Nat
  tb : Nat
  /-- Named WRAPS:NS, if any lies ahead. -/
  due : Option Nat
  late : Bool
  deriving DecidableEq, Repr

/-- The configuration controller. -/
structure Cfg where
  /-- Accepted boot header, 161 words. -/
  header : Option (List Word) := none
  loads : List Load := []
  edges : List Edge := []
  /-- Floorplan entries of each grove's clearings, 154 words each, by grove * 17 + clearing. -/
  plans : Sparse (List Word) := []
  /-- LOADED regions to be released with the static region or at boot step 9. -/
  auto : List Nat := []
  /-- Image-table entries loaded or failed at boot. -/
  tableDone : Nat := 0
  tableFailed : Nat := 0
  deriving DecidableEq, Repr

/-- One 64-bit word of block RAM with its 16 check bits (05 R149). -/
structure BramWord where
  data : Nat := 0
  chk : Nat := 0
  deriving DecidableEq, Repr

/-- Outputs of a block RAM port (R146). -/
structure BramPort where
  dout : Nat := 0
  cerr : Bool := false
  uerr : Bool := false
  deriving DecidableEq, Repr

/-- A word of the user NVM; erased words are unlisted. `undef`: a PROGRAM or ERASE was cut short (R160). -/
structure NvmWord where
  data : Nat := 2 ^ 64 - 1
  undef : Bool := false
  deriving DecidableEq, Repr

/-- The user NVM port of a grove (R158): the command under way and the last result. -/
structure NvmPort where
  /-- CMD, ADDR and outcome of the command under way: STATUS and RDATA to be given. -/
  busy : Option (Nat × Nat × Nat × Nat) := none
  status : Nat := 0
  rdata : Nat := 0
  /-- DONE pulses given. -/
  done : Nat := 0
  deriving DecidableEq, Repr

/-- A fabric serial port's FIFOs (R161). -/
structure SerialPort where
  tx : List Nat := []
  rx : List Nat := []
  /-- Items shifted out on the line, newest last. -/
  line : List Nat := []
  deriving DecidableEq, Repr

/-- A sample of trace memory, and the bytes whose parity bit is wrong (R169). -/
structure TraceWord where
  data : Nat := 0
  badBytes : Nat := 0
  deriving DecidableEq, Repr

/-- The fabrics. Frame keys: (grove * 8 + type) * 65536 + index. Block RAM number: grove * 2048 + block RAM. -/
structure Fabric where
  /-- Configuration frames of the live and shadow planes: 1,024 words, an erased frame being the empty list. -/
  live : Sparse (List Word) := []
  shadow : Sparse (List Word) := []
  /-- Drivers of express wires, claimed since the plane was erased: wire (grove * 102400 + head) * 4 + direction to
  driver index * 16 + cell (R140). -/
  liveHeads : Sparse (Option Nat) := []
  shadowHeads : Sparse (Option Nat) := []
  /-- Block RAM words written since their contents were last undefined, by block RAM number * 2048 + word; spare `k` is
  word 1024 + k. -/
  bram : Sparse (Option BramWord) := []
  /-- Block RAMs whose other words are undefined, with the count of free values when they became so (04 R116); number
  grove * 2048 + 2047 stands for every block RAM of a grove. -/
  bramVoid : Sparse (Option Nat) := []
  /-- Mended address of each spare in use, by block RAM number * 4 + spare. -/
  mends : Sparse (Option Nat) := []
  bramPorts : Sparse BramPort := []
  /-- Corrected words waiting for their write-back: block RAM number, word. -/
  writeBacks : List (Nat × Nat) := []
  /-- Next word of each block RAM's sweep, and words found correctable on its last pass. -/
  sweepPos : Sparse Nat := []
  sweepFound : Sparse (List Nat) := []
  /-- User NVM words by grove * 262144 + word; erase counts by grove * 512 + sector. -/
  nvm : Sparse NvmWord := []
  nvmCount : Sparse Nat := []
  nvmPorts : Sparse NvmPort := []
  serial : Sparse SerialPort := []
  /-- Pins left unused under R165, by grove * 128 + pin. -/
  badPins : List Nat := []
  /-- Trace memory, by grove * 131072 + sample; samples taken since arming; POST samples still to be taken. -/
  trace : Sparse TraceWord := []
  samples : Sparse Nat := []
  postLeft : Sparse (Option Nat) := []
  deriving DecidableEq, Repr

end Sys2Proof.Machine
end

