-- ==== Sys2Proof/Machine/Units/Lanes.lean ====
section
/-!
DEFINITION. State of the lanes, the port engines and their classifier that no register holds (file 14 of spec/).
-/
namespace Sys2Proof.Machine

/-- A policer (R442): rates in Mb/s, sizes in bytes, buckets in 1/4000 byte as of TICK `last`. -/
structure Policer where
  cir : Nat := 0
  cbs : Nat := 0
  eir : Nat := 0
  ebs : Nat := 0
  tc : Nat := 0
  tp : Nat := 0
  last : Nat := 0
  deriving DecidableEq, Repr

/-- A gate list with its cycle (R446): entries as GATES and DURATION words. -/
structure GateList where
  tb : Nat := 0
  dflt : Nat := 0xFF
  base : Nat := 0
  cycle : Nat := 1000
  entries : List Word := []
  deriving DecidableEq, Repr

/-- A frame queued for transmission, or the blocks of a raw unit (R433, R434). -/
structure TxFrame where
  pe : Nat
  port : Nat
  cls : Nat
  tsReq : Bool
  oneStep : Bool
  tag : Nat
  data : List Byte
  deriving DecidableEq, Repr

/-- A received frame in an engine's ingress buffer (R443): its unit number and share. -/
structure RxFrame where
  pe : Nat
  unit : Nat
  guar : Bool
  len : Nat
  deriving DecidableEq, Repr

/-- Lanes and port engines. Port key: 8 * PE + port. -/
structure Lanes where
  /-- F_LRL of a lane die: 0 156.25 MHz, 1 161.1328125 MHz (R420). -/
  lrl : Sparse Nat := []
  /-- Trim code in force on a lane die, and the trial code the Warden keeps (R454). -/
  trim : Sparse Nat := []
  trial : Sparse (Option Nat) := []
  /-- LAN_ and PEN_ settings the Warden keeps, by register address (R453). -/
  kept : Sparse (Option Word) := []
  /-- Classifier entries of the dies, and the Warden's copy: die * 65536 + bucket * 4 + way; 8 words (R441). -/
  cls : Sparse (List Word) := []
  clsKept : Sparse (List Word) := []
  /-- Policers by die * 4096 + index; the Warden's copy holds CIR, CBS, EIR, EBS. -/
  pol : Sparse (Option Policer) := []
  polKept : Sparse (List Nat) := []
  /-- Active and shadow gate lists of each engine, and the Warden's copy of the list last loaded. -/
  active : Sparse (Option GateList) := []
  shadow : Sparse (Option GateList) := []
  gateKept : Sparse (Option GateList) := []
  txq : List TxFrame := []
  rxq : List RxFrame := []
  /-- Frame leaving a gated port: class and TICK at which it ends. -/
  leaving : Sparse (Option (Nat × Nat)) := []
  /-- Last frame or block sent on a port. -/
  wire : Sparse (List Byte) := []
  /-- Units sent by an engine, and blocks received by a raw port. -/
  units : Sparse Nat := []
  blocks : Sparse Nat := []
  /-- TICK of each lane's last LANE_SIGNAL, and changes since. -/
  sigLast : Sparse (Option Nat) := []
  sigSince : Sparse Nat := []
  /-- TICK of each engine's last LANE_FEC_UNCORR, and codewords since. -/
  fecLast : Sparse (Option Nat) := []
  fecSince : Sparse Nat := []
  /-- TICK at which the PRBS checker of a lane locked. -/
  prbsAt : Sparse Nat := []
  deriving DecidableEq, Repr

end Sys2Proof.Machine
end

