-- ==== Sys2Proof/Machine/Units/Mem.lean ====
section
/-!
DEFINITION. State of the DRAM channels and of the encryption units that no register holds (files 12 and 13 of spec/).
-/
namespace Sys2Proof.Machine

/-- A transaction in service at a home (07 R227; 12 R368), by its number. -/
structure Access where
  id : Nat := 0
  /-- The request; a cache message has destination station 0x03 and its kind in ADDR[5:0]. -/
  pkt : Packet
  /-- Line entries not yet served. -/
  left : Nat := 0
  /-- Bytes read so far, by byte of the transaction. -/
  data : Sparse Byte := []
  /-- Some part was answered POISON. -/
  poison : Bool := false
  deriving DecidableEq, Repr

/-- One line of an access in a channel's queue or real-time buffer (12 R368, R376). -/
structure DramEntry where
  /-- Channel address [37:6]. -/
  line : Nat
  acc : Nat
  /-- First byte within the line, and bytes. -/
  off : Nat
  len : Nat
  /-- First byte within the access. -/
  pos : Nat := 0
  write : Bool
  data : List Byte := []
  /-- The write arrived with POISON = 1. -/
  poison : Bool := false
  deriving DecidableEq, Repr

/-- A fill under way on a channel (12 R386): lines of the channel still to write. -/
structure FillJob where
  next : Nat
  last : Nat
  pattern : Nat
  written : Nat := 0
  /-- The grove was reset. -/
  aborted : Bool := false
  deriving DecidableEq, Repr

/-- A DRAM channel. -/
structure Channel where
  /-- Read and write entries in the order of their arrival. -/
  queue : List DramEntry := []
  /-- The real-time buffer. -/
  rt : List DramEntry := []
  /-- VC0 writes not yet in the buffer. -/
  rtWait : List Packet := []
  writeMode : Bool := false
  /-- Open row of each bank, and row hits of the bank served ahead of a waiting request (R369, R370). -/
  rows : Sparse (Option Nat) := []
  hits : Sparse Nat := []
  /-- REFs postponed (positive) or pulled in, by logical rank (R371). -/
  owed : Sparse Int := []
  /-- TICK of the alerts of the last millisecond, and whether some were parity errors (R383). -/
  alerts : List Nat := []
  alertKinds : Nat := 0
  /-- ALERT_n is low for a parity error. -/
  parityLow : Bool := false
  /-- The training under way is a retention training in service (R365, R384). -/
  inService : Bool := false
  /-- REMAP of the MEM_TRAIN under way. -/
  remap : Bool := false
  fill : Option FillJob := none
  /-- PERIOD of the patrol scrub in hours; findings of the pass. -/
  period : Nat := 0
  passCorr : Nat := 0
  passUncorr : Nat := 0
  /-- Corrected codewords waiting for their write-back: line, codeword, symbols (R380). -/
  writeBacks : List (Nat × Nat × List Nat) := []
  /-- Uncorrectable findings since the last MEM_UE, and its TICK. -/
  ueSince : Nat := 0
  ueLast : Option Nat := none
  /-- CK_TIME cycles spent in panic. -/
  panicTicks : Nat := 0
  deriving DecidableEq, Repr

/-- One encryption region (13 R393-R401). -/
structure EncRegion where
  dataKey : List Word := []
  tagKey : List Word := []
  clock : Nat := 0
  /-- The seven root counters. -/
  root : List Nat := []
  /-- Stored bits that differ: word (0-6 root counters, 7 the clock) and bit. -/
  flips : List (Nat × Nat) := []
  /-- Builds of subtrees, newest first: level, node, generation. -/
  builds : List (Nat × Nat × Nat) := []
  /-- Nodes being rebuilt, in the order of the commands: level and index. -/
  jobs : List (Nat × Nat) := []
  deriving DecidableEq, Repr

/-- A line of a counter cache (13 R405). -/
structure CounterLine where
  bytes : List Byte
  dirty : Bool := false
  used : Nat := 0
  /-- Stored bits that differ: 64-bit word and bit. -/
  flips : List (Nat × Nat) := []
  deriving DecidableEq, Repr

/-- The DRAM channels and encryption units. -/
structure Dram where
  chans : Sparse Channel := []
  /-- Codewords of 18 symbols, by channel * 2^34 + line * 4 + codeword; an unlisted one holds unknown data. -/
  cells : Sparse (List Nat) := []
  accesses : List Access := []
  nextAcc : Nat := 0
  /-- Regions by grove * 8 + region. -/
  regions : Sparse EncRegion := []
  /-- Counter-cache lines by (grove * 8 + region) * 2^40 + level * 2^32 + index; level 0 holds tag lines. -/
  cache : Sparse (Option CounterLine) := []
  clockUse : Nat := 0
  /-- Tag failures since the last MEM_ENC_TAG_FAIL of each grove, and its TICK. -/
  tagSince : Sparse Nat := []
  tagLast : Sparse (Option Nat) := []
  /-- Registers that the Warden copied to the hub before a die reset with KEEP_DRAM, and scrub periods, by grove. -/
  kept : Sparse (List (Nat × Word)) := []
  keptPeriods : Sparse (List Nat) := []
  deriving DecidableEq, Repr

end Sys2Proof.Machine
end

