-- ==== Sys2Proof/Machine/Units/Pins.lean ====
section
/-!
DEFINITION. State of the service pins and the hub serial ports that no register holds (file 17 of spec/).
-/
namespace Sys2Proof.Machine

/-- A hub UART (17 R527, R528, R530). -/
structure Uart where
  /-- Data bits 8, parity, two stop bits, as bits 0, [2:1] and 3. -/
  cfg : Nat := 1
  divisor : Nat := 1
  tx : List Byte := []
  rx : List Byte := []
  /-- CK_TIME cycles that the byte leaving has taken, and the last byte sent. -/
  phase : Nat := 0
  line : Option Byte := none
  /-- Bytes discarded on a full FIFO since the last PIN_UART_IO; PIN_UART_OVF raised once. -/
  lost : Nat := 0
  deriving DecidableEq, Repr

/-- The service pins. -/
structure Pins where
  /-- The pads work at 3.3 V (01 R19). -/
  pads33 : Bool := false
  /-- Level the keeper holds during a switch (R523). -/
  keeper : Sparse Bool := []
  /-- SVP_PIN value waiting for cycle 8 of a running switch (R524). -/
  waiting : Sparse (Option Word) := []
  /-- Inputs in conflict: function and index (R518). -/
  conflicts : List (Nat × Nat) := []
  /-- Conflicts since the last PIN_CONFLICT, and the TICK of that event. -/
  conflictsSince : Nat := 0
  conflictLast : Option Nat := none
  /-- Frequency stated by PIN_REF_CFG; 0 none (R526). -/
  refHz : Nat := 0
  uarts : Sparse Uart := []
  /-- Bytes last written by each serial port: TW0-TW5 as 0-5, SPI0-SPI1 as 8-9. -/
  sent : Sparse (List Byte) := []
  /-- Mode of the last SPI transfer, whose idle level SCK keeps. -/
  spiMode : Sparse Nat := []
  deriving DecidableEq, Repr

end Sys2Proof.Machine
end

