-- ==== Sys2Proof/Machine/Units/Porter.lean ====
section
/-!
DEFINITION. State of the porter channels that no register holds (file 11 of spec/).
-/
namespace Sys2Proof.Machine

/-- How far a beat has come (11 R341). -/
inductive BeatState where
  /-- Its source is being translated, or waits to be; then its destination. -/
  | xsrc
  | xdst
  /-- Its read is in flight; its data has arrived; its write is in flight; written. -/
  | reading
  | ready
  | writing
  | written
  deriving DecidableEq, Repr

/-- A beat of a transfer, or a placement of a unit (11 R340, R341). -/
structure Beat where
  /-- Transfer or unit offset, bytes. -/
  off : Nat
  len : Nat
  st : BeatState
  src : Nat := 0
  dst : Nat := 0
  data : List Byte := []
  poison : Bool := false
  /-- Tag of its read or write, and the walk it waits on. -/
  tag : Nat := 0
  walk : Nat := 0
  deriving DecidableEq, Repr

/-- A porter channel, by station ID (11 R333-R349). -/
structure Porter where
  /-- The descriptor in hand; a read of one in flight. -/
  desc : Option (List Word) := none
  reading : Bool := false
  /-- A mover is held, and bytes moved since it was taken (R344). -/
  mover : Bool := false
  moved : Nat := 0
  /-- Offset of the next beat to make. -/
  next : Nat := 0
  beats : List Beat := []
  /-- Why no more beats are issued: a status (R347), a translation fault (256), a pre-emption (257), a unit closed (259). -/
  stop : Option Nat := none
  /-- Offset of the first failed beat. -/
  failAt : Nat := 0
  /-- A translation failure to be recorded: cause, destination side, virtual address (R346). -/
  xfault : Option (Nat × Bool × Nat) := none
  /-- A record's write is in flight. -/
  recording : Bool := false
  /-- The notify that follows the record's acknowledgement. -/
  notify : Bool := false
  /-- EN was cleared (R348). -/
  offDue : Bool := false
  /-- State to resume after gating or DEEP (R356). -/
  before : Option Nat := none
  /-- Receive channel: sender of the open unit, highest offset placed plus one, LAST taken, bytes over the buffer, no
  descriptor (R340). -/
  sender : Option Nat := none
  placed : Nat := 0
  last : Bool := false
  overrun : Bool := false
  noDesc : Bool := false
  /-- Tag of its next request. -/
  tag : Nat := 0
  deriving DecidableEq, Repr

end Sys2Proof.Machine
end

