-- ==== Sys2Proof/Machine/Units/Rmc.lean ====
section
/-!
DEFINITION. State of the remote caches and home directories (file 07 of spec/).
-/
namespace Sys2Proof.Machine

/-- One way of a remote cache (07 R222, R223): state 0 I, 1 S, 2 M, 3 V. -/
structure CacheLine where
  st : Nat := 0
  home : Nat := 0
  /-- ADDR[37:6] of the line in its home's DRAM window. -/
  line : Nat := 0
  data : List Byte := []
  /-- A write merged into it arrived with POISON = 1. -/
  poison : Bool := false
  /-- A vestige check is pending. -/
  check : Bool := false
  /-- Order of last use, for the least recently used choice. -/
  used : Nat := 0
  deriving DecidableEq, Repr

/-- A fill that a cache has asked a home for, and the way that it will take (R223, R224). -/
structure Fill where
  grove : Nat
  home : Nat
  line : Nat
  excl : Bool
  way : Nat
  deriving DecidableEq, Repr

/-- A cacheable request that its cache serves line by line (R222). -/
structure CacheReq where
  grove : Nat
  pkt : Packet
  /-- Bytes served so far, and those of them read. -/
  pos : Nat := 0
  data : List Byte := []
  /-- STATUS of the first part that was not answered OK. -/
  status : Nat := 0
  /-- Some part needed the home. -/
  missed : Bool := false
  deriving DecidableEq, Repr

/-- A vestige check, and the requests answered from the vestige (R231, R232). -/
structure VCheck where
  grove : Nat
  home : Nat
  line : Nat
  /-- The vestige's bytes. -/
  data : List Byte
  requesters : List Packet
  /-- The confirm window ended first. -/
  expired : Bool := false
  deriving DecidableEq, Repr

/-- A home directory entry (R225, R238). -/
structure DirEntry where
  valid : Bool := false
  line : Nat := 0
  holders : Nat := 0
  owned : Bool := false
  owner : Nat := 0
  used : Nat := 0
  deriving DecidableEq, Repr

/-- A request that a home directory has taken and that has not reached its channel (R226, R227). -/
structure HomeReq where
  /-- Grove of the home. -/
  home : Nat
  /-- The request: from a cache (kind in its ADDR[5:0]) or an access that reaches a channel station. -/
  pkt : Packet
  /-- Surrenders that it awaits: line, holder, kind of the withdrawal. -/
  awaits : List (Nat × Nat × Nat) := []
  deriving DecidableEq, Repr

/-- A directory entry being reclaimed (R228). -/
structure DirEvict where
  home : Nat
  /-- Key of the entry, and its line. -/
  key : Nat
  line : Nat
  awaits : List (Nat × Nat × Nat)
  deriving DecidableEq, Repr

/-- A VC0 write whose M holder has been recalled (R229). -/
structure Vc0Recall where
  home : Nat
  line : Nat
  addr : Nat
  holder : Nat
  deriving DecidableEq, Repr

/-- Every remote cache and home directory. Cache keys: (grove * 16384 + set) * 16 + way. Directory keys:
(grove * 65536 + set) * 16 + way. -/
structure Rmc where
  lines : Sparse CacheLine := []
  fills : List Fill := []
  /-- Requests not yet answered, in the order of their arrival. -/
  reqs : List CacheReq := []
  checks : List VCheck := []
  dir : Sparse DirEntry := []
  homeReqs : List HomeReq := []
  evicts : List DirEvict := []
  recalls : List Vc0Recall := []
  clockUse : Nat := 0
  deriving DecidableEq, Repr

end Sys2Proof.Machine
end

