-- ==== Sys2Proof/Machine/Units/Tally.lean ====
section
/-!
DEFINITION. State of the Tally that no register holds (file 16 of spec/).
-/
namespace Sys2Proof.Machine

/-- The energy plan (16 R494, R502, R509, R512). -/
structure Plan where
  pkgLimit : Nat := 720000
  base : Nat := 0
  e0Cap : Nat := 360000
  tb : Nat := 0
  epochUs : Nat := 1000
  margin : Nat := 2
  hyst : Nat := 5
  hold : Nat := 100
  tileCapMin : Nat := 0
  /-- FUL_STOP masks of G0-G7. -/
  fulStop : List Nat := []
  deepGroves : Nat := 0
  deepLanes : Nat := 0
  chanMask : Nat := 0
  /-- Substitutions: 8 * PE + port, and the PEN_PORT_CFG value. -/
  subs : List (Nat × Nat) := []
  deriving DecidableEq, Repr

/-- What one rung changed, for its undo (R503). -/
inductive RungAct where
  | ful (grove loop : Nat)
  | deep (die : Nat)
  | chan (c : Nat)
  /-- Port 8 * PE + port, its prior configuration word, and the one applied. -/
  | port (p : Nat) (prior applied : Word)
  deriving DecidableEq, Repr

/-- A regulator entry (R506). -/
structure RegEntry where
  valid : Bool := false
  master : Nat := 0
  addr : Nat := 0
  page : Nat := 0
  rail : Nat := 63
  pollMs : Nat := 20
  fails : Nat := 0
  /-- Last polled power in microwatts; none while its rail has fallen back to the fixed figure. -/
  power : Option Nat := none
  vout : Nat := 0
  iout : Nat := 0
  temp : Int := 0
  status : Nat := 0
  deriving DecidableEq, Repr

/-- A fan (R508). -/
structure Fan where
  enable : Bool := false
  mask : Nat := 0
  /-- Four points: temperature in degrees, duty in percent. -/
  points : List (Int × Nat) := []
  duty : Nat := 0
  rpm : Nat := 0
  fault : Bool := false
  deriving DecidableEq, Repr

/-- The Tally. -/
structure Tally where
  /-- Sub-microjoule remainder of each rail, and of the package (57), in picojoules. -/
  frac : Sparse Nat := []
  /-- Last good power of each rail in microwatts. -/
  power : Sparse Nat := []
  /-- High words latched by a read of a low word: station * 128 + counter. -/
  latch : Sparse Word := []
  plan : Plan := {}
  pending : Option Plan := none
  supply : Nat := 0
  supplyMw : Nat := 0
  eRem : Nat := 0
  tOut : Nat := 0
  timeout : Nat := 600
  /-- Energy in microjoules and time in microseconds since the last NRG_SUPPLY. -/
  eUsed : Nat := 0
  tEl : Nat := 0
  stale : Bool := false
  /-- Allowances of E0-E7 in mW; word 0 ignored. -/
  allow : List Nat := []
  /-- Start enables held cleared by the ladder and by the allowances. -/
  heldLadder : Nat := 0
  heldAllow : Nat := 0
  /-- Consecutive epochs below the undo level; and with E0 over its reservation. -/
  undoCount : Nat := 0
  e0Over : Nat := 0
  e0Raised : Bool := false
  exhausted : Bool := false
  threat : Bool := false
  /-- Fabric and memory class per grove, class per engine; 8 and above, as unlisted, is unmapped. -/
  fabClass : Sparse Nat := []
  memClass : Sparse Nat := []
  peClass : Sparse Nat := []
  fixed : Sparse Nat := []
  /-- What each rung in force changed, key 1-6. -/
  rungs : Sparse (List RungAct) := []
  regs : Sparse RegEntry := []
  fans : Sparse Fan := []
  level : Nat := 0
  /-- Average package power of the last epoch in mW. -/
  lastP : Nat := 0
  /-- The last epoch's record. -/
  lastRecord : List Word := []
  /-- Energy counters at the last epoch boundary: rails 0-47, package 57. -/
  epochBase : Sparse Nat := []
  /-- DSP_CLS_CYC counts of each grove and class at the last boundary: grove * 8 + class. -/
  cycBase : Sparse Nat := []
  /-- NS, WRAPS, time base and validity of the epoch's start. -/
  epochStart : Nat × Nat × Nat × Bool := (0, 0, 0, false)
  deriving DecidableEq, Repr

end Sys2Proof.Machine
end

