-- ==== Sys2Proof/Machine/Units/Time.lean ====
section
/-!
DEFINITION. State of the time unit that no register holds (file 15 of spec/). Counts and phases are held in
units of 2^-40 ns, the finest the spec names.
-/
namespace Sys2Proof.Machine

/-- The count of one time base, on the hub or on a replica (15 R461-R464, R469). -/
structure TbCore where
  /-- Counting; a STOPPED time base is not (R465). -/
  run : Bool := false
  /-- WRAPS, NS, FRAC and the 8 bits below FRAC, as one number of 80 bits. -/
  cnt : Nat := 0
  /-- RATE, signed 32-bit, in units of 2^-40. -/
  rate : Int := 0
  /-- Remainder of the running slew, in units of 2^-40 ns; zero without a slew. -/
  slewRem : Int := 0
  /-- SLEW_PPB of the running slew. -/
  slewPpb : Nat := 0
  stepAcc : Int := 0
  origin : Nat := 0
  setSeq : Nat := 0
  deriving DecidableEq, Repr

/-- The model of the board oscillator, in units of 10^-15 (R479, R487). -/
structure OscModel where
  valid : Bool := false
  y0 : Int := 0
  a : Int := 0
  c1 : Int := 0
  c2 : Int := 0
  /-- T0 in thousandths of a degree. -/
  t0 : Int := 0
  sensor : Nat := 0
  /-- Frequency residual and ageing uncertainty, in units of 10^-15 (per second for the second). -/
  sigmaY : Nat := 1000000
  sigmaA : Nat := 0
  /-- Seconds since the model's t0. -/
  age : Nat := 0
  /-- Seconds of LOCKED while learning, and the lowest and highest temperature of its sensor meanwhile. -/
  lockedSecs : Nat := 0
  tLow : Option Int := none
  tHigh : Option Int := none
  deriving DecidableEq, Repr

/-- One time base as the Warden keeps it: state machine, sources, twin, model, holdover (R465, R474-R480). -/
structure TimeBase where
  core : TbCore := {}
  /-- STATE code 0xC0-0xC6. -/
  state : Nat := 0xC0
  stepOk : Bool := false
  priKind : Nat := 0
  priCh : Nat := 0
  twinKind : Nat := 0
  twinCh : Nat := 0
  bw : Nat := 100
  lockNs : Nat := 0
  slewPpb : Nat := 5000
  holdLimit : Nat := 1000
  /-- The sources have been heard since they were set or lost. -/
  priValid : Bool := false
  twinValid : Bool := false
  /-- LOCKED at some time since TIME_SET. -/
  everLocked : Bool := false
  /-- Consecutive measurements beyond 4 x LOCK_NS, and the last measurement lay within LOCK_NS. -/
  outCount : Nat := 0
  inside : Bool := false
  twinOut : Nat := 0
  twinInside : Bool := false
  /-- Last measured offset, and its filtered magnitude. -/
  offset : Int := 0
  filt : Nat := 0
  /-- The twin's count, on the hub only, and its lock (R478). -/
  twin : TbCore := {}
  twinLocked : Bool := false
  /-- The running slew is that of a twin switch (R478). -/
  twinSlew : Bool := false
  model : OscModel := {}
  /-- RATE_L, and the model's y_L in units of 10^-15 / (86,400 x 10^6) (R480). -/
  rateL : Int := 0
  yL : Int := 0
  u0 : Nat := 0
  lostSecs : Nat := 0
  /-- Seconds since the loss with the ensemble enabled (R484). -/
  enSecs : Nat := 0
  limitRaised : Bool := false
  errEst : Nat := 0
  /-- FUNC of TIME_HOST: 0 PF0, 1 PF1. -/
  func : Nat := 0
  deriving DecidableEq, Repr

/-- A change of a time base, carried by a TIME packet (R469). -/
inductive TimeChange where
  /-- Load of count, ORIGIN and RATE (TIME_SET). -/
  | load (cnt origin : Nat) (rate : Int)
  | rate (r : Int)
  /-- A slew by an amount in 2^-40 ns, added to the remainder (R462). -/
  | slew (amount : Int) (ppb : Nat)
  /-- A slew that replaces the remainder (R484). -/
  | slewNew (amount : Int) (ppb : Nat)
  | step (ns : Int)
  | stop
  /-- The HOST state, at the hub alone. -/
  | host (func : Nat)
  deriving DecidableEq, Repr

/-- A change waiting for its TICK at the hub (die 0) or at a die. -/
structure PendingChange where
  die : Nat
  tick : Nat
  tb : Nat
  change : TimeChange
  deriving DecidableEq, Repr

/-- The replicas of one grove or lane die (R468, R469). -/
structure Replica where
  loaded : Bool := false
  /-- The eight counts, by time base. -/
  cores : Sparse TbCore := []
  deriving DecidableEq, Repr

/-- A read latch of R466. -/
structure ReadLatch where
  station : Nat
  tb : Nat
  frac : Nat
  wraps : Nat
  setSeq : Nat
  stepAcc : Int
  origin : Nat
  deriving DecidableEq, Repr

/-- A capture record (R472). -/
structure CapRecord where
  ns : Nat
  wraps : Nat
  sub : Nat
  falling : Bool
  deriving DecidableEq, Repr

/-- A capture channel. -/
structure CapCh where
  records : List CapRecord := []
  /-- The channel's last captured edge: its TICK, in CK_TIME cycles. -/
  last : Option Nat := none
  deriving DecidableEq, Repr

/-- The configuration of a time output (R473). -/
structure OutCfg where
  tb : Nat := 0
  mode : Nat := 0
  period : Nat := 0
  width : Nat := 0
  offset : Int := 0
  ns : Nat := 0
  wraps : Nat := 0
  addr : Nat := 0
  data : Nat := 0
  deriving DecidableEq, Repr

/-- A time output. -/
structure TimeOut where
  cfg : OutCfg := {}
  /-- The PTP time of the next scheduled edge. -/
  next : Option Nat := none
  /-- The output is high, so that its next edge is the falling one. -/
  high : Bool := false
  /-- It has edges to make: false for OFF, and once a ONE_SHOT or TRIGGER is done or missed. -/
  armed : Bool := false
  /-- Configuration that takes effect after the next edge. -/
  later : Option OutCfg := none
  deriving DecidableEq, Repr

/-- A PTP port of the boundary clock (R475, R487). -/
structure PtpPort where
  pe : Nat := 0
  port : Nat := 0
  tb : Nat := 0
  domain : Nat := 24
  masterOnly : Bool := false
  twoStep : Bool := false
  nonForward : Bool := false
  localPriority : Nat := 0
  clockId : Nat := 0
  asym : Int := 0
  /-- IEEE 1588 portState: 4 LISTENING, 6 MASTER, 7 PASSIVE, 9 SLAVE. -/
  portState : Nat := 4
  offset : Int := 0
  delay : Nat := 0
  parent : Nat := 0
  clockClass : Nat := 0
  /-- Messages sent, by messageType. -/
  sent : Sparse Nat := []
  deriving DecidableEq, Repr

/-- A SyncE candidate source (R476). QL 0x100 stands for QL-FAILED. -/
structure SyncSrc where
  lane : Nat := 0
  prio : Nat := 0
  ql : Nat := 0x100
  deriving DecidableEq, Repr

/-- A peer of the ensemble (R485). -/
structure Peer where
  node : Nat
  added : Bool
  /-- 1 HEARD, 2 VALID, 3 STALE, 4 EXCLUDED. -/
  st : Nat := 1
  peerState : Nat := 0
  mac : Nat := 0
  pe : Nat := 0
  port : Nat := 0
  asym : Int := 0
  /-- Offset and path delay in 1/512 ns (R483). -/
  x : Int := 0
  delay : Int := 0
  uncert : Nat := 0
  weight : Nat := 0
  seq : Nat := 0
  /-- Receive time of its last report in 1/256 ns, echoed in the next one. -/
  rx : Nat := 0
  /-- Heard since this device's previous report. -/
  heard : Bool := false
  deriving DecidableEq, Repr

/-- The ensemble's configuration (R481, R484, R487). -/
structure Ensemble where
  enable : Bool := false
  learn : Bool := false
  tb : Nat := 0
  ether : Nat := 0x88B5
  dest : Nat := 0x0180C200000E
  domain : Nat := 0
  k : Nat := 3
  minPeers : Nat := 2
  tau : Nat := 1000
  asymUnc : Nat := 20
  delay : Nat := 60
  derate : Nat := 2
  /-- Port mask, bit 8 * PE + port. -/
  ports : Nat := 0
  seq : Nat := 0
  /-- Own reports of the last two periods, newest first: number, and transmit times in 1/256 ns by port. -/
  own : List (Nat × List (Nat × Nat)) := []
  /-- Payload of the report last sent on each port (R482). -/
  out : Sparse (List Word) := []
  /-- The device's own weight in the last round. -/
  w0 : Nat := 0
  /-- TICK of the last TIME_PEER_TABLE_FULL. -/
  fullLast : Option Nat := none
  deriving DecidableEq, Repr

/-- SyncE (R476). -/
structure SyncE where
  enable : Bool := false
  qlOn : Bool := false
  /-- The eight candidates; priority 0 is unused. -/
  srcs : List SyncSrc := []
  wtr : Nat := 0
  holdOff : Nat := 300
  ports : Nat := 0
  sel : Nat := 0xF
  ql : Nat := 0
  /-- ESMC PDUs sent. -/
  sent : Nat := 0
  deriving DecidableEq, Repr

/-- A TIME_SET with AT_EDGE that waits for its channel's next rising edge (R487). -/
structure EdgeSet where
  booth : Nat
  tb : Nat
  ch : Nat
  cnt : Nat
  origin : Nat
  rate : Int
  deriving DecidableEq, Repr

/-- The time unit. -/
structure Tu where
  tick : Nat := 0
  tbs : Sparse TimeBase := []
  changes : List PendingChange := []
  replicas : Sparse Replica := []
  /-- Read latches, most recently used first, at most 32. -/
  latches : List ReadLatch := []
  caps : Sparse CapCh := []
  outs : Sparse TimeOut := []
  /-- PTP ports by index. -/
  ptp : Sparse (Option PtpPort) := []
  synce : SyncE := {}
  ens : Ensemble := {}
  peers : List Peer := []
  /-- Transmit and receive corrections by port, key 8 * PE + port, in 1/256 ns. -/
  tsComp : Sparse (Int × Int) := []
  /-- TIME_SETs with AT_EDGE waiting for an edge. -/
  atEdge : List EdgeSet := []
  deriving DecidableEq, Repr

end Sys2Proof.Machine
end

