-- ==== Sys2Proof/Machine/Units/Warden.lean ====
section
/-!
DEFINITION. State of the package, the Warden, the booths, the event ring and the ledger that no register
holds (files 01 and 02 of spec/).
-/
namespace Sys2Proof.Machine

/-- The package: reset causes, host-link functions, rails (01 R18, R37; 03 R87). -/
structure Pkg where
  /-- The package reset is held (R18). -/
  held : Bool := true
  /-- Causes of the reset being held, in the bits of RST_CAUSE. -/
  causes : Nat := 1
  /-- WDN_APERTURE.BASE of PF0 and PF1 (R36). -/
  base0 : Nat := 0
  base1 : Nat := 0
  /-- PERST_N is high. -/
  perst : Bool := false
  /-- PERST_N is high, the package reset is released, and the endpoint answers configuration requests (R99). -/
  endpointUp : Bool := false
  /-- Bus Master Enable of PF0 and PF1. -/
  busMaster0 : Bool := false
  busMaster1 : Bool := false
  /-- Other configuration registers written by the host: (function * 4096 + offset) to value. -/
  pcieCfg : Sparse Word := []
  deriving DecidableEq, Repr

/-- Where a command in TAKEN stands between its take and its completion (02 R42, R46). -/
inductive Phase where
  /-- Checks 1 to 3 passed; not yet performed. -/
  | waiting
  /-- Its effect has begun and a later step of the unit ends it. -/
  | running
  /-- Its response is known; the booth has not entered DONE. -/
  | answered
  deriving DecidableEq, Repr

/-- One command in TAKEN: its request (R53) and, once known, its response (R54). -/
structure Taken where
  booth : Nat
  op : Nat
  seq : Nat
  flags : Nat
  args : List Word
  phase : Phase := .waiting
  status : Nat := 0
  state : Nat := 0
  detail : Nat := 0
  resp : List Word := []
  deriving DecidableEq, Repr

/-- One entry of the event ring (R63). -/
structure EvtEntry where
  code : Nat
  sev : Nat
  seq : Nat
  ns : Nat
  wraps : Nat
  tb : Nat
  valid : Bool
  src : Nat
  detail : List Word
  deriving DecidableEq, Repr

/-- Roles of a Warden pair (R41). -/
inductive PairRole where
  | active
  | standby
  /-- Fenced, being reset and self-tested. -/
  | fenced
  /-- Its self-test failed. -/
  | failed
  deriving DecidableEq, Repr

/-- A firmware slot (R66, R67): state code 0 EMPTY, 1 STAGED, 2 TRIAL, 3 BOOT, 4 INVALID. -/
structure Slot where
  state : Nat := 0
  version : Nat := 0
  level : Nat := 0
  format : Nat := 0
  length : Nat := 0
  /-- Its signature verified when it was written. -/
  sigOk : Bool := true
  deriving DecidableEq, Repr

/-- The one preparation of a counted setting (R73). -/
structure Preparation where
  booth : Nat
  index : Nat
  value : Nat
  token : Nat
  deriving DecidableEq, Repr

/-- An audit record (R76); its CRC is computed from the other fields. -/
structure AuditRecord where
  index : Nat
  kind : Nat
  setting : Nat
  booth : Nat
  result : Nat
  old : Nat
  new : Nat
  ns : Nat
  wraps : Nat
  tb : Nat
  valid : Bool
  steps : Nat
  fw : Nat
  deriving DecidableEq, Repr

/-- The Warden, the booths, the event ring and the ledger. -/
structure Warden where
  /-- Request areas: word `i` of booth `b` at key `b * 4096 + i`. -/
  req : Sparse Word := []
  /-- POSTED booths in the order in which their POSTs arrived (R48). -/
  posted : List Nat := []
  /-- Station that posted each booth's command. -/
  poster : Sparse Nat := []
  /-- Commands in TAKEN, in the order in which they were taken. -/
  taken : List Taken := []
  /-- Response areas of booths in DONE: header words and payload (R47). -/
  resp : Sparse (List Word) := []
  /-- Ring entry at index modulo 256. -/
  ring : Sparse (Option EvtEntry) := []
  evtSeq : Nat := 0
  /-- Events lost, and their groups, since the last SYS_EVENTS_LOST (R62). -/
  lostCount : Nat := 0
  lostGroups : Nat := 0
  /-- Events that arose during a takeover or a hand-over (R41, R68). -/
  heldEvents : List EvtEntry := []
  evtTb : Nat := 0
  evtMask : Nat := 0x1FFE
  evtMin : Nat := 0
  pair0 : PairRole := .active
  pair1 : PairRole := .standby
  /-- A takeover has begun and booth service has not resumed. -/
  takeover : Bool := false
  takeovers : Nat := 0
  slotA : Slot := { state := 3 }
  slotB : Slot := {}
  /-- Version and state format of the running firmware. -/
  runVersion : Nat := 0
  runFormat : Nat := 0
  /-- System state to which STAGING returns, and the slot being written. -/
  stageBack : Nat := 0x11
  stageSlot : Option Nat := none
  /-- Slot to which a hand-over goes, and whether it is a revert. -/
  handSlot : Option Nat := none
  handRevert : Bool := false
  /-- SYS_RESET has been answered; the package reset follows in 1 ms. -/
  resetDue : Bool := false
  /-- Values and used steps of counted settings 0-8 (R72). -/
  setVal : List Nat := [0, 0, 0x3FFFF, Config.factoryTrim 0, Config.factoryTrim 1, Config.factoryTrim 2,
    Config.factoryTrim 3, 0, 0]
  setUsed : List Nat := [0, 0, 0, 0, 0, 0, 0, 0, 0]
  /-- Burnt steps that have no audit record (R74). -/
  unrecorded : List Nat := []
  /-- The separate step of the first node-ID assignment is burnt. -/
  nodeFirst : Bool := false
  prep : Option Preparation := none
  /-- OTP slots of the key store: hash of the image-verification key of each epoch (13 R396); empty when not
  provisioned. -/
  keyHashes : Sparse (List Word) := []
  audit : List AuditRecord := []
  auditNext : Nat := 0
  auditWraps : Nat := 0
  /-- MSI-X vectors raised: function and vector, oldest first (outputs; R49, R61). -/
  msix : List (Nat × Nat) := []
  deriving DecidableEq, Repr

end Sys2Proof.Machine
end

