-- ==== Sys2Proof/Machine/State.lean ====
section
/-!
DEFINITION. The state of the device, the machine after reset, and the reasons a step can stop.
-/
namespace Sys2Proof.Machine

/-- Everything the spec gives the device, and the commands that wait. -/
structure State where
  /-- Memory-mapped registers by device address; an unlisted one reads as its reset value (01 R29-R31). -/
  regs : Sparse Word := []
  /-- Tile memories, by device address (01 R32). -/
  mem : Sparse Byte := []
  pkg : Pkg := {}
  ward : Warden := {}
  clk : Clk := {}
  cfg : Cfg := {}
  fab : Fabric := {}
  bough : Bough := {}
  links : Links := {}
  rmc : Rmc := {}
  dram : Dram := {}
  /-- Signal tiles by tile ID, dispatchers, translation units, porter channels by station ID (files 08-11). -/
  tiles : Sparse Tile := []
  dsp : Dsp := {}
  xlt : Xlt := {}
  porters : Sparse Porter := []
  /-- Channel last given a mover in the round robin, by die * 4 + PRIO (11 R344). -/
  moverLast : Sparse Nat := []
  lan : Lanes := {}
  tu : Tu := {}
  tal : Tally := {}
  pins : Pins := {}
  dbg : Debug := {}
  ras : Ras := {}
  /-- Requests and responses that stations have presented to the Bough and that have not arrived. -/
  net : List Packet := []
  /-- The model's own count of free values taken; no part of the device. -/
  fresh : Nat := 0
  /-- Commands waiting, first in first out. -/
  pending : List Instr := []
  deriving DecidableEq, Repr

/-- The machine as the package reset leaves it (03 R91), the reset still held until PACKAGE_RESET_RELEASE. -/
def State.reset : State := {}

/-- Reasons a command stops the machine. The spec lets every command go on, so that there is none. -/
inductive Fault
  deriving DecidableEq, Repr

/-- Reasons a command has no meaning. -/
inductive Refusal where
  /-- The command is not modelled; only Dispatch answers it. Safe: it ends a run and proves nothing. -/
  | notModelled (mnemonic : String)
  deriving DecidableEq, Repr

end Sys2Proof.Machine
end

