-- ==== Sys2Proof/Machine/Regs.lean ====
section
/-!
DEFINITION. Reading and writing the stored registers (00 R7, R9).
-/
namespace Sys2Proof.Machine

/-- The stored value of the register at a device address. -/
def rd (s : State) (a : Nat) : Word := sget (regReset a) s.regs a

/-- The register at a device address set to a value. -/
def wr (s : State) (a : Nat) (v : Word) : State := { s with regs := sset (regReset a) s.regs a v }

/-- Bits [hi:lo] of a register. -/
def rdF (s : State) (a hi lo : Nat) : Nat := fld (rd s a) hi lo

/-- Bits [hi:lo] of a register set. -/
def wrF (s : State) (a hi lo v : Nat) : State := wr s a (setFld (rd s a) hi lo v)

/-- Bit `i` of a register. -/
def rdB (s : State) (a i : Nat) : Bool := bit (rd s a) i

/-- Bit `i` of a register set to `b`. -/
def wrB (s : State) (a i : Nat) (b : Bool) : State := wr s a (setBit (rd s a) i b)

/-- A counter register one up, stopping at all ones (00 R9). -/
def cnt (s : State) (a : Nat) : State := wr s a (satInc (rd s a))

/-- A counter register raised by `k`. -/
def cntBy (s : State) (a k : Nat) : State := wr s a (satAdd (rd s a) k)

/-- Every register of a range of addresses back at its reset value. -/
def dropRegs (s : State) (lo hi : Nat) : State :=
  { s with regs := sdrop s.regs (fun a => decide (lo ≤ a ∧ a < hi)) }

/-- A register file in canonical form: addresses rising, no entry at its reset value. -/
def regsWf (m : Sparse Word) : Prop := (m.map (·.1)).Pairwise (· < ·) ∧ ∀ e ∈ m, e.2 ≠ regReset e.1

end Sys2Proof.Machine
end

