-- ==== Sys2Proof/Machine/Region.lean ====
section
/-!
DEFINITION. Regions of a grove's fabric: their states, the floorplan that gives each frame, pin, loop and stop its
owner, and the configuration words of the hard blocks (04 R107, R112-R115; 05 R144, R156).
-/
namespace Sys2Proof.Machine

/-- Configuration block of a grove (04 R126; 05 R170). -/
def cfgGrv (g : Nat) : Nat := groveWin g + 0xE0000
/-- CFG_CLR_STATE of clearing `r`, or CFG_STATIC_STATE for region 16. -/
def regionReg (g r : Nat) : Nat := if r = 16 then cfgGrv g + 0x40 else cfgGrv g + 4 * r
/-- The region's state code (R115). -/
def regionState (s : State) (g r : Nat) : Nat := rdF s (regionReg g r) 7 0
def setRegionState (g r st : Nat) (s : State) : State := wrF s (regionReg g r) 7 0 st
/-- The region is RELEASED, STAGING or STAGED: its design runs. -/
def regionRuns (s : State) (g r : Nat) : Bool :=
  0x43 ≤ regionState s g r && regionState s g r ≤ 0x45

/-- The floorplan entry of a clearing, in words; empty when the clearing is not declared. -/
def planOf (s : State) (g c : Nat) : List Word := sget [] s.cfg.plans (g * 17 + c)

/-- An index lies in one of the first `n` ranges that start at word `w` of an entry. -/
def inRanges (p : List Word) (w n i : Nat) : Bool :=
  (upto n).any (fun k => nfld (wordAt p (w + k)) 15 0 ≤ i && i ≤ nfld (wordAt p (w + k)) 31 16)

/-- Bit `i` of a mask that starts at word `w`. -/
def maskBit (p : List Word) (w i : Nat) : Bool := (wordAt p (w + i / 32)).testBit (i % 32)

/-- A floorplan entry owns frame `idx` of a type (R107, R112, R113). -/
def planOwns (p : List Word) (type idx : Nat) : Bool :=
  (wordAt p 0).testBit 0 &&
  match type with
  | 1 => inRanges p 6 (min 8 (nfld (wordAt p 0) 15 8)) idx
  | 2 => inRanges p 14 (min 4 (nfld (wordAt p 0) 23 16)) idx
  | 4 => if idx < 96 then maskBit p 2 idx else if 128 ≤ idx ∧ idx < 152 then (wordAt p 1).testBit (idx - 128) else false
  | _ => false

/-- The region that owns a frame: the declared clearing that holds it, else the static region. -/
def ownerOf (s : State) (g type idx : Nat) : Nat :=
  ((upto 16).find? (fun c => planOwns (planOf s g c) type idx)).getD 16

/-- The region in which the design port of stop index `k` lies (R112 STOP_MASK). -/
def stopOwner (s : State) (g k : Nat) : Nat :=
  ((upto 16).find? (fun c => (wordAt (planOf s g c) 0).testBit 0 && maskBit (planOf s g c) 18 k)).getD 16

/-- The frame type and index are those of R107. -/
def frameListed (type idx : Nat) : Bool :=
  match type with
  | 1 => idx < 12800
  | 2 => idx < 3840
  | 3 => idx < 10240
  | 4 => idx < 96 || (128 ≤ idx && idx < 152)
  | _ => false

/-- Key of a frame. -/
def frameKey (g type idx : Nat) : Nat := (g * 8 + type) * 65536 + idx
/-- A frame of the live plane. -/
def liveFrame (s : State) (g type idx : Nat) : List Word := sget [] s.fab.live (frameKey g type idx)

/-- LOGIC frame whose tail configures block RAM `b` (05 R144). -/
def bramFrame (b : Nat) : Nat := 20 * (b / 3) + b % 3
/-- Configuration word of block RAM `b`. -/
def bramCfg (s : State) (g b : Nat) : Nat := wordAt (liveFrame s g 1 (bramFrame b)) 992
/-- The region that owns block RAM `b`: its BRAM frames. -/
def bramOwner (s : State) (g b : Nat) : Nat := ownerOf s g 2 (2 * b)
/-- Port B serves the on-die memory window, and its region runs (05 R155). -/
def exported (s : State) (g b : Nat) : Bool := (bramCfg s g b).testBit 26 && regionRuns s g (bramOwner s g b)
/-- Configuration word of hard block `k` of R156. -/
def hardCfg (s : State) (g k : Nat) : Nat := wordAt (liveFrame s g 1 (20 * k + 3)) 992
/-- Hard block `k` is enabled and its region runs (05 R156, R162). -/
def hardOn (s : State) (g k : Nat) : Bool :=
  (hardCfg s g k).testBit 0 && regionRuns s g (ownerOf s g 1 (20 * k + 3))

/-- The region of a design station's stop runs (06 R203). -/
def designRuns (s : State) (station : Nat) : Bool :=
  regionRuns s (station / 256 - 8) (stopOwner s (station / 256 - 8) (station % 256))

end Sys2Proof.Machine
end

