-- ==== Sys2Proof/Machine/Addr.lean ====
section
/-!
DEFINITION. The device address map: which addresses exist, which station
serves each, and where a DRAM window's offset lies (01 R25-R36; 06 R172-R175; 12 R366).
-/
namespace Sys2Proof.Machine

/-! ### DRAM windows -/

/-- Base of the register block of DRAM channel `c`, 0-15 (01 R30). -/
def memBlk (c : Nat) : Nat := groveWin (c / 2) + 0xB0000 + (c % 2) * 0x10000

/-- Mapped capacity of each channel of grove `g`, from MEM_MAP (12 R389). -/
def cap0 (s : State) (g : Nat) : Nat :=
  let c := rdF s (memBlk (2 * g) + 8) 5 0; if c = 0 then 0 else 2 ^ c
def cap1 (s : State) (g : Nat) : Nat :=
  let c := rdF s (memBlk (2 * g) + 8) 13 8; if c = 0 then 0 else 2 ^ c

/-- Channel and channel address of offset `o` of a grove's DRAM window (12 R366). -/
def dramAt (s : State) (g o : Nat) : Option (Nat × Nat) :=
  let c0 := cap0 s g
  let c1 := cap1 s g
  if rdB s (memBlk (2 * g) + 8) 31 then
    if o < 2 * c0 then
      let b := (nfld o 8 8 + nfld o 17 17 + nfld o 26 26) % 2
      some (2 * g + b, nfld o 37 9 * 2 ^ 8 + nfld o 7 0)
    else none
  else if o < c0 then some (2 * g, o)
  else if o < c0 + c1 then some (2 * g + 1, o - c0)
  else none

/-- Grove and offset of an address in a DRAM window (01 R25). -/
def dramWin (a : Nat) : Option (Nat × Nat) :=
  if a < 0x020000000000 then some (a / 0x4000000000, a % 0x4000000000) else none

/-! ### Stations -/

/-- The station is a design station of a grove. -/
def isDesign (id : Nat) : Bool :=
  isGroveDie (id / 256) && decide (0x80 ≤ id % 256) && decide (id % 256 ≤ 0x9F)

/-- An offset of grove `g`'s on-die window that holds something (01 R32): a block RAM only when exported. -/
def onDieMapped (s : State) (g o : Nat) : Bool :=
  if o < 0x04000000 then true
  else if o < 0x08000000 then
    decide ((o - 0x04000000) / 0x2000 < 1920) && exported s g ((o - 0x04000000) / 0x2000)
  else decide (o < 0x0A100000)

/-- The address is mapped (01 R25, R26, R27, R32). -/
def mapped (s : State) (a : Nat) : Bool :=
  if a < 0x020000000000 then (dramAt s (a / 0x4000000000) (a % 0x4000000000)).isSome
  else if a < 0x020200000000 then
    let o := a - 0x020000000000
    onDieMapped s (o / 0x40000000) (o % 0x40000000)
  else if a < 0x030000000000 then false
  else if a < 0x03000B000000 then true
  else if a < 0x030010000000 then false
  else if a < 0x030018000000 then true
  else if a < 0x030020000000 then false
  else if a < 0x030024000000 then true
  else decide (0x038000000000 ≤ a ∧ a < 0x03A000000000)

/-- The station that a network interface decodes an address into (06 R175). -/
def stationOf (s : State) (a : Nat) : Nat :=
  if !mapped s a then 0x000
  else if a < 0x020000000000 then
    let g := a / 0x4000000000
    match dramAt s g (a % 0x4000000000) with
    | some (c, _) => (8 + g) * 256 + 1 + c % 2
    | none => 0x000
  else if a < 0x020200000000 then
    let g := (a - 0x020000000000) / 0x40000000
    let o := (a - 0x020000000000) % 0x40000000
    if o < 0x04000000 then (8 + g) * 256 + 0x30 + o / 0x20000 / 16
    else if 0x08000000 ≤ o ∧ o < 0x0A000000 then (8 + g) * 256 + 3
    else (8 + g) * 256
  else if a < 0x030010000000 then
    if 0x030001000000 ≤ a ∧ a < 0x030002000000 then 0x002
    else if 0x030003000000 ≤ a ∧ a < 0x030004000000 ∧ 0x100000 ≤ winOff a ∧ winOff a < 0x200000 then 0x003
    else 0x000
  else if a < 0x030024000000 then dieOfAddr a * 256
  else
    let o := a - 0x038000000000
    (8 + o / 2 ^ 34) * 256 + 0x80 + o / 2 ^ 29 % 32

/-- Host functions' reach of register windows through BAR0 (01 R35): PF1. -/
def pf1Reg (a : Nat) : Bool :=
  let w := (a - 0x030000000000) / 0x01000000
  let o := winOff a % 0x800000
  if a < 0x030000000000 then false
  else if a < 0x030010000000 then w = 1 || w = 4 || w = 6 || w = 9
  else if a < 0x030018000000 then
    (decide (0x50000 ≤ o) && decide (o < 0x90000)) || (decide (0x90000 ≤ o) && decide (o < 0xA0000))
      || (decide (0x200000 ≤ o) && decide (o < 0x400000))
  else false

/-- PF1's reach through the aperture (01 R36). -/
def pf1Aperture (a : Nat) : Bool :=
  decide (a < 0x020200000000) || decide (0x038000000000 ≤ a ∧ a < 0x03A000000000)

/-- An access of a function reaches the address by BAR0 or by the aperture. -/
def pfReaches (pf a : Nat) : Bool := pf = 0 || pf1Reg a || pf1Aperture a

end Sys2Proof.Machine
end

