-- ==== Sys2Proof/Machine/Commands.lean ====
section
/-!
DEFINITION. What the Warden knows of every booth command before it looks at the device: the known opcodes, the
classes of booths they are open to, the lengths they require, and which support DRY_RUN (02 R51, R53, R56, R59).
-/
namespace Sys2Proof.Machine

/-- Classes of booths (02 R50). -/
inductive BoothClass where
  | admin
  | user
  | design
  | service
  | debug
  deriving DecidableEq, Repr

/-- The class of booth `b`. -/
def classOf (b : Nat) : BoothClass :=
  if b < 16 then .admin else if b < 48 then .user else if b < 60 then .design else if b < 62 then .service else .debug

/-- Sources that booth `b` accepts writes from (02 R50, R52; 18 R533 for the owner of booth 62). -/
def boothWriter (s : State) (b : Nat) : Writer → Bool
  | .host pf => (b < 16 && pf = 0) || (16 ≤ b && b < 48 && pf = 1) || (b = 63 && pf = 0)
  | .station id => 48 ≤ b && b < 60 && isDesign id
  | .service => b = 60 || b = 61
  | .debug o => b = 62 && o ≠ 0 && rdF s dbgBase 9 8 = o
  | _ => false

/-- The last command byte of each group; MEM's two halves stand apart (02 R59). -/
def knownOp (op : Nat) : Bool :=
  let c := op % 256
  c ≠ 0 &&
  match op / 256 with
  | 1 => c ≤ 9
  | 2 => c ≤ 6
  | 3 => c ≤ 7
  | 4 => c ≤ 8
  | 5 => c ≤ 0x10
  | 6 => c ≤ 9
  | 7 => c ≤ 7 || (0x81 ≤ c && c ≤ 0x85)
  | 8 => c ≤ 6
  | 9 => c ≤ 6
  | 0xA => c ≤ 0xB
  | 0xB => c ≤ 7
  | 0xC => c ≤ 0xF
  | _ => false

/-- The command is open to a class, with the owning chapters' closings that hold whatever the payload
(02 R51; 04 R127; 06 R204; 14 R458; 15 R488; 16 R513). -/
def classOpen (cls : BoothClass) (op : Nat) : Bool :=
  match cls, op / 256 with
  | .admin, g => g ≠ 0xA
  | .user, 1 => op = 0x0101
  | .user, 4 => op ≠ 0x0405 && op ≠ 0x0406
  | .user, 5 => op = 0x0501 || op = 0x0503 || op = 0x0509 || op = 0x050B || op = 0x050C
  | .user, 6 => op = 0x0601 || op = 0x0604 || op = 0x0609
  | .user, 0xB => true
  | .user, 0xC => op = 0x0C01 || (0x0C09 ≤ op && op ≤ 0x0C0D) || op = 0x0C0F
  | .user, _ => false
  | .design, 1 => op = 0x0101
  | .design, 3 => op ≠ 0x0302
  | .design, 4 => true
  | .design, 0xB => true
  | .design, _ => false
  | .service, 1 => op = 0x0101 || op = 0x0108
  | .service, 2 => true
  | .service, 6 => true
  | .service, 9 => op = 0x0901 || op = 0x0905 || op = 0x0906
  | .service, _ => false
  | .debug, 1 => op = 0x0101
  | .debug, 8 => true
  | .debug, 9 => op = 0x0901 || op = 0x0905 || op = 0x0906
  | .debug, 0xA => true
  | .debug, _ => false

/-- Commands whose owning chapter marks them as supporting DRY_RUN (02 R53). -/
def dryOps : List Nat :=
  [0x0202, 0x0203, 0x0302, 0x0303, 0x0402, 0x0502, 0x0504, 0x0508, 0x050E, 0x0602, 0x0702, 0x0782, 0x0804,
   0x0B02, 0x0C07]

/-- A number of bytes padded to whole words. -/
def pad4 (n : Nat) : Nat := (n + 3) / 4 * 4

/-- The payload length in bytes that a command requires, some lengths being given by its payload. -/
def lenOf (op : Nat) (a : List Word) : Nat :=
  match op with
  | 0x0101 => 0 | 0x0102 => 12 | 0x0103 => 20 | 0x0104 => 4 | 0x0105 => 4 | 0x0106 => 0 | 0x0107 => 0
  | 0x0108 => 4 | 0x0109 => 4
  | 0x0201 => 0 | 0x0202 => 12 | 0x0203 => 12 | 0x0204 => 12 | 0x0205 => 8 | 0x0206 => 8
  | 0x0301 => 4 | 0x0302 => 644 | 0x0303 => 20 | 0x0304 => 16 | 0x0305 => 16 | 0x0306 => 16 | 0x0307 => 4
  | 0x0401 => 0 | 0x0402 => 48 | 0x0403 => 4 | 0x0404 => 4 | 0x0405 => 12
  | 0x0406 => 8 + 4 * nfld (wordAt a 1) 27 16 | 0x0407 => 8 | 0x0408 => 4
  | 0x0501 => 4 | 0x0502 => 24 | 0x0503 => 12 | 0x0504 => 28 | 0x0505 => 4 | 0x0506 => 4 | 0x0507 => 4
  | 0x0508 => 20 | 0x0509 => 4 | 0x050A => 108 | 0x050B => 4 | 0x050C => 36 | 0x050D => 40 | 0x050E => 100
  | 0x050F => 12 | 0x0510 => 12
  | 0x0601 => 0 | 0x0602 => 72 + 8 * nfld (wordAt a 17) 7 0 | 0x0603 => 32 | 0x0604 => 20 | 0x0605 => 104
  | 0x0606 => 16 | 0x0607 => 12 | 0x0608 => 32 | 0x0609 => 4
  | 0x0701 => 4 | 0x0702 => 528 | 0x0703 => 8 | 0x0704 => 32 | 0x0705 => 12 | 0x0706 => 8 | 0x0707 => 4
  | 0x0781 => 4 | 0x0782 => if (wordAt a 0).testBit 9 then 88 else 16 | 0x0783 => 4 | 0x0784 => 12 | 0x0785 => 52
  | 0x0801 => 0 | 0x0802 => 0 | 0x0803 => 0 | 0x0804 => 16 | 0x0805 => 4 | 0x0806 => 4
  | 0x0901 => 0 | 0x0902 => 8 | 0x0903 => 12 | 0x0904 => 0 | 0x0905 => 0 | 0x0906 => 8
  | 0x0A01 => 0 | 0x0A02 => 4 | 0x0A03 => 96 | 0x0A04 => 0 | 0x0A05 => 16 | 0x0A06 => 12 + wordAt a 2
  | 0x0A07 => 8 | 0x0A08 => 12 | 0x0A09 => 8 | 0x0A0A => 8 | 0x0A0B => 4
  | 0x0B01 => 0 | 0x0B02 => 4 + 8 * nfld (wordAt a 0) 6 0 | 0x0B03 => 4
  | 0x0B04 => 12 + pad4 (nfld (wordAt a 2) 8 0) | 0x0B05 => 12 + pad4 (nfld (wordAt a 2) 10 0)
  | 0x0B06 => 8 | 0x0B07 => 8 + pad4 (nfld (wordAt a 1) 10 0)
  | 0x0C01 => 4 | 0x0C02 => 8 | 0x0C03 => 12 | 0x0C04 => 4 | 0x0C05 => 12 | 0x0C06 => 8 | 0x0C07 => 16
  | 0x0C08 => 16 | 0x0C09 => 36 | 0x0C0A => 20 | 0x0C0B => 20 | 0x0C0C => 24
  | 0x0C0D => 24 + 4 * nfld (wordAt a 5) 8 0 | 0x0C0E => 8 | 0x0C0F => 4
  | _ => 0

/-- The commands served in SAFE (02 R71). -/
def safeOps : List Nat := [0x0101, 0x0103, 0x0105, 0x0108, 0x0109, 0x0901, 0x0905, 0x0906]

end Sys2Proof.Machine
end

