-- ==== Sys2Proof/Machine/Ops.lean ====
section
/-!
DEFINITION. The shared operations of every family: time readings, events and the event ring, free values, posted
writes of a unit, and serving a command in TAKEN (02 R46-R64).
-/
namespace Sys2Proof.Machine

/-! ### Status codes (02 R55) -/

def stOk : Nat := 0x00
def stBadOpcode : Nat := 0x01
def stBadArg : Nat := 0x02
def stWrongState : Nat := 0x03
def stRefused : Nat := 0x04
def stNoEnergy : Nat := 0x05
def stNoRoute : Nat := 0x06
def stBusy : Nat := 0x07
def stDenied : Nat := 0x08
def stFailed : Nat := 0x09
def stTimeout : Nat := 0x0A
def stExhausted : Nat := 0x0B
def stNotReady : Nat := 0x0C
def stPoison : Nat := 0x0D
def stAbsent : Nat := 0x0E

/-! ### Time readings (15 R461, R464) -/

/-- The 40-bit WRAPS:NS reading of a count. -/
def TbCore.now40 (c : TbCore) : Nat := c.cnt / 2 ^ 40 % 2 ^ 40
def TbCore.ns (c : TbCore) : Nat := c.cnt / 2 ^ 40 % 2 ^ 32
def TbCore.wraps (c : TbCore) : Nat := c.cnt / 2 ^ 72 % 256
def TbCore.frac (c : TbCore) : Nat := c.cnt / 2 ^ 8 % 2 ^ 32
/-- SUBNS is FRAC[31:24]. -/
def TbCore.sub (c : TbCore) : Nat := c.cnt / 2 ^ 32 % 256
/-- The PTP time of a reading in nanoseconds (R464). -/
def TbCore.ptp (c : TbCore) : Nat := c.origin + c.now40

/-- Time base `n` of the hub. -/
def tbAt (s : State) (n : Nat) : TimeBase := sget {} s.tu.tbs n
def setTb (s : State) (n : Nat) (t : TimeBase) : State := { s with tu := { s.tu with tbs := sset {} s.tu.tbs n t } }
/-- The state that a time base reaches once the changes sent have been applied: what a TIME command checks. -/
def heldState (s : State) (tb : Nat) : Nat :=
  s.tu.changes.foldl (fun st e =>
    if e.die ≠ 0 ∨ e.tb ≠ tb then st
    else match e.change with
      | .load _ _ _ => if st = 0xC6 then st else 0xC1
      | .stop => 0xC0
      | .host _ => 0xC6
      | _ => st) (tbAt s tb).state

/-- NS, WRAPS and TIME_VALID of time base `n`; zeros while it is not running. -/
def stamp (s : State) (n : Nat) : Nat × Nat × Bool :=
  let c := (tbAt s n).core
  if c.run then (c.ns, c.wraps, true) else (0, 0, false)
/-- The replica of time base `n` on a die; the hub's own count for die 0 (R469). -/
def replicaTb (s : State) (die n : Nat) : TbCore :=
  if die = 0 then (tbAt s n).core else sget {} (sget {} s.tu.replicas die).cores n

/-! ### Free values: the count advances with each one taken -/

/-- The state after one free value has been taken. -/
def tick1 (s : State) : State := { s with fresh := s.fresh + 1 }

/-! ### Warden status and states -/

def wardStatus : Nat := boothWin + 0x400000
/-- The Warden system state code (02 R65). -/
def sysState (s : State) : Nat := rdF s wardStatus 15 8
def setSysState (s : State) (c : Nat) : State := wrF s wardStatus 15 8 c
/-- DOWN: no pair can be active (02 R44). -/
def wardenDown (s : State) : Bool := rdB s wardStatus 31
/-- States in which every command of a served group is legal: RUN, STAGING, TRIAL and, for the set of R71, SAFE. -/
def allServed : List Nat := [0x11, 0x12, 0x14, 0x15]
def runTrial : List Nat := [0x11, 0x14]
/-- The die state code of a grove or lane die, 0 for the hub and unused IDs (03 R94, R97). -/
def dieState (s : State) (d : Nat) : Nat :=
  if isLaneDie d then rdF s (clkBlk d) 23 16 else if isGroveDie d then rdF s (clkBlk d + 0x18) 7 0 else 0
/-- The die is clocked and linked: RUN, SLEEP, DEEP or REJOIN; the hub always. -/
def dieAlive (s : State) (d : Nat) : Bool :=
  d = 0 || [0x30, 0x31, 0x32, 0x34].contains (dieState s d)

/-- The block's gate bit is cleared in its die's CLK_GATE_EN (R88). -/
def gated (s : State) (die blk : Nat) : Bool := !rdB s (clkBlk die + 0x10) blk
/-- The block is under reset or gated: it discards writes (R88, R89). -/
def shut (s : State) (die blk : Nat) : Bool := rdB s (clkBlk die + 0x108) blk || gated s die blk
/-- A write to a block's register: discarded while the block is shut, counted in CLK_GATED_HITS while it is gated
(R88, R89); no write reaches a die that is not alive. -/
def atBlock (die blk : Nat) (f : State → State) (s : State) : State :=
  if s.pkg.held ∨ !dieAlive s die ∨ rdB s (clkBlk die + 0x108) blk then s
  else if gated s die blk then cnt s (clkBlk die + 0x14) else f s

/-! ### The event ring (02 R61-R64) -/

def evtProd : Nat := boothWin + 0x3F0000
def evtCons : Nat := boothWin + 0x3F0004
def evtIrq : Nat := boothWin + 0x3F0008
def evtLost : Nat := boothWin + 0x3F000C
def evtLostGroups : Nat := boothWin + 0x3F0010

/-- Entries in the ring: PROD - CONS modulo 65,536. -/
def ringCount (s : State) : Nat := (rdF s evtProd 15 0 + 65536 - rdF s evtCons 15 0) % 65536

/-- A vector raised to the host (02 R49, R61). -/
def raiseMsix (pf vec : Nat) (s : State) : State := { s with ward := { s.ward with msix := s.ward.msix ++ [(pf, vec)] } }

/-- One entry written at PROD; PENDING set, and vector 16 of PF0 raised when it rises with IE = 1. -/
def ringPut (e : EvtEntry) (s : State) : State :=
  let p := rdF s evtProd 15 0
  let rise := !rdB s evtIrq 0 && rdB s evtIrq 1
  let s1 := { s with ward := { s.ward with ring := sset none s.ward.ring (p % 256) (some e) } }
  let s2 := wrB (wrF s1 evtProd 15 0 (p + 1)) evtIrq 0 true
  if rise then raiseMsix 0 16 s2 else s2

/-- The next event sequence number taken; it wraps (R62, R63). -/
def nextSeq (s : State) : State := { s with ward := { s.ward with evtSeq := (s.ward.evtSeq + 1) % 2 ^ 32 } }

/-- SYS_EVENTS_LOST written when events were lost and an entry is free (R62). -/
def putLost (s : State) : State :=
  if s.ward.lostCount = 0 ∨ 256 ≤ ringCount s then s
  else
    let t := stamp s s.ward.evtTb
    let e : EvtEntry :=
      { code := 0x0101, sev := 2, seq := s.ward.evtSeq, ns := t.1, wraps := t.2.1, tb := s.ward.evtTb,
        valid := t.2.2, src := 0, detail := [word s.ward.lostCount, word s.ward.lostGroups, 0, 0] }
    let s1 := ringPut e (nextSeq s)
    { s1 with ward := { s1.ward with lostCount := 0, lostGroups := 0 } }

/-- A generated event put on the ring, or counted as lost when the ring is full (R62). -/
def queueEvent (e : EvtEntry) (s : State) : State :=
  let s0 := putLost s
  let e' := { e with seq := s0.ward.evtSeq }
  let s1 := nextSeq s0
  if ringCount s0 < 256 then ringPut e' s1
  else
    let g := 2 ^ (e.code / 256)
    let s2 := wr (cnt s1 evtLost) evtLostGroups (rd s1 evtLostGroups ||| word g)
    { s2 with ward := { s2.ward with lostCount := s2.ward.lostCount + 1, lostGroups := s2.ward.lostGroups ||| g } }

/-- The event is generated: critical, or at or above the threshold with its group's mask bit set (R64). -/
def generated (s : State) (code sev : Nat) : Bool :=
  sev = 3 || (decide (s.ward.evtMin ≤ sev) && s.ward.evtMask.testBit (code / 256))

/-- An event raised, with its detail words. During a takeover or a hand-over it is queued (R41, R68). -/
def raise (code sev src : Nat) (detail : List Word) (s : State) : State :=
  if !generated s code sev then s
  else
    let t := stamp s s.ward.evtTb
    let e : EvtEntry :=
      { code := code, sev := sev, seq := 0, ns := t.1, wraps := t.2.1, tb := s.ward.evtTb,
        valid := t.2.2, src := src, detail := (detail ++ [0, 0, 0, 0]).take 4 }
    if s.ward.takeover || sysState s = 0x13 then
      { s with ward := { s.ward with heldEvents := s.ward.heldEvents ++ [e] } }
    else queueEvent e s

/-- The events held during a takeover or a hand-over placed on the ring in the order in which they arose. -/
def placeHeld (s : State) : State :=
  (s.ward.heldEvents).foldl (fun t e => queueEvent e t) { s with ward := { s.ward with heldEvents := [] } }

/-- ATTN_N is low while the ring holds entries, or while the Warden is down (02 R44, R61). -/
def attnLow (s : State) : Bool := ringCount s ≠ 0 || wardenDown s

/-! ### Traffic of a unit -/

/-- A posted write (WRP) on VC2 with PROV = 0 presented by a station (02 R49). -/
def postWrite (src addr : Nat) (data : List Byte) (s : State) : State :=
  { s with net := s.net ++ [{ op := 3, vc := 2, dst := stationOf s addr, src := src, addr := addr,
                              len := data.length, data := data }] }

/-- A command sets targets of the Tally's rungs: they keep its setting, so that their rungs no longer undo them (16
R503). -/
def keepSetting (p : RungAct → Bool) (s : State) : State :=
  { s with tal := { s.tal with rungs := smapAll [] s.tal.rungs (fun _ l => l.filter (fun a => !p a)) } }

/-! ### Booths and commands in TAKEN (02 R45-R60) -/

/-- STATE of booth `b`: 0 IDLE, 1 POSTED, 2 TAKEN, 3 DONE. -/
def boothState (s : State) (b : Nat) : Nat := rdF s (boothSlot b) 1 0
def setBoothState (s : State) (b v : Nat) : State := wrF s (boothSlot b) 1 0 v

/-- The request of a command in TAKEN. -/
structure Req where
  booth : Nat
  flags : Nat
  args : List Word

/-- The payload word at byte offset `off`. -/
def Req.w (r : Req) (off : Nat) : Nat := wordAt r.args (off / 4)
/-- Bits [hi:lo] of the payload word at byte offset `off`. -/
def Req.f (r : Req) (off hi lo : Nat) : Nat := nfld (r.w off) hi lo
/-- The 64-bit payload value at byte offset `off`. -/
def Req.w64 (r : Req) (off : Nat) : Nat := word64At r.args (off / 4)
/-- The signed 32-bit payload value at byte offset `off`. -/
def Req.i (r : Req) (off : Nat) : Int := sint 32 (r.w off)

/-- A payload word has a bit outside those the command lists. -/
def junk (r : Req) (off m : Nat) : Bool := r.w off &&& m ≠ r.w off

/-- What performing a command answers. -/
inductive Reply where
  /-- OK with a payload; the effect is in the state. -/
  | ok (payload : List Word) (s : State)
  /-- Another status and detail: the command has no effect (02 R58). -/
  | no (status detail : Nat)
  /-- Another status whose rule gives the answer an effect of its own. -/
  | fail (status detail : Nat) (payload : List Word) (s : State)
  /-- The effect has begun; a later step answers. -/
  | run (s : State)

/-- BAD_ARG with the byte offset of the first invalid field (02 R56). -/
def badArg (off : Nat) : Reply := .no stBadArg off
def refused (detail : Nat) : Reply := .no stRefused detail

/-- The oldest command in TAKEN that has not been performed: effects are ordered as taken (02 R60). While the
Warden is halted only booth 62 is served (18 R553). -/
def nextWaiting (s : State) : Option Taken :=
  s.ward.taken.find? (fun t => t.phase = .waiting && (!s.dbg.wardenHalted || t.booth = 62))

/-- The entry of booth `b` in TAKEN changed. -/
def modTaken (b : Nat) (g : Taken → Taken) (s : State) : State :=
  { s with ward := { s.ward with taken := s.ward.taken.map (fun t => if t.booth = b then g t else t) } }

/-- The response of booth `b`'s command fixed. -/
def answer (b status state detail : Nat) (payload : List Word) (s : State) : State :=
  modTaken b (fun t => { t with phase := .answered, status := status, state := state, detail := detail,
                                resp := payload }) s

/-- A command in TAKEN performed: checks 4 to 6 of R56 and the effect. `code` is the state machine the command
checks, none where it names no object; `legal` its legal states. With DRY_RUN the answer is given and nothing else
changes (R53, R58). A takeover in progress, or a Warden that is down, performs nothing. -/
def serveWith (code : Nat → Req → State → Option Nat) (op : Nat) (legal : List Nat) (f : Req → State → Reply)
    (b : Nat) (s : State) : State :=
  match nextWaiting s with
  | none => s
  | some t =>
    if t.booth ≠ b ∨ t.op ≠ op ∨ s.ward.takeover ∨ wardenDown s then s
    else
      let r : Req := { booth := b, flags := t.flags, args := t.args }
      let dry := t.flags.testBit 1
      let c (x : State) : Nat := (code op r x).getD (sysState x)
      if sysState s = 0x15 ∧ !safeOps.contains op then answer b stWrongState 0x15 0 [] s
      else if (match code op r s with | some k => !legal.contains k | none => false) then
        answer b stWrongState (c s) 0 [] s
      else match f r s with
        | .ok p s' => if dry then answer b stOk (c s) 0 p s else answer b stOk (c s') 0 p s'
        | .no st d => answer b st (c s) d [] s
        | .fail st d p s' => if dry then answer b st (c s) d p s else answer b st (c s') d p s'
        | .run s' => if dry then answer b stOk (c s) 0 [] s
                     else modTaken b (fun t => { t with phase := .running }) s'

/-- The booth whose command of an opcode is running. -/
def running (s : State) (op : Nat) : Option Taken :=
  s.ward.taken.find? (fun t => t.phase = .running && t.op = op)

/-- The running command of an opcode answered; nothing when there is none. -/
def finish (op status state detail : Nat) (payload : List Word) (s : State) : State :=
  match running s op with
  | some t => answer t.booth status state detail payload s
  | none => s

/-- Another command of one of the opcodes is running (02 R60). -/
def busyWith (s : State) (ops : List Nat) : Bool :=
  s.ward.taken.any (fun t => t.phase = .running && ops.contains t.op)

/-! ### The audit store (02 R74-R76) -/

/-- The oldest record not of kind 0x01 dropped. -/
def dropOldest : List AuditRecord → List AuditRecord
  | [] => []
  | r :: rs => if r.kind = 1 then r :: dropOldest rs else rs

/-- A record appended; with 1,024 held the oldest not of kind 0x01 is overwritten and SET_AUDIT_WRAPPED raised. -/
def audit (kind setting booth result old new steps : Nat) (s : State) : State :=
  let w := s.ward
  let t := stamp s w.evtTb
  let r : AuditRecord :=
    { index := w.auditNext % 2 ^ 32, kind := kind, setting := setting, booth := booth, result := result,
      old := old % 2 ^ 32, new := new % 2 ^ 32, ns := t.1, wraps := t.2.1, tb := w.evtTb,
      valid := t.2.2, steps := steps, fw := w.runVersion }
  let full := decide (1024 ≤ w.audit.length)
  let kept := if full then dropOldest w.audit else w.audit
  let s1 := { s with ward := { w with audit := kept ++ [r], auditNext := w.auditNext + 1,
                                      auditWraps := if full then w.auditWraps + 1 else w.auditWraps } }
  if full then raise 0x0903 1 0 [word (w.auditWraps + 1)] s1 else s1

/-- The first seven words of a record (02 R76). -/
def AuditRecord.words (r : AuditRecord) : List Word :=
  [ word r.index, word (r.kind + r.setting * 2 ^ 8 + r.booth * 2 ^ 16 + r.result * 2 ^ 24), word r.old, word r.new,
    word r.ns, word (r.wraps + r.tb * 2 ^ 8 + b2n r.valid * 2 ^ 11 + r.steps * 2 ^ 16), word r.fw ]

/-- A record with its CRC, eight words. -/
def AuditRecord.full (r : AuditRecord) : List Word := r.words ++ [word (crc32 (wordsToBytes r.words))]

/-- Value and used steps of counted setting `i` (02 R72). -/
def setVal (s : State) (i : Nat) : Nat := s.ward.setVal.getD i 0
def setUsed (s : State) (i : Nat) : Nat := s.ward.setUsed.getD i 0
/-- The node ID (counted setting 2). -/
def nodeId (s : State) : Nat := setVal s 2

/-- The verification-key hash of the current epoch is provisioned. -/
def keyKnown (s : State) : Bool := sget [] s.ward.keyHashes (setVal s 1) ≠ []

end Sys2Proof.Machine
end

