-- ==== Sys2Proof/Machine/Serve.lean ====
section
/-!
DEFINITION. The state machine each booth command checks (02 R57), and serving a command against it.
-/
namespace Sys2Proof.Machine

/-- The code of the preparation machine: SET_IDLE or SET_PREPARED (02, SET command group). -/
def setState (s : State) : Nat := if s.ward.prep.isSome then 0x21 else 0x20
/-- The debug authority's code (18 R534). -/
def dbgAuth (s : State) : Nat := rdF s dbgBase 23 16
/-- The injection machine's code (19 R571). -/
def rasState (s : State) : Nat := if s.ras.on then 0xE1 else 0xE0
/-- A die's state as the CLK commands check it; the hub is always in RUN. -/
def clkCheck (s : State) (d : Nat) : Option Nat :=
  if d = 0 then some 0x30 else if isDie d then some (dieState s d) else none

/-- The region that a CFG payload names: grove and region, 16 for the static one (04 R127). -/
def cfgTarget (r : Req) : Nat × Nat := (r.f 0 6 4, if (r.w 0).testBit 7 then 16 else r.f 0 3 0)

/-- Lanes a LANE payload names: none when they do not lie within one lane die (14 R457). -/
def reqLanes (r : Req) : Option (List Nat) :=
  let n := r.f 0 8 0
  let k := r.f 0 24 16
  if k = 0 ∨ 128 < n % 128 + k then none else some ((upto k).map (fun i => n + i))

/-- What a LANE command checks (14 R457): its lanes in order, with the first illegal one reported; its port; else the
state of its lane die. -/
def laneCode (op : Nat) (r : Req) (s : State) : Option Nat :=
  let st (n : Nat) : Nat := rdF s (lanBlk n + 0xC) 23 16
  if op = 0x0C01 ∨ op = 0x0C0F then some (sysState s)
  else if op = 0x0C06 then some (st (r.f 0 8 0))
  else if 0x0C03 ≤ op ∧ op ≤ 0x0C05 then
    let legal := if op = 0x0C03 then [0xB0, 0xB1, 0xB2] else if op = 0x0C04 then [0xB1, 0xB2] else [0xB0, 0xB2]
    match reqLanes r with
    | some (n :: l) => some (((n :: l).find? (fun m => !legal.contains (st m))).elim (st n) st)
    | _ => none
  else if op = 0x0C07 then some (0xB8 + rdF s (penBlk (r.f 0 5 0) + 4 * r.f 0 10 8) 15 14)
  else if op = 0x0C08 ∨ op = 0x0C0D then some (dieState s (1 + r.f 0 5 4))
  else some (dieState s (1 + r.f 0 1 0))

/-- Channels that a range of a grove's window touches (12 R366, R390). -/
def rangeChannels (s : State) (g lo hi : Nat) : List Nat :=
  let c0 := cap0 s g
  let c1 := cap1 s g
  if rdB s (memBlk (2 * g) + 8) 31 then
    (if lo < 2 * c0 ∧ lo < hi then (if hi ≤ lo / 256 * 256 + 256 then ((dramAt s g lo).map (·.1)).toList else [2 * g, 2 * g + 1]) else [])
  else (if lo < hi ∧ lo < c0 then [2 * g] else []) ++ (if lo < hi ∧ c0 < hi ∧ lo < c0 + c1 then [2 * g + 1] else [])
/-- Start and end offsets of MEM_FILL's range in the window of the grove it names. -/
def fillRange (r : Req) : Nat × Nat :=
  let o := (word64At r.args 2 % 2 ^ 48) % 0x4000000000
  (o, o + word64At r.args 4 % 2 ^ 39)
/-- State code of a channel (12 R363). -/
def memState (s : State) (c : Nat) : Nat := rdF s (memBlk c) 7 0
/-- What a MEM command checks (12 R390; 13 R416): its channel, its region, or the system state. MEM_FILL reports the
first channel of its range that is not READY. -/
def memCode (op : Nat) (r : Req) (s : State) : Option Nat :=
  if op = 0x0781 ∨ op = 0x0785 then some (sysState s)
  else if 0x0782 ≤ op ∧ op ≤ 0x0784 then
    some (rdF s (groveWin (r.f 0 2 0) + 0xD010C + 0x10 * r.f 0 6 4) 7 0)
  else if op = 0x0704 then
    let g := r.f 0 2 0
    let l := rangeChannels s g (fillRange r).1 (fillRange r).2
    some (((l.find? (fun c => memState s c ≠ 0x93)).map (memState s)).getD (memState s (l.headD (2 * g))))
  else if op = 0x0702 then (if r.f 0 7 0 < 16 then some (memState s (r.f 0 3 0)) else none)
  else if r.w 0 < 16 then some (memState s (r.f 0 3 0))
  else none

/-- The state machine that command `op` checks; none where its payload names no object of one. -/
def codeOf (op : Nat) (r : Req) (s : State) : Option Nat :=
  match op / 256 with
  | 2 =>
    if op = 0x0202 then
      let d := r.f 0 2 0
      if 2 ≤ d ∧ d ≤ 5 then some (dieState s (d - 1)) else some (sysState s)
    else if op = 0x0203 then some (dieState s (8 + r.f 0 2 0))
    else if op = 0x0204 then clkCheck s (r.f 0 3 0)
    else if op = 0x0205 ∨ op = 0x0206 then (if r.f 0 3 0 = 0 then none else clkCheck s (r.f 0 3 0))
    else some (sysState s)
  | 3 =>
    if op = 0x0301 ∨ op = 0x0302 then some (sysState s) else some (regionState s (cfgTarget r).1 (cfgTarget r).2)
  | 4 =>
    if op = 0x0403 ∨ op = 0x0404 then
      some (match (sget {} s.bough.contracts (r.f 0 11 0)).state with
        | .free => 0x50
        | .opened => 0x51
        | .broken => 0x52)
    else if op = 0x0405 ∨ op = 0x0406 then clkCheck s (r.f 0 11 8)
    else some (sysState s)
  | 5 =>
    if op = 0x0508 then some (heldState s (r.f 0 18 16))
    else if op = 0x0502 ∨ (0x0503 ≤ op ∧ op ≤ 0x0507) ∨ op = 0x050D ∨ op = 0x050E then
      some (heldState s (r.f 0 2 0))
    else some (sysState s)
  | 7 => memCode op r s
  | 8 => some (rasState s)
  | 9 => some (setState s)
  | 0xA => some (dbgAuth s)
  | 0xC => laneCode op r s
  | _ => some (sysState s)

/-- A command in TAKEN performed against the state machine it checks. -/
def serve (op : Nat) (legal : List Nat) (f : Req → State → Reply) (b : Nat) (s : State) : State :=
  serveWith codeOf op legal f b s

end Sys2Proof.Machine
end

