-- ==== Sys2Proof/Machine/Inject.lean ====
section
/-!
DEFINITION. Fault injection as an operation of the detectors' eligible operations, and the findings of the
detectors (19 R560-R566).
-/
namespace Sys2Proof.Machine

/-- TICK counts CK_TIME cycles of 2 ns: cycles of one millisecond. -/
def tickMs : Nat := 500000

/-- Key of an injection point. -/
def ptKey (d n : Nat) : Nat := d * 256 + n

/-- The point is armed in a mode that injects. -/
def injArmed (s : State) (d n : Nat) : Bool :=
  rdB s (injPt d n) 31 && 1 ≤ rdF s (injPt d n) 27 24 && rdF s (injPt d n) 27 24 ≤ 4
def injTarget (s : State) (d n : Nat) : Nat := (rd s (injPt d n + 4)).toNat
def injPattern (s : State) (d n : Nat) : Nat := (rd s (injPt d n + 8)).toNat

/-- INJECTION_DONE: at the end of SINGLE or BURST, ARM clears and DONE sets (R563). -/
def injDone (d n : Nat) (s : State) : State :=
  raise 0x0802 0 0 [word (d + n * 2 ^ 8), word (rdF s (injPt d n + 12) 15 0), 0]
    (wrB (wrB s (injPt d n) 31 false) (injPt d n + 12) 31 true)

/-- One eligible operation of a point whose target it meets: is it injected, and the point's account of it (R563).
-/
def inject (d n : Nat) (s : State) : Bool × State :=
  if !injArmed s d n then (false, s)
  else
    let m := rdF s (injPt d n) 27 24
    let k := rdF s (injPt d n) 15 0
    let since := sget 0 s.ras.since (ptKey d n) + 1
    let s0 := { s with ras := { s.ras with since := sset 0 s.ras.since (ptKey d n) since } }
    if m = 3 ∧ (k = 0 ∨ since % k ≠ 0) then (false, s0)
    else
      let made := min 65535 (rdF s (injPt d n + 12) 15 0 + 1)
      let s1 := wrF s0 (injPt d n + 12) 15 0 made
      if m = 1 ∨ (m = 2 ∧ k ≤ made) then (true, injDone d n s1) else (true, s1)

/-- Entries of INJ_WHERE in use. -/
def whereUsed (s : State) (d n : Nat) : List Nat := sget [] s.ras.whereUsed (ptKey d n)
def setWhereUsed (d n : Nat) (l : List Nat) (s : State) : State :=
  wrF { s with ras := { s.ras with whereUsed := sset [] s.ras.whereUsed (ptKey d n) l } }
    (injPt d n + 12) 17 16 l.length

/-- An injection into storage enters its location; with no entry free the oldest is replaced (R565). -/
def whereAdd (d n loc : Nat) (s : State) : State :=
  let u := whereUsed s d n
  let k := ((upto 3).find? (fun i => !u.contains i)).getD (u.headD 0)
  setWhereUsed d n (u.filter (· ≠ k) ++ [k]) (wr s (injPt d n + 20 + 4 * k) (word loc))

/-- The entry that holds a location. -/
def whereOf (s : State) (d n loc : Nat) : Option Nat :=
  (whereUsed s d n).find? (fun k => rd s (injPt d n + 20 + 4 * k) = word loc)

/-- A write that replaces the stored datum whole frees its entry (R565). -/
def whereFree (d n loc : Nat) (s : State) : State :=
  match whereOf s d n loc with
  | some k => setWhereUsed d n ((whereUsed s d n).filter (· ≠ k)) s
  | none => s

/-- A finding of what a point injected: INJ_SEEN, and RAS_INJ_SEEN at most once per millisecond (R565, R573). -/
def injSeen (d n loc : Nat) (s : State) : State :=
  let s1 := cnt s (injPt d n + 16)
  let since := sget 0 s1.ras.seenSince (ptKey d n) + 1
  let soon := match sget none s1.ras.seenLast (ptKey d n) with
    | some t => decide (s1.tu.tick < t + tickMs)
    | none => false
  if soon then { s1 with ras := { s1.ras with seenSince := sset 0 s1.ras.seenSince (ptKey d n) since } }
  else
    raise 0x0801 0 0 [word (d + n * 2 ^ 8), word loc, word since]
      { s1 with ras := { s1.ras with
          seenSince := sset 0 s1.ras.seenSince (ptKey d n) 0,
          seenLast := sset none s1.ras.seenLast (ptKey d n) (some s1.tu.tick) } }

/-- A detector's finding at a stored location: counted as injected when INJ_WHERE holds it (R565). -/
def findingAt (d n loc : Nat) (s : State) : State :=
  match whereOf s d n loc with
  | some k => injSeen d n loc (setWhereUsed d n ((whereUsed s d n).filter (· ≠ k)) s)
  | none => s

/-- Corrected and uncorrectable findings of a die since its reset (R572). -/
def countCorr (d : Nat) (s : State) : State :=
  { s with ras := { s.ras with corr := smod 0 s.ras.corr d (· + 1) } }
def countUncorr (d : Nat) (s : State) : State :=
  { s with ras := { s.ras with uncorr := smod 0 s.ras.uncorr d (· + 1) } }

/-- An event whose detail counts what happened since the last one: `n` is the count with this one. Where the mask or
the threshold holds the event back, the count is carried. -/
def raiseSince (code sev src n : Nat) (detail : Nat → List Word) (s : State) : Nat × State :=
  if generated s code sev then (0, raise code sev src (detail n) s) else (n, s)

end Sys2Proof.Machine
end

