-- ==== Sys2Proof/Machine/Nvm.lean ====
section
/-!
DEFINITION. The storage and the port of a grove's user NVM, and a command of it that a reset cuts short (05 R158-R160).
-/
namespace Sys2Proof.Machine

def nvmAt (s : State) (g a : Nat) : NvmWord := sget {} s.fab.nvm (g * 262144 + a)
def nvmSet (g a : Nat) (x : NvmWord) (s : State) : State :=
  { s with fab := { s.fab with nvm := sset {} s.fab.nvm (g * 262144 + a) x } }
def nvmPort (s : State) (g : Nat) : NvmPort := sget {} s.fab.nvmPorts g
def setNvmPort (g : Nat) (x : NvmPort) (s : State) : State :=
  { s with fab := { s.fab with nvmPorts := sset {} s.fab.nvmPorts g x } }
/-- A PROGRAM or ERASE cut short leaves its word or sector undefined (R160). -/
def nvmCut (g : Nat) (s : State) : State :=
  match (nvmPort s g).busy with
  | some (2, a, 0, d) => setNvmPort g {} (nvmSet g a ⟨d, true⟩ s)
  | some (3, a, 0, _) =>
    setNvmPort g {} ((upto 512).foldl (fun t i => nvmSet g (a / 512 * 512 + i) { undef := true } t) s)
  | _ => setNvmPort g {} s

/-- CFG_NVM_WORN is held in the NVM and reloaded at a die reset (R159, R170): its value in `old` stands. -/
def keepWorn (g : Nat) (old s : State) : State := wr s (cfgGrv g + 0x11C) (rd old (cfgGrv g + 0x11C))

end Sys2Proof.Machine
end

