-- ==== Sys2Proof/Machine/Booth.lean ====
section
/-!
DEFINITION. Meanings of the package, booth and event-ring commands (01 R18-R37; 02 R41-R62).
-/
namespace Sys2Proof.Machine

/-- The answer of a meaning: every command of the device goes on. -/
abbrev Next (s : State) : Host.Outcome State Fault Refusal := .next s

/-! ### Package -/

/-- Bits of the register addressed by `a` kept across a package reset. -/
def keepReg (a m : Nat) (old : State) (s : State) : State := wr s a (rd old a &&& word m)

/-- A slot after the package reset: one being written is left EMPTY (02 R70). -/
def slotAfterReset (staging : Option Nat) (n : Nat) (x : Slot) : Slot := if staging = some n then {} else x

/-- The package reset (03 R87, R91): everything reset but OTP, flash contents, SEQ_ERR and RST_CAUSE, which takes every
cause since the reset began; an NVM command is cut short; the waiting commands and the count of free values are no part
of the device. -/
def packageReset (cause : Nat) (s : State) : State :=
  let w := s.ward
  let r := State.reset
  let cut := (upto 8).foldl (fun t g => nvmCut g t) s
  let s1 : State :=
    { r with
      pkg := { r.pkg with causes := (if s.pkg.held then s.pkg.causes else 0) ||| 2 ^ cause, perst := s.pkg.perst }
      ward := { r.ward with
        slotA := slotAfterReset w.stageSlot 0 w.slotA
        slotB := slotAfterReset w.stageSlot 1 w.slotB
        setVal := w.setVal
        setUsed := w.setUsed
        unrecorded := w.unrecorded
        keyHashes := w.keyHashes
        nodeFirst := w.nodeFirst
        audit := w.audit
        auditNext := w.auditNext
        auditWraps := w.auditWraps
        msix := w.msix }
      fab := { r.fab with nvm := cut.fab.nvm, nvmCount := s.fab.nvmCount }
      fresh := s.fresh
      pending := s.pending }
  (upto 8).foldl (fun t g => keepWorn g s t) (keepReg (wdnBase + 0x14) 1 s (keepReg (clkBase + 0x100) 0xF s s1))

/-- PACKAGE_RESET: `cause` is the bit of RST_CAUSE (03 R87). -/
def execPackageReset (cause : Nat) (s : State) : Host.Outcome State Fault Refusal := Next (packageReset (cause % 4) s)

/-- A rail of a later step rises early: SEQ_ERR is set and the package reset held (01 R18). -/
def execRailOrderViolation (s : State) : Host.Outcome State Fault Refusal :=
  Next (wrB (packageReset 1 s) (wdnBase + 0x14) 0 true)

/-- A rail below its lower tolerance: the package reset is held (01 R18). -/
def execRailBelowTolerance (s : State) : Host.Outcome State Fault Refusal := Next (packageReset 1 s)

/-- PERST_N rises: the endpoint answers configuration requests once the package reset is released (04 R99). -/
def execPerstNRise (s : State) : Host.Outcome State Fault Refusal :=
  Next { s with pkg := { s.pkg with perst := true, endpointUp := !s.pkg.held } }

/-- PERST_N falls: the endpoint alone is reset (03 R87). -/
def execPerstNAssert (s : State) : Host.Outcome State Fault Refusal :=
  Next { s with pkg := { s.pkg with perst := false, endpointUp := false, busMaster0 := false, busMaster1 := false, pcieCfg := [] } }

/-- A configuration request of the host: command register bit 2 of offset 4 is Bus Master Enable (04 R99). -/
def execPcieConfigurationRequest (pf off : Nat) (write : Bool) (value : Word) (s : State) :
    Host.Outcome State Fault Refusal :=
  Next (if !s.pkg.endpointUp ∨ !write ∨ 2 ≤ pf then s
    else
      let p := { s.pkg with pcieCfg := sset 0 s.pkg.pcieCfg (pf * 4096 + off % 4096) value }
      if off = 4 then
        { s with pkg := if pf = 0 then { p with busMaster0 := bit value 2 } else { p with busMaster1 := bit value 2 } }
      else { s with pkg := p })

/-- An unmapped access counted and recorded with its requester's station (01 R27). -/
def noteUnmapped (station addr : Nat) (s : State) : State :=
  wr (wr (cnt s (wdnBase + 0x18)) (wdnBase + 0x1C) (lo32 addr)) (wdnBase + 0x20)
    (word (addr / 2 ^ 32 % 2 ^ 16 + station % 2 ^ 12 * 2 ^ 16))

def execUnmappedAccess (station addr : Nat) (s : State) : Host.Outcome State Fault Refusal :=
  Next (if mapped s addr then s else noteUnmapped station addr s)

/-- A PF1 access outside its reach counts in WDN_PF_DENIED (01 R35, R36). -/
def execPfDeniedAccess (addr : Nat) (s : State) : Host.Outcome State Fault Refusal :=
  Next (if pfReaches 1 addr then s else cnt s (wdnBase + 0x24))

/-- A write of WDN_APERTURE whose completion a read-back has observed (01 R37). -/
def execWdnApertureWrite (pf base : Nat) (s : State) : Host.Outcome State Fault Refusal :=
  let b := base % 2 ^ 18
  Next { s with pkg := if pf = 0 then { s.pkg with base0 := b } else if pf = 1 then { s.pkg with base1 := b } else s.pkg }

/-! ### Booths -/

/-- Station and function recorded for a refused writer (02 R45). -/
def writerStation : Writer → Nat
  | .warden => 0x002
  | .tally => 0x005
  | .host _ => 0x001
  | .station id => id
  | .service => 0x000
  | .debug _ => 0x006
def writerFunc : Writer → Nat
  | .host pf => pf % 2
  | _ => 0

/-- A write refused for lack of authority: counted, recorded, SRC_DENIED set in the booth hit (02 R50). -/
def boothDenied (src : Writer) (b : Nat) (s : State) : State :=
  let s1 := wr (cnt s (boothWin + 0x400008)) (boothWin + 0x40000C)
    (word (writerStation src * 2 ^ 16 + writerFunc src * 2 ^ 8 + b % 64))
  if b < 63 then wrB s1 (boothSlot b + 0xC) 2 true else s1

/-- The debug station drops the writes of a port that does not own it (18 R533): they are refused as R50 says. -/
def boothAllows (s : State) (src : Writer) (b : Nat) : Bool := b < 63 && boothWriter s b src

/-- The 16-bit halves of the request header's first two words. -/
def reqWord (s : State) (b i : Nat) : Word := sget 0 s.ward.req (b * 4096 + i)

/-- A request-area write at byte offset `off` of the area (02 R46, R47). -/
def execBoothAreaWrite (src : Writer) (b off : Nat) (value : Word) (s : State) : Host.Outcome State Fault Refusal :=
  Next (if s.pkg.held ∨ 63 ≤ b then s
    else if !boothAllows s src b then boothDenied src b s
    else if off % 4 ≠ 0 ∨ 16384 ≤ off then s
    else if boothState s b = 0 then
      { s with ward := { s.ward with req := sset 0 s.ward.req (b * 4096 + off / 4) value } }
    else wrB s (boothSlot b + 0xC) 1 true)

/-- The response written and the booth in DONE: DONE_FLAG, DONE_COUNT, the completion signal (02 R46, R49). -/
def enterDone (b : Nat) (resp : List Word) (s : State) : State :=
  let s1 := cnt (wrB (setBoothState s b 3) (boothSlot b + 8) 0 true) (boothSlot b + 0x18)
  let s2 := { s1 with ward := { s1.ward with resp := sset [] s1.ward.resp b resp } }
  if !rdB s2 (boothSlot b + 8) 1 then s2
  else
    let s3 := if b < 16 then raiseMsix 0 b s2 else if b < 48 then raiseMsix 1 (b - 16) s2 else s2
    if rdB s3 (boothSlot b + 0x14) 31 then
      postWrite 0x002 (rdF s3 (boothSlot b + 0x14) 15 0 * 2 ^ 32 + (rd s3 (boothSlot b + 0x10)).toNat)
        (toBytes 4 (rd s3 (boothSlot b)).toNat) s3
    else s3

/-- The header of a response (02 R54) before its payload. -/
def respWords (status state seq detail : Nat) (payload : List Word) : List Word :=
  [word (status + state * 2 ^ 8 + seq * 2 ^ 16), word (4 * payload.length + detail * 2 ^ 16), 0, 0] ++ payload

/-- With the Warden down the booth hardware completes a command itself (02 R44). -/
def downComplete (b : Nat) (s : State) : State :=
  enterDone b (respWords stFailed (sysState s) (rdF s (boothSlot b) 31 16) 0xFFFE []) s

/-- The station that a write comes from: the host link for both functions (06 R173). -/
def posterOf : Writer → Nat
  | .host _ => 1
  | .station id => id
  | .tally => 5
  | .debug _ => 6
  | .warden => 2
  | .service => 2

/-- POST (02 R46). LAST_SEQ takes the request's SEQ. -/
def execBoothPost (src : Writer) (b : Nat) (s : State) : Host.Outcome State Fault Refusal :=
  Next (if s.pkg.held ∨ 63 ≤ b then s
    else if !boothAllows s src b then boothDenied src b s
    else if boothState s b = 0 then
      let s0 := { s with ward := { s.ward with poster := sset 0 s.ward.poster b (posterOf src) } }
      let s1 := wrF (setBoothState s0 b 1) (boothSlot b) 31 16 (fld (reqWord s b 0) 31 16)
      if wardenDown s1 then downComplete b s1
      else { s1 with ward := { s1.ward with posted := s1.ward.posted ++ [b] } }
    else wrB s (boothSlot b + 0xC) 0 true)

/-- The response handed back: IDLE, DONE_FLAG cleared, the response area zero from now on (02 R46, R47). -/
def dropResponse (b : Nat) (s : State) : State :=
  let s1 := wrB (setBoothState s b 0) (boothSlot b + 8) 0 false
  { s1 with ward := { s1.ward with resp := sdel s1.ward.resp b } }

/-- RELEASE (02 R46). -/
def execBoothRelease (src : Writer) (b : Nat) (s : State) : Host.Outcome State Fault Refusal :=
  Next (if s.pkg.held ∨ 63 ≤ b then s
    else if !boothAllows s src b then boothDenied src b s
    else if boothState s b = 3 then dropResponse b s
    else wrB s (boothSlot b + 0xC) 0 true)

/-- Checks 1 to 3 of R56 on a request: the status and detail of the first that fails. -/
def headerCheck (b : Nat) (w0 w1 w2 w3 : Word) (args : List Word) : Option (Nat × Nat) :=
  let op := fld w0 15 0
  let len := fld w1 15 0
  let flags := fld w1 31 16
  if !knownOp op then some (stBadOpcode, 0)
  else if !classOpen (classOf b) op then some (stDenied, 0)
  else if flags / 4 ≠ 0 ∨ (flags.testBit 1 ∧ !dryOps.contains op) ∨ w2 ≠ 0 ∨ w3 ≠ 0 ∨ len % 4 ≠ 0 ∨ 16368 < len
      ∨ len ≠ lenOf op args then some (stBadArg, 0xFFFF)
  else none

/-- Payload words of booth `b`'s request. -/
def reqArgs (s : State) (b len : Nat) : List Word := (upto ((len + 3) / 4)).map (fun i => reqWord s b (4 + i))

/-- The POSTED booth whose command is taken next: the oldest; only booth 62 while the Warden is halted (18 R553). -/
def takeNext (s : State) : Option Nat :=
  if s.dbg.wardenHalted then s.ward.posted.find? (· = 62) else s.ward.posted.head?

/-- The Warden takes the oldest POSTED command while fewer than 8 are in TAKEN (02 R48). Checks 1 to 3 of R56 are
made here; checks 4 to 6 when the command is performed, after the commands taken before it (R60). -/
def execWardenTake (s : State) : Host.Outcome State Fault Refusal :=
  Next (match takeNext s with
    | none => s
    | some b =>
      if 8 ≤ s.ward.taken.length ∨ sysState s = 0x10 ∨ sysState s = 0x13 ∨ s.ward.takeover ∨ wardenDown s then s
      else
        let w0 := reqWord s b 0
        let w1 := reqWord s b 1
        let args := reqArgs s b (min 16368 (fld w1 15 0))
        let t : Taken := { booth := b, op := fld w0 15 0, seq := fld w0 31 16, flags := fld w1 31 16, args := args }
        let t' := match headerCheck b w0 w1 (reqWord s b 2) (reqWord s b 3) args with
          | some (st, d) =>
            let r : Req := { booth := b, flags := t.flags, args := args }
            { t with phase := .answered, status := st, detail := d,
                     state := (if knownOp t.op then codeOf t.op r s else none).getD (sysState s) }
          | none =>
            if s.dbg.wardenHalted ∧ t.op ≠ 0x0A01 ∧ t.op ≠ 0x0A0B then
              { t with phase := .answered, status := stNotReady, state := dbgAuth s, detail := 0x0A04 }
            else t
        let s1 := setBoothState s b 2
        { s1 with ward := { s1.ward with posted := s1.ward.posted.filter (· ≠ b), taken := s1.ward.taken ++ [t'] } })

/-- The Warden completes a command whose response is known (02 R46, R49, R53). -/
def execWardenComplete (b : Nat) (s : State) : Host.Outcome State Fault Refusal :=
  Next (match s.ward.taken.find? (fun t => t.booth = b && t.phase = .answered) with
    | none => s
    | some t =>
      if s.ward.takeover ∨ (s.dbg.wardenHalted ∧ b ≠ 62) then s
      else
        let s1 := { s with ward := { s.ward with taken := s.ward.taken.filter (fun x => x.booth ≠ b) } }
        if rdB s1 (boothSlot b) 7 then wrB (setBoothState s1 b 0) (boothSlot b) 7 false
        else
          let s2 := enterDone b (respWords t.status t.state t.seq t.detail t.resp) s1
          if t.flags.testBit 0 then
            raise 0x0107 0 0 [word b, word (t.seq + t.status * 2 ^ 16)] s2
          else s2)

/-! ### The event ring -/

/-- SYS_EVENTS_LOST written once an entry is free after a loss (02 R62). -/
def execSysEventsLost (s : State) : Host.Outcome State Fault Refusal :=
  Next (if s.ward.takeover ∨ sysState s = 0x13 then s else putLost s)

/-- A write of CONS (02 R61): effective between the old CONS and PROD, else BAD_CONS. -/
def execEvtConsWrite (src : Writer) (cons : Nat) (s : State) : Host.Outcome State Fault Refusal :=
  Next (if s.pkg.held then s
    else if !boothWriter s 63 src then boothDenied src 63 s
    else
      let old := rdF s evtCons 15 0
      let new := cons % 65536
      if (new + 65536 - old) % 65536 ≤ ringCount s then wrF s evtCons 15 0 new
      else wrB s evtIrq 2 true)

/-! ### Warden pairs (02 R41-R44) -/

def pairRole (s : State) (p : Nat) : PairRole := if p = 0 then s.ward.pair0 else s.ward.pair1
def setPair (p : Nat) (r : PairRole) (s : State) : State :=
  { s with ward := if p = 0 then { s.ward with pair0 := r } else { s.ward with pair1 := r } }
def activePair (s : State) : Nat := rdF s wardStatus 0 0

/-- DOWN set; the booth hardware completes every command in POSTED or TAKEN (02 R44). -/
def goDown (s : State) : State :=
  let bs := s.ward.taken.map (·.booth) ++ s.ward.posted
  let s1 := wrB (wrB s wardStatus 31 true) wardStatus 1 false
  bs.foldl (fun t b => downComplete b t) { s1 with ward := { s1.ward with taken := [], posted := [], takeover := false } }

/-- The other pair becomes active: a takeover begins, counted and reported (02 R41). -/
def startTakeover (dest cause : Nat) (s : State) : State :=
  let s1 := setPair dest .active (wrB (wrF s wardStatus 0 0 dest) wardStatus 1 false)
  let s2 := cnt { s1 with ward := { s1.ward with takeover := true, takeovers := s1.ward.takeovers + 1 } }
    (boothWin + 0x400004)
  raise 0x0102 2 0 [word (dest + b2n (cause = 2) * 2), word cause] s2

/-- A pair fenced: a standby pair leaves the active one unaffected; after the active pair the standby takes over,
or, with the other pair failed, the Warden is down (02 R41, R44). A halt of the pair ends (18 R553). -/
def fencePair (p cause : Nat) (s : State) : State :=
  let o := 1 - p
  match pairRole s p with
  | .standby => setPair p .fenced (wrB s wardStatus 1 false)
  | .active =>
    let s1 := setPair p .fenced (wrB { s with dbg := { s.dbg with wardenHalted := false } } dbgBase 29 false)
    match pairRole s o with
    | .standby => startTakeover o cause s1
    | .failed => goDown s1
    | _ => s1
  | _ => s

/-- A comparator mismatch of a pair (02 R41). -/
def execLockstepMismatch (pair : Nat) (s : State) : Host.Outcome State Fault Refusal :=
  Next (if s.pkg.held ∨ 2 ≤ pair ∨ wardenDown s then s else fencePair pair 0 s)

/-- The Warden watchdog reaches zero (18 R553): it fences the active pair and counts from 50,000 again; with
FREEZE = 1 it does not count while the pair is halted. -/
def execWardenWatchdogExpiry (s : State) : Host.Outcome State Fault Refusal :=
  Next (if s.pkg.held ∨ wardenDown s ∨ (s.dbg.wardenHalted ∧ rdB s (dbgBase + 0x14) 31) then s
    else fencePair (activePair s) 1 (wrF s (dbgBase + 0x14) 15 0 50000))

/-- An error in the Warden SRAM of a pair (19 R568): a corrected word is rewritten and counted, an uncorrectable
one fences the pair as a comparator mismatch does. An armed point 0x02 alters the word it names (19 R560). -/
def execWardenSramUncorrectable (pair index : Nat) (uncorrectable : Bool) (s : State) :
    Host.Outcome State Fault Refusal :=
  Next (if s.pkg.held ∨ 2 ≤ pair ∨ wardenDown s then s
    else
      let i := if injTarget s 0 2 = index then inject 0 2 s else (false, s)
      let s0 := if i.1 then injSeen 0 2 index i.2 else i.2
      let bad := uncorrectable || (i.1 && (injPattern s 0 2).testBit 15)
      let r := s0.ras
      let s1 := { s0 with ras := if bad then { r with sramUncorr := r.sramUncorr + 1 }
                                 else { r with sramCorr := r.sramCorr + 1 } }
      let s2 := if bad then fencePair pair 0 s1 else s1
      raise 0x0806 (if bad then 2 else 1) 0 [word (b2n bad + pair * 2), word index] s2)

/-- Booth service resumes on the new active pair; the events queued since the takeover began go to the ring in
order. Commands in TAKEN stand as they were: those not performed are performed, those performed answered (R42). -/
def execTakeoverResume (s : State) : Host.Outcome State Fault Refusal :=
  Next (if s.ward.takeover then placeHeld { s with ward := { s.ward with takeover := false } } else s)

/-- A fenced pair's self-test ends (02 R41, R44). -/
def execPairSelfTestDone (pair : Nat) (pass : Bool) (s : State) : Host.Outcome State Fault Refusal :=
  Next (if 2 ≤ pair ∨ pairRole s pair ≠ .fenced ∨ wardenDown s then s
    else
      let other := pairRole s (1 - pair)
      if pass then
        if other = .active then
          raise 0x0104 0 0 [word pair] (wrB (setPair pair .standby s) wardStatus 1 true)
        else startTakeover pair 0 s
      else
        let s1 := raise 0x0103 3 0 [word pair] (setPair pair .failed s)
        if other = .active then s1 else if other = .fenced then s1 else goDown s1)

end Sys2Proof.Machine
end

