-- ==== Sys2Proof/Machine/Net.lean ====
section
/-!
DEFINITION. The Bough as operations: where stations sit, the paths packets take, route tables, response slots,
answers, and what an OPEN contract touches (06 R171-R194; 03 R96).
-/
namespace Sys2Proof.Machine

/-! ### Blocks and addresses -/

def bghBlk (g : Nat) : Nat := groveWin g + 0x20000
def lnkBlk (d u : Nat) : Nat := dieWin d + 0x30000 + 0x40 * u
def rmcBlk (g : Nat) : Nat := groveWin g + 0x40000
/-- BGH_STN_CFG of a grove's station. -/
def stnCfg (id : Nat) : Nat := bghBlk (id / 256 - 8) + 0x400 + 4 * (id % 256)

/-- The counters of 06 R202, in offset order: 0 E2E_ERR, 1 NOROUTE, 2 HOPS_EXPIRED, 3 ABSENT_SYNTH, 4 DOWN_DISCARD,
5 TURNED, 6 SINK_VIOLATION. -/
def bghCnt (die i : Nat) (s : State) : State :=
  if isGroveDie die then cnt s (bghBlk (die - 8) + (if i = 0 then 4 else 8 + 4 * i))
  else { s with bough := { s.bough with counters := smod 0 s.bough.counters (die * 8 + i)
                                          (fun n => min (2 ^ 32 - 1) (n + 1)) } }
def bghRead (s : State) (die i : Nat) : Nat :=
  if isGroveDie die then (rd s (bghBlk (die - 8) + (if i = 0 then 4 else 8 + 4 * i))).toNat
  else sget 0 s.bough.counters (die * 8 + i)

/-! ### Links -/

/-- State code of a link unit; the hub's ends follow the grove's (07 R207). -/
def unitState (s : State) (d u : Nat) : Nat :=
  if d = 0 then
    (match linkPeer 0 u with
     | some (p, v) => rdF s (lnkBlk p v) 23 16
     | none => 0x60)
  else rdF s (lnkBlk d u) 23 16
/-- Agreed width of a link unit, or its group mask. -/
def unitWidth (s : State) (d u : Nat) : Nat :=
  if d = 0 then
    (match linkPeer 0 u with
     | some (p, v) => rdF s (lnkBlk p v) 11 0
     | none => 0)
  else rdF s (lnkBlk d u) 11 0
/-- The unit carries traffic: UP or NARROW. -/
def unitRuns (s : State) (d u : Nat) : Bool := unitState s d u = 0x62 || unitState s d u = 0x63
def unitDown (s : State) (d u : Nat) : Bool := unitState s d u = 0x65

/-! ### Paths (06 R171-R174, R198) -/

/-- The dies of trunk A, in order. -/
def trunkOrder : List Nat := [0, 8, 9, 10, 11, 15, 14, 13, 12]
def trunkPos (d : Nat) : Nat := (trunkOrder.findIdx? (· = d)).getD 0
/-- The die after `d` on trunk A (0) or trunk B (1). -/
def trunkNext (d tdir : Nat) : Nat :=
  trunkOrder.getD ((trunkPos d + (if tdir = 0 then 1 else 8)) % 9) 0
/-- Trunk steps from die `a` to die `b` in a direction. -/
def trunkSteps (a b tdir : Nat) : Nat :=
  if tdir = 0 then (trunkPos b + 9 - trunkPos a) % 9 else (trunkPos a + 9 - trunkPos b) % 9
/-- Trunk segment left by die `d` in a direction: segment `i` lies between positions i and i + 1 of trunk A. -/
def trunkSeg (d tdir : Nat) : Nat := if tdir = 0 then trunkPos d else (trunkPos d + 8) % 9
/-- The grove end of a trunk segment, die and unit. -/
def segEnd (i : Nat) : Nat × Nat :=
  if i = 0 then (8, 0) else (trunkOrder.getD i 0, 1)
def segRuns (s : State) (i : Nat) : Bool := unitRuns s (segEnd i).1 (segEnd i).2
def segDown (s : State) (i : Nat) : Bool := unitDown s (segEnd i).1 (segEnd i).2

/-- Where a station sits: the die on the trunk, its ring and position, and the lane die behind it, if any. -/
structure Place where
  die : Nat
  /-- None at the trunk router. -/
  ring : Option Nat
  pos : Nat
  lane : Option Nat := none

def placeOf (id : Nat) : Place :=
  let d := id / 256
  let k := id % 256
  if isLaneDie d then
    let j := if k = 0 then 0 else k - 0x10
    let b := if j < 8 then j / 2 else (j - 8) / 2
    { die := 8 + 2 * (d - 1) + j / 8, ring := some (b / 2), pos := 1 + b % 2, lane := some b }
  else if d = 0 then
    if k = 0 then { die := 0, ring := none, pos := 0 }
    else { die := 0, ring := some 0, pos := if 0x10 ≤ k then 7 else k }
  else if k = 0 then { die := d, ring := none, pos := 0 }
  else if k = 1 then { die := d, ring := some 0, pos := 3 }
  else if k = 2 then { die := d, ring := some 1, pos := 3 }
  else if k = 3 then { die := d, ring := some 1, pos := 4 }
  else if k = 4 then { die := d, ring := some 0, pos := 4 }
  else if k < 0x30 then { die := d, ring := some (if k < 0x20 then 0 else 1), pos := 5 }
  else if k < 0x80 then { die := d, ring := some (if k < 0x40 then 0 else 1), pos := 6 + k % 16 }
  else { die := d, ring := some (if k < 0x90 then 0 else 1), pos := 22 + k % 16 }

/-- Ring hops from one position to another, the shorter way round, toward higher positions on a tie. -/
def ringHops (die ring a b : Nat) : List Output :=
  let n := if die = 0 then 8 else 38
  let up := (b + n - a) % n
  if 2 * up ≤ n then (upto up).map (fun i => Output.hop die ring ((a + i) % n) true)
  else (upto (n - up)).map (fun i => Output.hop die ring ((a + n - i) % n) false)

/-- Trunk steps out of `n` dies from `d` on. -/
def trunkWalk (tdir : Nat) : Nat → Nat → List Output
  | 0, _ => []
  | k + 1, d => .trunk d tdir :: trunkWalk tdir k (trunkNext d tdir)

/-- The outputs that packets from one station to another take (R198). -/
def pathOf (src dst tdir : Nat) : List Output :=
  let a := placeOf src
  let b := placeOf dst
  let up := match a.lane with
    | some k => [Output.lane a.die k true]
    | none => []
  let down := match b.lane with
    | some k => [Output.lane b.die k false]
    | none => []
  let mid :=
    if a.die = b.die ∧ a.ring = b.ring then
      (match a.ring with
       | some r => ringHops a.die r a.pos b.pos
       | none => [])
    else
      (match a.ring with
       | some r => ringHops a.die r a.pos 0 ++ [.turnIn a.die r]
       | none => [])
      ++ trunkWalk tdir (trunkSteps a.die b.die tdir) a.die
      ++ (match b.ring with
          | some r => .turnOut b.die r :: ringHops b.die r 0 b.pos
          | none => [])
  up ++ mid ++ down ++ [.eject dst]

/-- The link unit that an output crosses, at the grove's or the hub's end. -/
def outputUnit : Output → Option (Nat × Nat)
  | .trunk d t => some (d, if t = 0 then 1 else 0)
  | .lane d b _ => some (d, 8 + b)
  | _ => none

/-- An output crosses a unit that does not run. -/
def outputDown (s : State) (o : Output) : Bool :=
  match outputUnit o with
  | some (d, u) => !unitRuns s d u
  | none => false

/-- The dies an output belongs to. -/
def outputDies : Output → List Nat
  | .hop d _ _ _ => [d]
  | .turnIn d _ => [d]
  | .turnOut d _ => [d]
  | .trunk d t => [d, trunkNext d t]
  | .lane d _ _ => [d, 1 + (d - 8) / 2]
  | .eject s => [s / 256]

/-! ### Route tables (06 R186) -/

/-- The die on the trunk that a station's die is reached through. -/
def trunkDie (id : Nat) : Nat := (placeOf id).die

/-- TDIR for the fewer trunk steps, trunk A on a tie. -/
def fewerSteps (src dst : Nat) : Nat :=
  if trunkSteps (trunkDie src) (trunkDie dst) 0 ≤ trunkSteps (trunkDie src) (trunkDie dst) 1 then 0 else 1

/-- A route table entry with GUAR = 0, ALT_OK = 1 and HOPS = 128. -/
def defaultEntry (tdir : Nat) : Word := word (2 ^ 31 + tdir * 2 ^ 29 + 2 ^ 28 + 128 * 2 ^ 8)

/-- The trunk segments that a path crosses. -/
def pathSegs (l : List Output) : List Nat :=
  l.filterMap (fun o => match o with
    | .trunk d t => some (trunkSeg d t)
    | _ => none)

/-- The direction of a default entry: the fewer steps, or the other way where the Warden has rewritten it to avoid
a DOWN port (R186, R194). -/
def defaultDir (s : State) (src dst : Nat) : Nat :=
  let t := fewerSteps src dst
  if (pathSegs (pathOf src dst t)).any (fun i => s.bough.avoid.contains i)
      ∧ !(pathSegs (pathOf src dst (1 - t))).any (fun i => s.bough.avoid.contains i) then 1 - t
  else t

/-- Entry `e` of a station's route table. -/
def routeOf (s : State) (station e : Nat) : Word :=
  match sget none s.bough.entries (station * 4096 + e) with
  | some w => w
  | none =>
    if populated e ∧ sget false s.bough.blocks (station / 256 * 16 + e / 256) then defaultEntry (defaultDir s station e)
    else 0

def setRoute (station e : Nat) (w : Word) (s : State) : State :=
  { s with bough := { s.bough with entries := sset none s.bough.entries (station * 4096 + e) (some w) } }
/-- The entry back at the default fields of R186. -/
def defaultRoute (station e : Nat) (s : State) : State :=
  if populated e ∧ sget false s.bough.blocks (station / 256 * 16 + e / 256) then
    { s with bough := { s.bough with entries := sset none s.bough.entries (station * 4096 + e) none } }
  else setRoute station e (defaultEntry (defaultDir s station e)) s

/-- The default entries that the Warden writes when a die is released (R186): to and from every die in RUN or
REJOIN. -/
def writeDefaults (d : Nat) (s : State) : State :=
  let peers := (0 :: dies).filter (fun x => x = d || x = 0 || dieState s x = 0x30 || dieState s x = 0x34)
  let b := peers.foldl (fun m x => sset false (sset false m (d * 16 + x) true) (x * 16 + d) true) s.bough.blocks
  { s with bough := { s.bough with blocks := b } }

/-! ### Response slots (06 R182, R189) -/

/-- Flits that a payload of `n` bytes takes. -/
def flitsOf (n : Nat) : Nat := if n ≤ 96 then 1 else if n ≤ 220 then 2 else 3
/-- Slots that a request reserves. -/
def slotsFor (p : Packet) : Nat := if p.op = 1 then flitsOf p.len else if p.op = 2 then 1 else 0
/-- The station is in sink mode: the host link, or a design station set so (R190). -/
def inSink (s : State) (id : Nat) : Bool := id = 1 || (isDesign id && rdB s (stnCfg id) 1)
def slotsFree (s : State) (id : Nat) : Nat := 64 - sget 0 s.bough.used id
/-- BGH_STN_CFG shows the free slots of a grove's station. -/
def showSlots (id : Nat) (s : State) : State :=
  if isGroveDie (id / 256) then wrF s (stnCfg id) 15 8 (slotsFree s id) else s
def takeSlots (id n : Nat) (s : State) : State :=
  if inSink s id then s
  else showSlots id { s with bough := { s.bough with used := smod 0 s.bough.used id (· + n) } }
def freeSlots (id n : Nat) (s : State) : State :=
  if id = 1 then s
  else showSlots id { s with bough := { s.bough with used := smod 0 s.bough.used id (· - n) } }

/-! ### Answers -/

/-- The response of a request: RDR with data, or WRA (R181, R183). Its trunk direction is the opposite. -/
def responseTo (p : Packet) (status : Nat) (data : List Byte) (poison : Bool) : Packet :=
  { op := if p.op = 1 then 4 else 5, vc := 1, dst := p.src, src := p.dst, tag := p.tag, addr := p.addr,
    len := if p.op = 1 then p.len else data.length, data := data, status := status, poison := poison, tdir := 1 - p.tdir, hops := p.hops,
    altOk := p.altOk }

/-- A packet put on the Bough. An armed point 0x07 of the sender's grove alters its check field (19 R560). -/
def launch (p : Packet) (s : State) : State :=
  let d := p.src / 256
  if isGroveDie d ∧ injTarget s d 7 % 256 = p.src % 256 then
    let r := inject d 7 s
    let bad := r.1 && injPattern s d 7 % 2 ^ 16 ≠ 0
    { r.2 with net := r.2.net ++ [{ p with chkBad := p.chkBad || bad, marked := p.marked || r.1 }] }
  else { s with net := s.net ++ [p] }

/-- A response put on the Bough by the station that served the request. -/
def respond (p : Packet) (status : Nat) (data : List Byte) (s : State) : State :=
  if p.op = 1 ∨ p.op = 2 then launch (responseTo p status data (status = 0x0D)) s else s

/-- A packet in the inbox of its destination station. -/
def toInbox (p : Packet) (s : State) : State := { s with bough := { s.bough with inbox := s.bough.inbox ++ [p] } }

/-- A request that is not sent, answered at its own network interface with a status, or discarded when it is posted
(R187, R234). A design and the host take the answer at once. -/
def answerLocal (p : Packet) (status : Nat) (s : State) : State :=
  if (p.op = 1 ∨ p.op = 2) ∧ p.src ≠ 1 ∧ !isDesign p.src then toInbox (responseTo p status [] false) s else s


/-! ### What an OPEN contract touches (03 R96) -/

def Contract.src (c : Contract) : Nat := nfld (wordAt c.terms 0) 11 0
def Contract.dst (c : Contract) : Nat := nfld (wordAt c.terms 0) 27 16
def Contract.flow (c : Contract) : Nat := nfld (wordAt c.terms 1) 23 0
def Contract.eclass (c : Contract) : Nat := nfld (wordAt c.terms 1) 27 25
def Contract.dstDram (c : Contract) : Bool := (wordAt c.terms 1).testBit 30
def Contract.peak (c : Contract) : Nat := wordAt c.terms 2
def Contract.rate (c : Contract) : Nat := wordAt c.terms 3
def Contract.burst (c : Contract) : Nat := wordAt c.terms 4
def Contract.unit (c : Contract) : Nat := wordAt c.terms 5
def Contract.want (c : Contract) : Nat := wordAt c.terms 6
def Contract.power (c : Contract) : Nat := wordAt c.terms 7
def Contract.items (c : Contract) : Nat := wordAt c.terms 8
def Contract.tileNs (c : Contract) : Nat := wordAt c.terms 9

/-- The OPEN contracts, with their IDs. -/
def openContracts (s : State) : List (Nat × Contract) := s.bough.contracts.filter (fun e => e.2.state = .opened)

/-- Kinds of stations of R197. -/
inductive StationKind where
  | engine
  | porter
  | tiles
  | dram
  | design
  | other
  deriving DecidableEq

def kindOf (id : Nat) : StationKind :=
  let d := id / 256
  let k := id % 256
  if isLaneDie d then (if 0x10 ≤ k ∧ k ≤ 0x1F then .engine else .other)
  else if d = 0 then (if 0x10 ≤ k ∧ k ≤ 0x1F then .porter else .other)
  else if isGroveDie d then
    if k = 1 ∨ k = 2 then .dram
    else if 0x10 ≤ k ∧ k ≤ 0x2F then .porter
    else if 0x30 ≤ k ∧ k ≤ 0x4F then .tiles
    else if 0x80 ≤ k ∧ k ≤ 0x9F then .design
    else .other
  else .other

/-- The gate bit of the block that holds an end station, on its die (R88). -/
def blockOf (id : Nat) : Option Nat :=
  match kindOf id with
  | .engine => some (id % 256 - 0x10)
  | .porter => some (if id / 256 = 0 then 0 else 1)
  | .tiles => some 8
  | .dram => some (2 + id % 256)
  | _ => none

/-- An OPEN contract touches a gateable block of a die. -/
def touchesBlock (c : Contract) (die blk : Nat) : Bool :=
  (c.src / 256 = die && blockOf c.src = some blk) || (c.dst / 256 = die && blockOf c.dst = some blk)
  || (isLaneDie die && blk = 16 && kindOf c.src = .engine && c.src / 256 = die)
  || (isGroveDie die && (blk = 3 || blk = 4) && c.dstDram && c.dst / 256 = die)
  || (isGroveDie die && blk = 0 && c.items ≠ 0 && 8 + c.flow / 2 ^ 21 = die)

/-- An OPEN contract touches a clearing or the static region of a grove. -/
def touchesRegion (s : State) (c : Contract) (g r : Nat) : Bool :=
  (kindOf c.src = .design && c.src / 256 = 8 + g && stopOwner s g (c.src % 256) = r)
  || (kindOf c.dst = .design && c.dst / 256 = 8 + g && stopOwner s g (c.dst % 256) = r)

/-- A station's clock is stopped by the debugger: its die is, or its block is frozen (18 R549, R550). Tiles stop one by
one. -/
def stationStopped (s : State) (id : Nat) : Bool :=
  let blk := if isGroveDie (id / 256) ∧ id % 256 = 3 then some 6 else if isGroveDie (id / 256) ∧ id % 256 = 4 then some 0
    else if kindOf id = .tiles then none else blockOf id
  s.dbg.stoppedDies.contains (id / 256) ||
    (isGroveDie (id / 256) && (match blk with
      | some b => rdB s (dbgBlk (id / 256 - 8) + 0x308) b
      | none => false))
/-- Packet `i` of the inbox, for a station whose clock runs. -/
def inboxAt (s : State) (i : Nat) : Option Packet :=
  match s.bough.inbox[i]? with
  | some p => if stationStopped s p.dst then none else some p
  | none => none

/-- Some OPEN contract touches a block. -/
def blockTouched (s : State) (die blk : Nat) : Bool := (openContracts s).any (fun e => touchesBlock e.2 die blk)
/-- Some OPEN contract touches any block of a die that a state stops. -/
def dieTouched (s : State) (die : Nat) (blks : List Nat) : Bool := blks.any (fun b => blockTouched s die b)
/-- Some OPEN contract touches a region. -/
def regionTouched (s : State) (g r : Nat) : Bool := (openContracts s).any (fun e => touchesRegion s e.2 g r)

/-- RESERVED of 16 R498: POWER_MW over OPEN contracts of class E0. -/
def reservedMw (s : State) : Nat :=
  ((openContracts s).filter (fun e => e.2.eclass = 0)).foldl (fun n e => n + e.2.power) 0

end Sys2Proof.Machine
end

