-- ==== Sys2Proof/Machine/EncMap.lean ====
section
/-!
DEFINITION. Where encryption regions, their tags and their tree nodes lie (13 R393-R402), the window offset of a
channel address (12 R366), and what a tree build leaves in a node.
-/
namespace Sys2Proof.Machine

/-! ### Registers of a channel and of an encryption unit -/

/-- Die and station of a channel. -/
def chanDie (c : Nat) : Nat := 8 + c / 2
def chanStation (c : Nat) : Nat := 256 * chanDie c + 1 + c % 2
/-- State code of a channel (12 R363). -/
def chanState (s : State) (c : Nat) : Nat := rdF s (memBlk c) 7 0
def setChanState (c st : Nat) (s : State) : State := wrF s (memBlk c) 7 0 st
def chanAt (s : State) (c : Nat) : Channel := sget {} s.dram.chans c
def setChan (c : Nat) (x : Channel) (s : State) : State :=
  { s with dram := { s.dram with chans := sset {} s.dram.chans c x } }
def modChan (c : Nat) (f : Channel → Channel) (s : State) : State := setChan c (f (chanAt s c)) s
/-- Mapped capacity of a channel in bytes; zero while it is not mapped. -/
def chanCap (s : State) (c : Nat) : Nat := if c % 2 = 0 then cap0 s (c / 2) else cap1 s (c / 2)
def chanMapped (s : State) (c : Nat) : Bool := chanCap s c ≠ 0
/-- Counter `i` of 0x020: 0 CE_COUNT, 1 UE_COUNT, 2 CE_LOST, 3 POISON_WR, 4 RMW, 5 WR_CRC, 6 CA_PARITY, 7 RETRAIN,
8 PANIC_CYC, 9 REF_POSTPONED, 10 SCRUB_PASSES, 11 RT_LATE. -/
def memCnt (c i : Nat) : Nat := memBlk c + 0x20 + 4 * i
/-- A MEM event, raised for the channel's station. -/
def raiseMem (code sev c : Nat) (d : List Word) (s : State) : State := raise code sev (chanStation c) (word c :: d) s

def encBlk (g : Nat) : Nat := groveWin g + 0xD0000
/-- Counter `i` of 0x010: 0 TAG_FAIL, 1 MISCORRECT, 2 WRITE_REFUSED, 3 UNWRITTEN_READS, 4 META_HITS,
5 NOT_READY_HITS, 6 CACHE_HIT, 7 CACHE_MISS, 8 ROOT_CORR. -/
def encCnt (g i : Nat) : Nat := encBlk g + 0x10 + 4 * i
def rgnReg (g r i : Nat) : Nat := encBlk g + 0x100 + 0x10 * r + 4 * i
/-- BASE, SIZE and META in MiB, and the state code. -/
def rgnBase (s : State) (g r : Nat) : Nat := rdF s (rgnReg g r 0) 17 0
def rgnSize (s : State) (g r : Nat) : Nat := rdF s (rgnReg g r 1) 18 0
def rgnMeta (s : State) (g r : Nat) : Nat := rdF s (rgnReg g r 2) 17 0
def rgnState (s : State) (g r : Nat) : Nat := rdF s (rgnReg g r 3) 7 0
def setRgnState (g r st : Nat) (s : State) : State := wrF s (rgnReg g r 3) 7 0 st
def rgnDepth (s : State) (g r : Nat) : Nat := rdF s (rgnReg g r 3) 23 20
def rgnAt (s : State) (g r : Nat) : EncRegion := sget {} s.dram.regions (g * 8 + r)
def setRgn (g r : Nat) (x : EncRegion) (s : State) : State :=
  { s with dram := { s.dram with regions := sset {} s.dram.regions (g * 8 + r) x } }
/-- The event word that names a region. -/
def rgnWord (g r : Nat) : Word := word (g + r * 2 ^ 4)

/-! ### The tree (13 R401, R402) -/

def mib : Nat := 2 ^ 20
/-- Lines of a region of `size` MiB. -/
def linesOf (size : Nat) : Nat := size * 16384
/-- The smallest d ≥ 1 with 7^d ≥ n. -/
def treeDepth (n : Nat) : Nat := ((upto 16).find? (fun d => 1 ≤ d && decide (n ≤ 7 ^ d))).getD 16
/-- Nodes of level `k`. -/
def levelNodes (n k : Nat) : Nat := (n + 7 ^ k - 1) / 7 ^ k
/-- Tree nodes below level `k`, from level 1. -/
def nodesBelow (n k : Nat) : Nat := ((upto k).filter (1 ≤ ·)).foldl (fun t i => t + levelNodes n i) 0
def tagLines (n : Nat) : Nat := (n + 7) / 8
/-- Metadata area in MiB. -/
def metaMib (n : Nat) : Nat := (64 * (tagLines n + nodesBelow n (treeDepth n)) + mib - 1) / mib
/-- Window offset where level `k` begins; the tag area is level 0. -/
def levelBase (s : State) (g r k : Nat) : Nat :=
  rgnMeta s g r * mib + (if k = 0 then 0 else 64 * (tagLines (linesOf (rgnSize s g r)) + nodesBelow (linesOf (rgnSize s g r)) k))

/-- The region, not FREE, whose lines hold offset `o` of the window. -/
def regionAt (s : State) (g o : Nat) : Option Nat :=
  (upto 8).find? (fun r => rgnState s g r ≠ 0xA0 && decide (rgnBase s g r * mib ≤ o)
    && decide (o < (rgnBase s g r + rgnSize s g r) * mib))
/-- The region, not FREE, whose metadata area holds offset `o`. -/
def metaAt (s : State) (g o : Nat) : Option Nat :=
  (upto 8).find? (fun r => rgnState s g r ≠ 0xA0 && decide (rgnMeta s g r * mib ≤ o)
    && decide (o < (rgnMeta s g r + metaMib (linesOf (rgnSize s g r))) * mib))
/-- Level and index of the tree node at offset `o` of a region's metadata area. -/
def nodeAtOffset (s : State) (g r o : Nat) : Option (Nat × Nat) :=
  let n := linesOf (rgnSize s g r)
  ((upto (rgnDepth s g r)).find? (fun k => 1 ≤ k && decide (levelBase s g r k ≤ o)
    && decide (o < levelBase s g r k + 64 * levelNodes n k))).map (fun k => (k, (o - levelBase s g r k) / 64))
/-- Device address of an offset of a grove's window. -/
def winAddr (g o : Nat) : Nat := g * 0x4000000000 + o

/-- The build that last wrote node `j` of level `k`: the level of its top, and its base. -/
def buildOf (x : EncRegion) (k j : Nat) : Nat × Nat :=
  match x.builds.find? (fun b => decide (k ≤ b.1) && j / 7 ^ (b.1 - k) = b.2.1) with
  | some b => (b.1, b.2.2)
  | none => (k, 0)
/-- Nodes that a build from node `j` of level `k` writes; the root itself lies in no level. -/
def buildNodes (s : State) (g r k j : Nat) : Nat :=
  let n := linesOf (rgnSize s g r)
  ((upto (min (k + 1) (rgnDepth s g r))).filter (1 ≤ ·)).foldl (fun t i =>
    t + (min (levelNodes n i) ((j + 1) * 7 ^ (k - i)) - min (levelNodes n i) (j * 7 ^ (k - i)))) 0
/-- Counter that the build gave node `j` of level `k`: some value drawn during it, the order being open. -/
def builtCtr (s : State) (g r k j : Nat) : Nat :=
  let b := buildOf (rgnAt s g r) k j
  let n := buildNodes s g r b.1 (j / 7 ^ (b.1 - k))
  b.2 + 1 + Config.treeOrder (b.2 * 64 + g * 8 + r) k j % max 1 n

/-- The IV of a node's tag (13 R400). -/
def nodeIv (c addr : Nat) : Nat := c * 2 ^ 64 + addr / 64 * 2 ^ 22 + 2 ^ 20
/-- Slots of a node as bytes, with its tag. -/
def nodeBytes (key : List Word) (c addr : Nat) (slots : List Nat) : List Byte :=
  let b := slots.flatMap (toBytes 8)
  b ++ toBytes 8 (Config.gmac key (nodeIv c addr) b).toNat
/-- What the build left in node `j` of level `k`. -/
def builtNode (s : State) (g r k j : Nat) : List Byte :=
  let n := linesOf (rgnSize s g r)
  nodeBytes (rgnAt s g r).tagKey (builtCtr s g r k j) (winAddr g (levelBase s g r k + 64 * j))
    ((upto 7).map (fun m => if k = 1 ∨ levelNodes n (k - 1) ≤ 7 * j + m then 0 else builtCtr s g r (k - 1) (7 * j + m)))

/-! ### Offsets (12 R366) -/

/-- The offset of the grove's window that a channel address holds. -/
def offsetOf (s : State) (c ca : Nat) : Nat :=
  if rdB s (memBlk c + 8) 31 then
    let h := ca / 256 * 512
    let b := (c + nfld h 17 17 + nfld h 26 26) % 2
    h + b * 256 + ca % 256
  else if c % 2 = 0 then ca else ca + cap0 s (c / 2)

/-- What a line of a built tree holds while no write has reached its cells. -/
def builtLine (s : State) (c line : Nat) : Option (List Byte) :=
  let g := c / 2
  let o := offsetOf s c (line * 64)
  match metaAt s g o with
  | none => none
  | some r =>
    if rgnState s g r = 0xA1 then none
    else (nodeAtOffset s g r o).map (fun x => builtNode s g r x.1 x.2)

end Sys2Proof.Machine
end

