-- ==== Sys2Proof/Machine/Traffic.lean ====
section
/-!
DEFINITION. Requests on the Bough: how a network interface sends, holds and meters them, and what routers do to
packets on the way (06 R181-R196; 07 R222, R231, R234).
-/
namespace Sys2Proof.Machine

/-! ### Sending -/

/-- The request is cacheable by its grove's remote cache (07 R222). -/
def cacheable (s : State) (src op addr : Nat) : Bool :=
  let g := src / 256 - 8
  let from_ := kindOf src = .tiles || kindOf src = .design || (isGroveDie (src / 256) && src % 256 = 4)
  match dramWin addr with
  | some (h, _) =>
    from_ && (1 ≤ op && op ≤ 3) && h ≠ g && !rdB s (rmcBlk g) (16 + h) && rdB s (rmcBlk g) 0
  | none => false

/-- PROV as the station's network interface sends it (07 R231): a design station with PROV_OK, a tile group as its
work item asks. -/
def provOf (s : State) (src : Nat) (prov : Bool) : Bool :=
  prov && ((isDesign src && rdB s (stnCfg src) 2) || kindOf src = .tiles)

/-- A provisional write may be delivered to this station: a design station of the same grove with PROV_OK (07 R234).
-/
def gatePasses (s : State) (src dst : Nat) : Bool :=
  isDesign dst && dst / 256 = src / 256 && rdB s (stnCfg dst) 2

/-- RMC_GATE_BLOCKED counts a blocked provisional write of a grove's station and is raised (07 R234, R239). -/
def gateBlocked (src dst : Nat) (s : State) : State :=
  let s1 := cnt s (rmcBlk (src / 256 - 8) + 0x28)
  let r := raiseSince 0x0888 2 (src / 256 * 256 + 3) (sget 0 s1.bough.gateSince src + 1) (fun n => [word src, word dst, word n]) s1
  { r.2 with bough := { r.2.bough with gateSince := sset 0 r.2.bough.gateSince src r.1 } }

/-- Contract of a packet, if it travels under one. -/
def contractOf (s : State) (id : Nat) : Contract := sget {} s.bough.contracts id
def setContract (id : Nat) (c : Contract) (s : State) : State :=
  { s with bough := { s.bough with contracts := sset {} s.bough.contracts id c } }

/-- Both allowances hold enough for a packet of `n` bytes (06 R196). -/
def meterOk (c : Contract) (n : Nat) : Bool :=
  decide ((min (n * 4000) (c.unit * 4000) : Nat) ≤ c.peakA) && decide ((min (n * 4000) (c.burst * 4000) : Nat) ≤ c.rateA)
/-- The packet's bytes deducted from both allowances. -/
def meterTake (c : Contract) (n : Nat) : Contract :=
  { c with peakA := c.peakA - (n * 4000 : Nat), rateA := c.rateA - (n * 4000 : Nat) }
/-- The allowances filled for 2 ns. -/
def meterFill (c : Contract) : Contract :=
  if c.state = .opened then
    { c with peakA := min (c.peakA + c.peak) (c.unit * 4000 : Nat), rateA := min (c.rateA + c.rate) (c.burst * 4000 : Nat) }
  else c

/-- A request of the same station, virtual channel and destination waits already (06 R188). -/
def sameLane (p q : Packet) : Bool := p.src = q.src && p.vc = q.vc && p.dst = q.dst

/-- The request can leave its interface: slots for its response, allowances of its contract. -/
def mayLeave (s : State) (p : Packet) : Bool :=
  if p.vc = 0 then meterOk (contractOf s p.contract) p.len
  else inSink s p.src || slotsFor p ≤ slotsFree s p.src

/-- The request leaves: its slots are reserved, its bytes deducted. -/
def leave (p : Packet) (s : State) : State :=
  let s1 := if p.vc = 0 then setContract p.contract (meterTake (contractOf s p.contract) p.len) s
            else takeSlots p.src (slotsFor p) s
  launch p s1

/-- The request waits in its interface, or leaves. -/
def offer (p : Packet) (s : State) : State :=
  if s.bough.waiting.any (sameLane p) ∨ !mayLeave s p then
    { s with bough := { s.bough with waiting := s.bough.waiting ++ [p] } }
  else leave p s

/-- One request of at most 256 bytes sent by its station's route entry (06 R186, R187; 07 R222, R234). -/
def sendOne (p : Packet) (s : State) : State :=
  let prov := provOf s p.src p.prov
  let home := stationOf s p.addr
  if prov ∧ (p.op = 2 ∨ p.op = 3) ∧ !gatePasses s p.src home then
    (if p.op = 2 then toInbox (responseTo { p with dst := home } stPoison [] true) else id) (gateBlocked p.src home s)
  else
    let guar := p.op = 3 && (routeOf s p.src home).toNat.testBit 31 && (routeOf s p.src home).toNat.testBit 30
    let dst := if !guar && cacheable s p.src p.op p.addr then p.src / 256 * 256 + 3 else home
    let e := (routeOf s p.src dst).toNat
    let q := { p with dst := dst, prov := prov, vc := if guar then 0 else 2, guar := guar,
                      contract := if guar then nfld e 27 16 else 0, tdir := nfld e 29 29, altOk := e.testBit 28,
                      hops := nfld e 15 8 }
    if !e.testBit 31 then answerLocal q 0x06 (bghCnt (p.src / 256) 1 s)
    else offer q s

/-- A request split at 256-byte boundaries (06 R182). -/
def pieces : Nat → Nat → Nat → List Byte → List (Nat × Nat × List Byte)
  | 0, _, _, _ => []
  | fuel + 1, addr, len, data =>
    let room := 256 - addr % 256
    if len ≤ room then [(addr, len, data)]
    else (addr, room, data.take room) :: pieces fuel (addr + room) (len - room) (data.drop room)

/-- A request presented by a station. -/
def sendReq (p : Packet) (s : State) : State :=
  (pieces (p.len / 256 + 2) p.addr p.len p.data).foldl
    (fun t x => sendOne { p with addr := x.1, len := x.2.1, data := x.2.2 } t) s

/-- A packet of a unit sent to a station by its route entry, without the address decode (11 R339). -/
def sendUnit (p : Packet) (s : State) : State :=
  let e := (routeOf s p.src p.dst).toNat
  let guar := p.op = 3 && e.testBit 31 && e.testBit 30
  let q := { p with vc := if guar then 0 else 2, guar := guar, contract := if guar then nfld e 27 16 else 0,
                    tdir := nfld e 29 29, altOk := e.testBit 28, hops := nfld e 15 8 }
  if !e.testBit 31 then answerLocal q 0x06 (bghCnt (p.src / 256) 1 s) else offer q s

/-- A design station answers the oldest request with the tag that waits at it (06 R188, R189): a read with data, a
write with an acknowledgement. With no such request nothing is sent. -/
def designAnswer (src op tag : Nat) (data : List Byte) (s : State) : State :=
  match s.bough.inbox.find? (fun p => p.dst = src && p.op + 3 = op && p.tag = tag % 2 ^ 16) with
  | some p => respond p 0 (if op = 4 then (data ++ List.replicate p.len 0).take p.len else [])
      { s with bough := { s.bough with inbox := s.bough.inbox.erase p } }
  | none => s

/-- A station presents a request to its network interface (06 R188). A station of a die that is not clocked and
linked presents none. With OP 4 or 5 a design station presents its answer to a request. -/
def execBoughRequestSend (src op tag addr len : Nat) (data : List Byte) (flow : Option Nat) (prov : Bool) (s : State) :
    Host.Outcome State Fault Refusal :=
  .next (if s.pkg.held ∨ !populated src ∨ !dieAlive s (src / 256) ∨ 16 ≤ op then s
    else if (op = 4 ∨ op = 5) ∧ isDesign src then designAnswer src op tag data s
    else if len = 0 then s
    else
      let d := if op = 1 then [] else (data ++ List.replicate len 0).take len
      let p : Packet :=
        { op := op, vc := 2, dst := 0, src := src, tag := tag % 2 ^ 16, addr := addr % 2 ^ 48, len := len, data := d,
          flow := flow.getD 0, flowValid := flow.isSome, prov := prov }
      sendReq p s)

/-- The first waiting request of a lane leaves when it may, and the ones behind it keep their order (R188). -/
def releaseWaiting (src dst vc : Nat) (s : State) : State :=
  match s.bough.waiting.find? (fun p => p.src = src && p.dst = dst && p.vc = vc) with
  | some p =>
    if mayLeave s p then leave p { s with bough := { s.bough with waiting := s.bough.waiting.erase p } } else s
  | none => s

/-- A waiting VC0 packet leaves once both allowances suffice (R196). -/
def execContractMeterRelease (src dst : Nat) (s : State) : Host.Outcome State Fault Refusal :=
  .next (releaseWaiting src dst 0 s)

/-- A waiting request leaves once its response slots are free (R189). -/
def execResponseSlotReserved (src dst : Nat) (s : State) : Host.Outcome State Fault Refusal :=
  .next (releaseWaiting src dst 2 s)

/-! ### On the way -/

/-- The outputs of a packet on the Bough. -/
def packetPath (p : Packet) : List Output := pathOf p.src p.dst p.tdir

/-- Packet `i` on the Bough removed. -/
def dropNet (i : Nat) (s : State) : State := { s with net := s.net.eraseIdx i }

/-- The answer that a router or a bridge gives in a request's place, at the requester's own interface; a vestige check
is answered by a RETRACT of LEN 0 (07 R232). -/
def bounce (p : Packet) (status : Nat) (s : State) : State :=
  if p.op = 1 ∧ p.src % 256 = 3 ∧ p.dst % 256 = 3 ∧ p.addr % 64 = 2 then
    { s with net := s.net ++ [{ op := 7, vc := 3, dst := p.src, src := p.src, tag := p.tag, addr := p.addr / 64 * 64, len := 0,
                                status := status }] }
  else if p.op = 1 ∨ p.op = 2 then { s with net := s.net ++ [{ responseTo p status [] false with src := p.src }] }
  else s

/-- A router finds HOPS at zero: the packet is discarded, a non-posted request is answered NO_ROUTE (R187). Each
output on the path stands for one router. -/
def execHopsExpired (i : Nat) (s : State) : Host.Outcome State Fault Refusal :=
  .next (match s.net[i]? with
    | none => s
    | some p =>
      match (packetPath p)[p.hops]? with
      | none => s
      | some o => bounce p 0x06 (bghCnt ((outputDies o).headD 0) 2 (dropNet i s)))

/-- A packet whose OP is unlisted is discarded at the first router and counted in BGH_NOROUTE of its die (R181). -/
def execBadOpDiscard (i : Nat) (s : State) : Host.Outcome State Fault Refusal :=
  .next (match s.net[i]? with
    | none => s
    | some p => if 1 ≤ p.op ∧ p.op ≤ 9 then s else bghCnt (p.src / 256) 1 (dropNet i s))

/-- What the bridge of a DOWN link does with a packet (R192): a non-posted request is answered ABSENT, a posted
write is discarded and counted, and a response cut there reaches its requester with status ABSENT. -/
def bridgeDiscard (die : Nat) (p : Packet) (s : State) : State :=
  if p.op = 1 ∨ p.op = 2 then bounce p stAbsent (bghCnt die 3 s)
  else if p.op = 4 ∨ p.op = 5 then
    let s1 := bghCnt die 3 s
    { s1 with net := s1.net ++ [{ p with src := p.dst, status := stAbsent, data := [], poison := true, cut := true }] }
  else if p.op = 3 then bghCnt die 4 s
  else s

/-- An output crosses a unit that is DOWN. -/
def outputLost (s : State) (o : Output) : Bool :=
  match outputUnit o with
  | some (d, u) => unitDown s d u
  | none => false

/-- A packet meets a DOWN port: it turns onto the other trunk direction when ALT_OK = 1 and TURNED = 0, else it is
discarded under R192 (R193). -/
def execTrunkTurn (i : Nat) (s : State) : Host.Outcome State Fault Refusal :=
  .next (match s.net[i]? with
    | none => s
    | some p =>
      match (packetPath p).find? (outputLost s) with
      | none => s
      | some (.trunk d t) =>
        if p.altOk ∧ !p.turned then
          bghCnt d 5 { s with net := s.net.set i { p with tdir := 1 - t, turned := true } }
        else bridgeDiscard d p (dropNet i s)
      | some o => bridgeDiscard ((outputDies o).headD 0) p (dropNet i s))

/-- A design station in sink mode leaves a response untaken for 64 cycles: it is discarded, counted, and
FLOW_SINK_VIOLATION is raised (R190). -/
def execSinkViolation (station : Nat) (s : State) : Host.Outcome State Fault Refusal :=
  .next (if !(isDesign station && inSink s station) then s
    else match s.bough.inbox.find? (fun p => p.dst = station && p.vc = 1) with
      | none => s
      | some p =>
        let s1 := bghCnt (station / 256) 6 { s with bough := { s.bough with inbox := s.bough.inbox.erase p } }
        let r := raiseSince 0x0404 2 0 (sget 0 s1.bough.sinkSince station + 1) (fun n => [word station, word n]) s1
        { r.2 with bough := { r.2.bough with sinkSince := sset 0 r.2.bough.sinkSince station r.1 } })

end Sys2Proof.Machine
end

