-- ==== Sys2Proof/Machine/HomeOps.lean ====
section
/-!
DEFINITION. Home directories as operations: entries, withdrawals, surrenders, and what a home answers once memory has
served a request (07 R220, R225-R230, R232).
-/
namespace Sys2Proof.Machine

/-! ### Packets and lines -/

/-- Station of a grove's remote cache and home directory. -/
def rmcStation (g : Nat) : Nat := 256 * (8 + g) + 3
/-- Line ADDR[37:6] of an address. -/
def lineOf (addr : Nat) : Nat := addr % 0x4000000000 / 64
/-- The lines a packet touches; a cache message touches one. -/
def pktLines (p : Packet) : List Nat :=
  if p.dst % 256 = 3 then [lineOf p.addr]
  else (upto (lineOf (p.addr % 0x4000000000 + p.len - 1) + 1 - lineOf p.addr)).map (fun i => lineOf p.addr + i)
/-- Grove of the cache that sent a message. -/
def cacheOf (p : Packet) : Nat := p.src / 256 - 8
/-- The packet is a cache's message to a home: RD or WR to station 0x03 of the home of its address. -/
def isCacheMsg (p : Packet) : Bool :=
  p.dst % 256 = 3 && isGroveDie (p.dst / 256) && (p.op = 1 || p.op = 2) && p.src % 256 = 3
/-- The packet is an access that reaches a channel station on VC2. -/
def isChanAccess (p : Packet) : Bool :=
  isGroveDie (p.dst / 256) && (p.dst % 256 = 1 || p.dst % 256 = 2) && (1 ≤ p.op && p.op ≤ 3) && p.vc = 2
/-- The packet is for the home directory of a grove. -/
def atHome (g : Nat) (p : Packet) : Bool := p.dst / 256 = 8 + g && (isCacheMsg p || isChanAccess p)
/-- The block is gated or under reset, so that whatever needs it waits (R574, R575). -/
def rmcWaits (s : State) (g : Nat) : Bool :=
  !rdB s (clkBlk (8 + g) + 0x10) 6 || rdB s (clkBlk (8 + g) + 0x108) 6

/-- A packet on VC3, its direction taken from its sender's route entry. -/
def launch3 (p : Packet) (s : State) : State :=
  let e := (routeOf s p.src p.dst).toNat
  launch { p with vc := 3, tdir := nfld e 29 29, altOk := e.testBit 28, hops := nfld e 15 8 } s

/-! ### Entries (R225) -/

def dirBase (g line : Nat) : Nat := (g * 65536 + line % 65536) * 16
def dirAt (s : State) (key : Nat) : DirEntry := sget {} s.rmc.dir key
def setDir (key : Nat) (e : DirEntry) (s : State) : State := { s with rmc := { s.rmc with dir := sset {} s.rmc.dir key e } }
/-- Key of the entry of a line. -/
def dirFind (s : State) (g line : Nat) : Option Nat :=
  ((upto 16).map (dirBase g line + ·)).find? (fun k => (dirAt s k).valid && (dirAt s k).line = line)
/-- A free way of a line's set. -/
def dirFree (s : State) (g line : Nat) : Option Nat :=
  ((upto 16).map (dirBase g line + ·)).find? (fun k => !(dirAt s k).valid)
/-- The entry of a line, empty when it has none. -/
def dirOf (s : State) (g line : Nat) : DirEntry :=
  match dirFind s g line with
  | some k => dirAt s k
  | none => {}
/-- Groves of a holder mask. -/
def holdersOf (e : DirEntry) : List Nat := (upto 8).filter (fun h => e.valid && e.holders.testBit h)
/-- Clear bit `h` of a mask. -/
def dropBit (m h : Nat) : Nat := if m.testBit h then m - 2 ^ h else m

/-- A holder removed; an entry without holders is free. -/
def removeHolder (g line h : Nat) (s : State) : State :=
  match dirFind s g line with
  | none => s
  | some k =>
    let e := dirAt s k
    let m := dropBit e.holders h
    setDir k (if m = 0 then {} else { e with holders := m, owned := e.owned && e.owner ≠ h }) s
/-- The owner keeps the line in S. -/
def shareOwner (g line : Nat) (s : State) : State :=
  match dirFind s g line with
  | none => s
  | some k => setDir k { dirAt s k with owned := false, owner := 0 } s
/-- A cache recorded as holder, alone and in M for a read-exclusive. -/
def addHolder (g line h : Nat) (excl : Bool) (s : State) : State :=
  let use := s.rmc.clockUse + 1
  let s1 := { s with rmc := { s.rmc with clockUse := use } }
  match (dirFind s1 g line).orElse (fun _ => dirFree s1 g line) with
  | none => s1
  | some k =>
    let e := dirAt s1 k
    let m := if e.valid then e.holders else 0
    setDir k { valid := true, line := line, holders := if excl then 2 ^ h else m ||| 2 ^ h, owned := excl || (e.valid && e.owned),
               owner := if excl then h else if e.valid && e.owned then e.owner else 0, used := use } s1

/-- A free entry taken for a line that has none. -/
def reserveEntry (g line : Nat) (s : State) : State :=
  match dirFind s g line, dirFree s g line with
  | none, some k => setDir k { valid := true, line := line, used := s.rmc.clockUse } s
  | _, _ => s
/-- An entry without holders freed. -/
def dropEmpty (g line : Nat) (s : State) : State :=
  match dirFind s g line with
  | some k => if (dirAt s k).holders = 0 then setDir k {} s else s
  | none => s

/-! ### Withdrawals (R226, R227) -/

/-- Withdrawal kinds. -/
def wdStale : Nat := 0
def wdShare : Nat := 1
def wdDrop : Nat := 2
def wdRelease : Nat := 3

/-- The withdrawals that a request needs before it is performed: line, holder, kind. -/
def needs (s : State) (g : Nat) (p : Packet) : List (Nat × Nat × Nat) :=
  let cache := isCacheMsg p
  let kind := p.addr % 64
  (pktLines p).flatMap (fun l =>
    let e := dirOf s g l
    if cache ∧ p.op = 2 then []
    else if cache ∧ kind = 1 then
      ((holdersOf e).filter (· ≠ cacheOf p)).map (fun h => (l, h, if e.owned ∧ e.owner = h then wdDrop else wdStale))
    else if p.op = 1 then
      (if e.valid ∧ e.owned ∧ !(cache && e.owner = cacheOf p) then [(l, e.owner, wdShare)] else [])
    else (holdersOf e).map (fun h => (l, h, if e.owned ∧ e.owner = h then wdDrop else wdStale)))

/-- A withdrawal sent to a holder. -/
def withdraw (g : Nat) (x : Nat × Nat × Nat) (s : State) : State :=
  launch3 { op := 7, vc := 3, dst := rmcStation x.2.1, src := rmcStation g, addr := g * 0x4000000000 + x.1 * 64 + x.2.2, len := 0 } s

/-- A write of a whole line that the home itself makes, ahead of every request that waits. -/
def homeWrite (g line : Nat) (data : List Byte) (poison : Bool) (s : State) : State :=
  let a := g * 0x4000000000 + line * 64
  let p : Packet := { op := 3, vc := 2, dst := stationOf s a, src := rmcStation g, addr := a, len := 64,
                      data := (data ++ List.replicate 64 0).take 64, poison := poison }
  { s with rmc := { s.rmc with homeReqs := { home := g, pkt := p } :: s.rmc.homeReqs } }

/-- A holder's copy of a line has ended, or its owner shares it: what awaited it goes on (R227, R228). -/
def endAwaits (g line h : Nat) (s : State) : State :=
  let keep (x : Nat × Nat × Nat) : Bool := !(x.1 = line && x.2.1 = h)
  let ev := s.rmc.evicts.map (fun e => if e.home = g then { e with awaits := e.awaits.filter keep } else e)
  let s1 := { s with rmc := { s.rmc with
    homeReqs := s.rmc.homeReqs.map (fun r => if r.home = g then { r with awaits := r.awaits.filter keep } else r),
    evicts := ev.filter (fun e => e.awaits ≠ []) } }
  (ev.filter (fun e => e.awaits = [])).foldl (fun t e => cnt (setDir e.key {} t) (rmcBlk e.home + 0x2C)) s1

/-- RMC_VC0_CONFLICT: the line is written as poisoned (R229). -/
def vc0Conflict (g line addr : Nat) (s : State) : State :=
  raise 0x0889 2 (rmcStation g) [word g, lo32 addr, hi32 addr]
    (homeWrite g line [] true (cnt s (rmcBlk g + 0x38)))

/-- A surrender or a recall's answer of holder `h`, with the line's bytes when it held the line in M. An answer of no
bytes from a recorded owner ends nothing: its write-back is on its way (R227). -/
def surrender (g line h : Nat) (data : Option (List Byte)) (poison : Bool) (s : State) : State :=
  let e := dirOf s g line
  let shared := s.rmc.homeReqs.any (fun r => r.home = g && r.awaits.contains (line, h, wdShare))
  let pulled := s.rmc.recalls.find? (fun r => r.home = g && r.line = line && r.holder = h)
  match data with
  | none =>
    if e.valid ∧ e.owned ∧ e.owner = h then s else endAwaits g line h (removeHolder g line h s)
  | some d =>
    let s1 := endAwaits g line h (if shared then shareOwner g line s else removeHolder g line h s)
    match pulled with
    | some r => vc0Conflict g line r.addr { s1 with rmc := { s1.rmc with recalls := s1.rmc.recalls.erase r } }
    | none => homeWrite g line d poison s1

/-! ### What a home answers (R226, R230, R232) -/

/-- A STATUS POISON answer of the directory counts in RMC_POISON. -/
def countPoison (g : Nat) (poison : Bool) (s : State) : State := if poison then cnt s (rmcBlk g + 0x3C) else s

/-- A cache's message answered once memory has served it. -/
def homeAnswer (p : Packet) (data : List Byte) (poison : Bool) (s : State) : State :=
  let g := p.dst / 256 - 8
  let l := lineOf p.addr
  let k := cacheOf p
  let s0 := countPoison g (poison && p.op = 1) s
  if p.op = 2 then
    let s1 := endAwaits g l k (removeHolder g l k s0)
    let s2 := match s1.rmc.recalls.find? (fun r => r.home = g && r.line = l && r.holder = k) with
      | some r => vc0Conflict g l r.addr { s1 with rmc := { s1.rmc with recalls := s1.rmc.recalls.erase r } }
      | none => s1
    respond p 0 [] s2
  else if p.addr % 64 = 2 then
    let ans (op : Nat) (d : List Byte) (st : Nat) : Packet :=
      { op := op, vc := 3, dst := p.src, src := p.dst, tag := p.tag, addr := g * 0x4000000000 + l * 64, len := d.length,
        data := d, status := st, poison := st = stPoison }
    if poison then launch3 (ans 7 [] stPoison) (dropEmpty g l s0)
    else
      let s1 := addHolder g l k false s0
      if data = p.data then launch3 (ans 6 [] 0) s1 else launch3 (ans 7 data 0) s1
  else if poison then respond p stPoison [] (dropEmpty g l s0)
  else respond p 0 data (addHolder g l k (p.addr % 64 = 1) s0)

/-! ### Loss of a cache or of a home (R220, R575) -/

/-- The directory of home `k` loses holder `g`: its M lines are written as poisoned. -/
def ownerLost (k g : Nat) (s : State) : State :=
  let es := s.rmc.dir.filter (fun (e : Nat × DirEntry) => e.1 / 1048576 = k && e.2.valid && e.2.holders.testBit g)
  let owned := es.filter (fun (e : Nat × DirEntry) => e.2.owned && e.2.owner = g)
  let s1 := es.foldl (fun t (e : Nat × DirEntry) => endAwaits k e.2.line g (removeHolder k e.2.line g t)) s
  let s2 := owned.foldl (fun t (e : Nat × DirEntry) => cnt (homeWrite k e.2.line [] true t) (rmcBlk k + 0x34)) s1
  let s3 := { s2 with rmc := { s2.rmc with recalls := s2.rmc.recalls.filter (fun r => !(r.home = k && r.holder = g)) } }
  if owned = [] then s3 else raise 0x0887 2 (rmcStation k) [word k, word g, word owned.length] s3

/-- Every other grove's home loses the cache of grove `g`. -/
def cacheLost (g : Nat) (s : State) : State := ((upto 8).filter (· ≠ g)).foldl (fun t k => ownerLost k g t) s

/-- The directory of grove `g` empties; what awaited surrenders goes on. -/
def dirEmpty (g : Nat) (s : State) : State :=
  { s with rmc := { s.rmc with
      dir := sdrop s.rmc.dir (fun k => k / 1048576 = g),
      homeReqs := s.rmc.homeReqs.map (fun r => if r.home = g then { r with awaits := [] } else r),
      evicts := s.rmc.evicts.filter (fun e => e.home ≠ g), recalls := s.rmc.recalls.filter (fun r => r.home ≠ g) } }

end Sys2Proof.Machine
end

