-- ==== Sys2Proof/Machine/DramOps.lean ====
section
/-!
DEFINITION. Codewords, reads and writes of DRAM lines, the logs, and the parts of an access (12 R366-R388).
-/
namespace Sys2Proof.Machine

/-! ### The code (12 R377, R379) -/

/-- Multiplication by α in GF(2^8). -/
def gfX (a : Nat) : Nat := if a < 128 then 2 * a else (2 * a % 256) ^^^ 0x1D
/-- Multiplication in GF(2^8), over the low `k` bits of `b`. -/
def gfMulB : Nat → Nat → Nat → Nat
  | 0, _, _ => 0
  | k + 1, a, b => (if b % 2 = 1 then a else 0) ^^^ gfMulB k (gfX a) (b / 2)
def gfMul (a b : Nat) : Nat := gfMulB 8 a b
/-- α^i. -/
def gfAlpha : Nat → Nat
  | 0 => 1
  | i + 1 => gfX (gfAlpha i)
/-- The inverse, a^254. -/
def gfInv (a : Nat) : Nat :=
  let a2 := gfMul a a
  let a4 := gfMul a2 a2
  let a8 := gfMul a4 a4
  let a16 := gfMul a8 a8
  let a32 := gfMul a16 a16
  let a64 := gfMul a32 a32
  let a128 := gfMul a64 a64
  gfMul a128 (gfMul a64 (gfMul a32 (gfMul a16 (gfMul a8 (gfMul a4 a2)))))

def syn0 (l : List Nat) : Nat := l.foldr (fun c a => a ^^^ c) 0
def syn1 (l : List Nat) : Nat := l.foldr (fun c a => gfX a ^^^ c) 0
/-- Check positions p and q. -/
def checkPos (x8 : Bool) : Nat × Nat := if x8 then (8, 17) else (16, 17)

/-- The check symbols that make a codeword of 18 symbols valid, its check positions holding zero. -/
def addChecks (x8 : Bool) (l : List Nat) : List Nat :=
  let p := (checkPos x8).1
  let q := (checkPos x8).2
  let cq := gfMul (syn1 l ^^^ gfMul (syn0 l) (gfAlpha p)) (gfInv (gfAlpha p ^^^ gfAlpha q))
  (l.set q cq).set p (syn0 l ^^^ cq)

/-- Symbols of 16 data bytes (R377). -/
def encodeCw (x8 : Bool) (b : List Byte) : List Nat :=
  let y (i : Nat) : Nat := (b.getD i 0).toNat
  let nib (n i : Nat) : Nat := if i % 2 = 0 then n % 16 else n / 16
  addChecks x8 (if x8 then (upto 8).map y ++ [0] ++ (upto 8).map (fun i => y (8 + i)) ++ [0]
    else (upto 16).map (fun i => nib (y (8 + i / 2)) i * 16 + nib (y (i / 2)) i) ++ [0, 0])

/-- The 16 data bytes of a codeword. -/
def decodeCw (x8 : Bool) (l : List Nat) : List Byte :=
  let c (i : Nat) : Nat := l.getD i 0
  (if x8 then (upto 8).map c ++ (upto 8).map (fun i => c (9 + i))
   else (upto 8).map (fun i => c (2 * i) % 16 + c (2 * i + 1) % 16 * 16)
        ++ (upto 8).map (fun i => c (2 * i) / 16 + c (2 * i + 1) / 16 * 16)).map (BitVec.ofNat 8 ·)

/-- The poison marker. -/
def markerCw (x8 : Bool) : List Nat :=
  ((List.replicate 18 0).set (checkPos x8).1 0x5A).set (checkPos x8).2 0x5A

/-- What a decode finds (R378). -/
inductive Finding where
  | clean
  | corrected (pos err : Nat)
  | marker
  | bad
  deriving DecidableEq, Repr

def cwClass (x8 : Bool) (l : List Nat) : Finding :=
  let a := syn0 l
  let b := syn1 l
  if a = 0 then
    (if b = 0 then .clean
     else if b = gfMul 0x5A (gfAlpha (checkPos x8).1 ^^^ gfAlpha (checkPos x8).2) then .marker
     else .bad)
  else match (upto 18).find? (fun j => gfMul a (gfAlpha j) = b) with
    | some j => .corrected j a
    | none => .bad

/-! ### Cells -/

def isX8 (s : State) (c : Nat) : Bool := rdB s (memBlk c + 4) 25
def cellKey (c line k : Nat) : Nat := c * 2 ^ 34 + line * 4 + k

/-- The stored symbols of a codeword. One that no write has reached holds unknown data (R385), kept from then on; in a
built tree it holds what the build left (13 R394). -/
def cellAt (c line k : Nat) (s : State) : List Nat × State :=
  match sget [] s.dram.cells (cellKey c line k) with
  | [] =>
    match builtLine s c line with
    | some b => (encodeCw (isX8 s c) ((b.drop (16 * k)).take 16), s)
    | none =>
      let l := (upto 18).map (fun i => (Config.freeByte (s.fresh + i)).toNat)
      (l, { s with fresh := s.fresh + 18,
                   dram := { s.dram with cells := sset [] s.dram.cells (cellKey c line k) l } })
  | l => (l, s)

def setCell (c line k : Nat) (l : List Nat) (s : State) : State :=
  { s with dram := { s.dram with cells := sset [] s.dram.cells (cellKey c line k) l } }

/-- Row, bank, bank group and logical rank of a line (R367). -/
def rowBits (s : State) (c : Nat) : Nat := 15 + rdF s (memBlk c + 4) 23 22
def rowOf (s : State) (c line : Nat) : Nat := nfld (line * 64) (16 + rowBits s c) 17
def bgOf (s : State) (c line : Nat) : Nat := nfld (line * 64) 7 6 ^^^ rowOf s c line % 4
def bankOf (s : State) (c line : Nat) : Nat := nfld (line * 64) 16 15 ^^^ rowOf s c line / 4 % 4
def rankOf (s : State) (c line : Nat) : Nat := (line * 64) >>> (17 + rowBits s c)
def columnOf (line : Nat) : Nat := nfld (line * 64) 14 8 * 8
/-- A bank of a channel: logical rank, bank group and bank. -/
def bankKey (s : State) (c line : Nat) : Nat := rankOf s c line * 16 + bgOf s c line * 4 + bankOf s c line

/-! ### Findings (R378, R387, R388) -/

def logAddr (c i w : Nat) : Nat := memBlk c + 0x100 + 16 * i + 4 * w
/-- Second word of a log entry for a finding. -/
def logPlace (s : State) (c line k pos : Nat) : Word :=
  word (rowOf s c line + bankOf s c line * 2 ^ 18 + bgOf s c line * 2 ^ 20 + rankOf s c line * 2 ^ 22 + k * 2 ^ 25
    + pos * 2 ^ 27)

/-- CE_LOG_ENTRY: a correctable finding is logged, repeats an entry, or is lost with OVF (R388). -/
def logCorrected (c line k pos err src : Nat) (s : State) : State :=
  let s1 := cnt s (memCnt c 0)
  let n := rdF s1 (memBlk c + 0x18) 4 0
  let w1 := logPlace s1 c line k pos
  match (upto n).find? (fun i => rd s1 (logAddr c i 0) = word line && rd s1 (logAddr c i 1) = w1) with
  | some i => wrF s1 (logAddr c i 2) 31 16 (min 65535 (rdF s1 (logAddr c i 2) 31 16 + 1))
  | none =>
    if n < 16 then
      let s2 := wr (wr s1 (logAddr c n 0) (word line)) (logAddr c n 1) w1
      let s3 := wr (wr s2 (logAddr c n 2) (word (err + src * 2 ^ 8))) (logAddr c n 3) (word (stamp s2 s2.ward.evtTb).1)
      wrF s3 (memBlk c + 0x18) 4 0 (n + 1)
    else
      let s2 := cnt s1 (memCnt c 2)
      if rdB s2 (memBlk c + 0x18) 31 then s2
      else raiseMem 0x0704 1 c [rd s2 (memCnt c 0)] (wrB s2 (memBlk c + 0x18) 31 true)

/-- MEM_UE_LAST and its info for an uncorrectable or poison finding. -/
def noteUe (c line k src : Nat) (marker : Bool) (s : State) : State :=
  wr (wr s (memBlk c + 0x50) (word line)) (memBlk c + 0x54) (word (src * 8 + b2n marker * 4 + k))

/-- MEM_UE, at most once per millisecond and channel (R391). -/
def raiseUe (c : Nat) (s : State) : State :=
  let x := chanAt s c
  let soon := match x.ueLast with
    | some t => decide (s.tu.tick < t + tickMs)
    | none => false
  if soon then setChan c { x with ueSince := x.ueSince + 1 } s
  else
    raiseMem 0x0703 2 c [rd s (memBlk c + 0x50), rd s (memBlk c + 0x54), word (x.ueSince + 1)]
      (setChan c { x with ueSince := 0, ueLast := some s.tu.tick } s)

/-- The injection point of the DRAM code names this channel. -/
def dramPointHere (s : State) (c : Nat) : Bool := injTarget s (chanDie c) 2 % 2 = c % 2
/-- A finding in codeword 0 of a line that the point altered (19 R565). -/
def dramFinding (c line k : Nat) (s : State) : State :=
  if k = 0 ∧ dramPointHere s c then findingAt (chanDie c) 2 line s else s

/-- A codeword replaced whole leaves the injection point's list (19 R565). -/
def putCw (c line k : Nat) (l : List Nat) (s : State) : State :=
  setCell c line k l (if k = 0 ∧ dramPointHere s c then whereFree (chanDie c) 2 line s else s)

/-- One codeword of a read, decoded and acted on: data, poisoned, corrected. -/
def readCw (c line src k : Nat) (s : State) : (List Byte × Bool × Bool) × State :=
  let x8 := isX8 s c
  let r := cellAt c line k s
  match cwClass x8 r.1 with
  | .clean => ((decodeCw x8 r.1, false, false), r.2)
  | .corrected pos err =>
    let good := r.1.set pos (r.1.getD pos 0 ^^^ err)
    let s1 := countCorr (chanDie c) (dramFinding c line k (logCorrected c line k pos err src r.2))
    let s2 := modChan c (fun x => { x with
      writeBacks := x.writeBacks.filter (fun w => !(w.1 = line && w.2.1 = k)) ++ [(line, k, good)],
      passCorr := x.passCorr + b2n (src = 1) }) s1
    ((decodeCw x8 good, false, true), s2)
  | .marker => ((List.replicate 16 0, true, false), noteUe c line k src true r.2)
  | .bad =>
    let s1 := noteUe c line k src false (cnt r.2 (memCnt c 1))
    let s2 := countUncorr (chanDie c) (dramFinding c line k s1)
    let s3 := modChan c (fun x => { x with passUncorr := x.passUncorr + b2n (src = 1) }) s2
    ((List.replicate 16 0, true, false), raiseUe c (putCw c line k (markerCw x8) s3))

/-- What a read of a line gives: bytes, poisoned codewords, and whether some codeword was corrected. -/
structure LineRead where
  bytes : List Byte := []
  bad : List Bool := []
  corrected : Bool := false

/-- DRAM_READ_DECODE of a line, all four codewords (R378). `src`: 0 read, 1 scrub, 2 read-modify-write. -/
def readLine (c line src : Nat) (s : State) : LineRead × State :=
  (upto 4).foldl (fun (a : LineRead × State) k =>
    let r := readCw c line src k a.2
    ({ bytes := a.1.bytes ++ r.1.1, bad := a.1.bad ++ [r.1.2.1], corrected := a.1.corrected || r.1.2.2 }, r.2)) ({}, s)

/-- A line write of the channel: an armed point 0x02 alters its codeword 0 (19 R560, R561). -/
def injectLine (c line : Nat) (s : State) : State :=
  let d := chanDie c
  if !dramPointHere s c then s
  else
    let r := inject d 2 s
    if !r.1 then r.2
    else
      let p := injPattern r.2 d 2
      let x := cellAt c line 0 r.2
      let flip (l : List Nat) (i e : Nat) : List Nat := if i < 18 then l.set i (l.getD i 0 ^^^ e) else l
      let l1 := flip x.1 (nfld p 12 8) (nfld p 7 0)
      let l2 := if p.testBit 31 then flip l1 (nfld p 28 24) (nfld p 23 16) else l1
      whereAdd d 2 line (setCell c line 0 l2 x.2)

/-- Whole codewords of a line written. -/
def writeCws (c line : Nat) (l : List (Nat × List Byte)) (s : State) : State :=
  injectLine c line (l.foldl (fun t x => putCw c line x.1 (encodeCw (isX8 t c) x.2) t) s)
/-- A whole line written. -/
def writeLine (c line : Nat) (b : List Byte) (s : State) : State :=
  writeCws c line ((upto 4).map (fun k => (k, (b.drop (16 * k)).take 16))) s
/-- The marker written into every codeword of a line (R379). -/
def poisonLine (c line : Nat) (s : State) : State :=
  injectLine c line ((upto 4).foldl (fun t k => putCw c line k (markerCw (isX8 t c)) t) s)

/-- Bytes placed over a list from a position on. -/
def overlay (l : List Byte) (pos : Nat) (b : List Byte) : List Byte := l.take pos ++ b ++ l.drop (pos + b.length)

/-- A codeword that bytes [off, off + len) of a line cover in part, or touch at all. -/
def cwPartly (off len k : Nat) : Bool :=
  decide (off < 16 * k + 16 ∧ 16 * k < off + len) && !(decide (off ≤ 16 * k ∧ 16 * k + 16 ≤ off + len))
def cwTouched (off len k : Nat) : Bool := decide (off < 16 * k + 16 ∧ 16 * k < off + len)
/-- The write covers whole codewords only. -/
def wholeCws (off len : Nat) : Bool := (upto 4).all (fun k => !cwPartly off len k)

/-! ### Parts of an access -/

def accessAt (s : State) (id : Nat) : Option Access := s.dram.accesses.find? (fun a => a.id = id)

/-- An access that memory has served whole is answered: by the directory for a cache's message, else by the channel's
station (07 R226; 12 R379). -/
def answerAccess (a : Access) (s : State) : State :=
  let s1 := { s with dram := { s.dram with accesses := s.dram.accesses.filter (fun x => x.id ≠ a.id) } }
  let d := if a.pkt.op = 1 ∧ !a.poison then (upto a.pkt.len).map (sget 0 a.data) else []
  if isCacheMsg a.pkt then homeAnswer a.pkt d a.poison s1
  else respond a.pkt (if a.poison then stPoison else stOk) d s1

/-- One part of an access served. -/
def endPart (e : DramEntry) (data : List Byte) (poison : Bool) (s : State) : State :=
  match accessAt s e.acc with
  | none => s
  | some a =>
    let d := (upto data.length).foldl (fun m i => sset 0 m (e.pos + i) (data.getD i 0)) a.data
    let a' := { a with data := d, poison := a.poison || poison, left := a.left - 1 }
    if a'.left = 0 then answerAccess a' s
    else { s with dram := { s.dram with accesses := s.dram.accesses.map (fun x => if x.id = a.id then a' else x) } }

/-- A posted access. -/
def entryPosted (s : State) (e : DramEntry) : Bool :=
  match accessAt s e.acc with
  | some a => a.pkt.op = 3
  | none => true

/-- A plain read of a line: its answer is poisoned when a codeword that it touches is (R379). -/
def plainRead (c : Nat) (e : DramEntry) (s : State) : State :=
  let r := readLine c e.line 0 s
  let bad := (upto 4).any (fun k => cwTouched e.off e.len k && r.1.bad.getD k false)
  endPart e (if bad then [] else (r.1.bytes.drop e.off).take e.len) bad r.2

/-- A plain write of whole codewords, or of a poisoned payload. -/
def plainWrite (c : Nat) (e : DramEntry) (s : State) : State :=
  endPart e [] false (if e.poison then poisonLine c e.line s
    else writeCws c e.line (((upto 4).filter (cwTouched e.off e.len)).map
      (fun k => (k, (e.data.drop (16 * k - e.off)).take 16))) s)

/-- DRAM_RMW of a line (R381). -/
def plainRmw (c : Nat) (e : DramEntry) (s : State) : State :=
  let part := (upto 4).filter (cwPartly e.off e.len)
  let r := readLine c e.line 2 s
  let s1 := cntBy r.2 (memCnt c 4) part.length
  if part.any (fun k => r.1.bad.getD k false) then
    endPart e [] true (if entryPosted s1 e then cnt s1 (memCnt c 3) else s1)
  else
    let b := overlay r.1.bytes e.off e.data
    endPart e [] false (writeCws c e.line (((upto 4).filter (cwTouched e.off e.len)).map
      (fun k => (k, (b.drop (16 * k)).take 16))) s1)

/-! ### The queue of a channel (R368, R369, R376) -/

/-- The real-time port is in panic. -/
def inPanic (s : State) (c : Nat) : Bool := rdB s (memBlk c) 23
/-- MEM_RT.FILL and PANIC follow the real-time buffer (R376). -/
def showRt (c : Nat) (s : State) : State :=
  let n := (chanAt s c).rt.length
  let lvl := rdF s (memBlk c + 0xC) 26 16
  let p := decide (lvl ≤ n) || (inPanic s c && decide (lvl < 2 * n))
  wrB (wrF s (memBlk c + 0xC) 10 0 n) (memBlk c) 23 p

/-- An access to the line waits for the fill (R386). -/
def behindFill (x : Channel) (line : Nat) : Bool :=
  match x.fill with
  | some f => decide (f.next ≤ line ∧ line ≤ f.last)
  | none => false

/-- Entry `i` may be served: no earlier entry names its line, and no fill holds it. -/
def servable (x : Channel) (i : Nat) : Bool :=
  match x.queue[i]? with
  | some e => !(x.queue.take i).any (fun q => q.line = e.line) && !behindFill x e.line
  | none => false

/-- Indices of the servable entries of a kind. -/
def servables (x : Channel) (write : Bool) : List Nat :=
  (upto x.queue.length).filter (fun i => servable x i && (match x.queue[i]? with
    | some e => e.write = write
    | none => false))

/-- The mode of the channel: write mode from 96 write entries, or while no read can be served, until they fall to 32
with reads waiting (R369). -/
def channelMode (x : Channel) : Bool :=
  let w := (x.queue.filter (·.write)).length
  let noRead := servables x false = []
  if x.writeMode then !(decide (w ≤ 32) && !noRead) else decide (96 ≤ w) || noRead

/-- The request that a bank serves next: the oldest to the open row, else the oldest; after 16 row hits ahead of a
waiting request, that request (R369). -/
def pick (s : State) (c bank : Nat) : Option Nat :=
  let x := chanAt s c
  if chanState s c ≠ 0x93 ∨ x.parityLow ∨ (inPanic s c ∧ x.rt ≠ []) ∨ 8 ≤ sget 0 x.owed (bank / 16) then none
  else
    let l := (servables x (channelMode x)).filter (fun i => match x.queue[i]? with
      | some e => bankKey s c e.line = bank
      | none => false)
    let hit := l.find? (fun i => match x.queue[i]? with
      | some e => sget none x.rows bank = some (rowOf s c e.line)
      | none => false)
    match l, hit with
    | [], _ => none
    | i :: _, none => some i
    | i :: _, some h => if 16 ≤ sget 0 x.hits bank ∧ h ≠ i then some i else some h

/-- The entry is taken from the queue: its row opens, and hits ahead of an older request are counted. -/
def takeEntry (c bank i : Nat) (s : State) : State :=
  let x := chanAt s c
  match x.queue[i]? with
  | none => s
  | some e =>
    let row := rowOf s c e.line
    let older := (x.queue.take i).any (fun q => bankKey s c q.line = bank)
    let h := if sget none x.rows bank = some row ∧ older then sget 0 x.hits bank + 1 else 0
    setChan c { x with queue := x.queue.eraseIdx i, writeMode := channelMode x, rows := sset none x.rows bank (some row),
                       hits := sset 0 x.hits bank h } s

/-- The region or metadata area that a line lies in: none outside every region. -/
def lineRegion (s : State) (c line : Nat) : Option Nat := regionAt s (c / 2) (offsetOf s c (line * 64))
def lineMeta (s : State) (c line : Nat) : Option Nat := metaAt s (c / 2) (offsetOf s c (line * 64))
def linePlain (s : State) (c line : Nat) : Bool := (lineRegion s c line).isNone && (lineMeta s c line).isNone

/-- The request that a bank serves next taken and given to `f`, when it is of the kind that a command names. -/
def servePicked (c bank : Nat) (kind : State → DramEntry → Bool) (f : DramEntry → State → State) (s : State) : State :=
  match pick s c bank with
  | none => s
  | some i =>
    match (chanAt s c).queue[i]? with
    | none => s
    | some e => if kind s e then f e (takeEntry c bank i s) else s

/-! ### The map (R366) -/

/-- MEM_MAP for the capacities in log form and the mode of each half. -/
def setMap (g c0 c1 mode : Nat) (s : State) : State :=
  let w := word (mode * 2 ^ 31 + c1 * 2 ^ 8 + c0)
  wr (wr s (memBlk (2 * g) + 8) w) (memBlk (2 * g + 1) + 8) w
def mapLog (s : State) (c : Nat) : Nat := rdF s (memBlk c + 8) (if c % 2 = 0 then 5 else 13) (if c % 2 = 0 then 0 else 8)
/-- MODE that the grove's channels take with the given mapped capacities. -/
def mapMode (s : State) (g c0 c1 : Nat) : Nat :=
  b2n (c0 ≠ 0 && c1 = c0 && rdB s (memBlk (2 * g) + 4) 28 && rdB s (memBlk (2 * g + 1) + 4) 28)
/-- The map rebuilt with channel `c` mapped at a capacity, or not mapped (0). -/
def remapTo (c cap : Nat) (s : State) : State :=
  let g := c / 2
  let c0 := if c % 2 = 0 then cap else mapLog s (2 * g)
  let c1 := if c % 2 = 1 then cap else mapLog s (2 * g + 1)
  setMap g c0 c1 (mapMode s g c0 c1) s
/-- A rebuild that maps `c` moves addresses of the grove's other channel, in READY. -/
def mapMoves (s : State) (c : Nat) : Bool :=
  let o := if c % 2 = 0 then c + 1 else c - 1
  let cap := rdF s (memBlk c + 4) 5 0
  let m := mapMode s (c / 2) (if c % 2 = 0 then cap else mapLog s o) (if c % 2 = 1 then cap else mapLog s o)
  chanState s o = 0x93 && chanMapped s o && (decide (m ≠ b2n (rdB s (memBlk c + 8) 31)) || (c % 2 = 0 && m = 0 && cap ≠ mapLog s c))

end Sys2Proof.Machine
end

