-- ==== Sys2Proof/Machine/EncOps.lean ====
section
/-!
DEFINITION. The encryption unit as operations: root, counter cache, nodes, line reads and writes (13 R398-R412).
-/
namespace Sys2Proof.Machine

/-- The largest counter value. -/
def clockMax : Nat := 2 ^ 64 - 1
def toggle (l : List (Nat × Nat)) (x : Nat × Nat) : List (Nat × Nat) := if l.contains x then l.erase x else l ++ [x]
/-- Differing bits of a stored word. -/
def flipsOf (l : List (Nat × Nat)) (w : Nat) : Nat := (l.filter (fun x => x.1 = w)).length
/-- Location of a node in the injection point's form: level and index; level 15 is the root. -/
def nodeLoc (k j : Nat) : Nat := k * 2 ^ 28 + j % 2 ^ 28

/-! ### Region states (R394) -/

/-- MEM_REGION_BROKEN: cause 0 root, 1 list full, 2 map change, 3 rejoin from LOST, 4 clock. -/
def breakRegion (g r cause : Nat) (s : State) : State :=
  if rgnState s g r = 0xA2 then
    raise 0x0785 3 (rmcStation g) [rgnWord g r, word cause] (setRgnState g r 0xA3 s)
  else s

/-- Broken-list entry `i`: word 0 and word 1. -/
def brokenReg (g i w : Nat) : Nat := encBlk g + 0x400 + 8 * i + 4 * w
def brokenUsed (s : State) (g : Nat) : Nat := rdF s (encBlk g) 22 16
/-- The entry names node (k, j) of the region or one above it. -/
def entryCovers (s : State) (g r k j i : Nat) : Bool :=
  let w := rd s (brokenReg g i 0)
  let l := fld w 7 4
  bit w 31 && fld w 2 0 = r && decide (k ≤ l) && decide (j / 7 ^ (l - k) = (rd s (brokenReg g i 1)).toNat)
/-- Node (k, j), or a line for k = 0, lies at or beneath a listed node (R410). -/
def beneathBroken (s : State) (g r k j : Nat) : Bool := (upto 64).any (entryCovers s g r k j)

/-- NODE_BREAK: a node is listed as broken, or with the list full its region becomes BROKEN (R410). -/
def breakNode (g r k j cause : Nat) (s : State) : State :=
  if beneathBroken s g r k j then s
  else match (upto 64).find? (fun i => !rdB s (brokenReg g i 0) 31) with
    | none => breakRegion g r 1 s
    | some i =>
      let s1 := wr (wr s (brokenReg g i 0) (word (2 ^ 31 + k * 2 ^ 4 + r))) (brokenReg g i 1) (word j)
      let s2 := wrF s1 (encBlk g) 22 16 (brokenUsed s g + 1)
      raise 0x0783 3 (rmcStation g) [rgnWord g r, word k, word j, word cause] (countUncorr (8 + g) s2)

/-! ### Root and clock (R404) -/

/-- The root words read and checked: corrected words are rewritten, an uncorrectable one makes the region BROKEN. -/
def checkRoot (g r : Nat) (s : State) : Bool × State :=
  let x := rgnAt s g r
  let bad := (upto 8).any (fun w => 2 ≤ flipsOf x.flips w)
  let one := (upto 8).filter (fun w => flipsOf x.flips w = 1)
  let s0 := if x.flips = [] then s else findingAt (8 + g) 6 (nodeLoc 15 0) s
  if bad then (false, breakRegion g r 0 (countUncorr (8 + g) s0))
  else
    (true, one.foldl (fun t _ => countCorr (8 + g) (cnt t (encCnt g 8))) (setRgn g r { x with flips := [] } s0))

/-- A word of the root or the clock written; an armed point 0x06 with TARGET[8] = 1 inverts its bits. -/
def injectRoot (g r w : Nat) (s : State) : State :=
  let t := injTarget s (8 + g) 6
  if t % 8 = r ∧ t.testBit 8 then
    let i := inject (8 + g) 6 s
    if !i.1 then i.2
    else
      let p := injPattern i.2 (8 + g) 6
      let x := rgnAt i.2 g r
      let f1 := toggle x.flips (w, nfld p 5 0)
      let f2 := if p.testBit 15 then toggle f1 (w, nfld p 13 8) else f1
      whereAdd (8 + g) 6 (nodeLoc 15 0) (setRgn g r { x with flips := f2 } i.2)
  else s

/-- A new counter value drawn from the region clock; none when the clock is exhausted or unreadable, the region then
BROKEN (R398, R413). -/
def drawCounter (g r : Nat) (s : State) : Option Nat × State :=
  let k := checkRoot g r s
  let x := rgnAt k.2 g r
  if !k.1 then (none, k.2)
  else if clockMax ≤ x.clock then (none, breakRegion g r 4 k.2)
  else (some (x.clock + 1), injectRoot g r 7 (setRgn g r { x with clock := x.clock + 1 } k.2))

/-! ### The counter cache (R405) -/

def cacheKey (g r k j : Nat) : Nat := (g * 8 + r) * 2 ^ 40 + k * 2 ^ 32 + j
def cached (s : State) (g r k j : Nat) : Option CounterLine := sget none s.dram.cache (cacheKey g r k j)
def setCached (g r k j : Nat) (x : Option CounterLine) (s : State) : State :=
  { s with dram := { s.dram with cache := sset none s.dram.cache (cacheKey g r k j) x } }
/-- Window offset of a metadata line. -/
def metaOffset (s : State) (g r k j : Nat) : Nat := levelBase s g r k + 64 * j
def cacheSet (s : State) (g r k j : Nat) : Nat := metaOffset s g r k j / 64 % 2048
/-- Region, level and index of a cache key. -/
def keyRegion (key : Nat) : Nat := key / 2 ^ 40 % 8
def keyLevel (key : Nat) : Nat := key / 2 ^ 32 % 256
def keyIndex (key : Nat) : Nat := key % 2 ^ 32
/-- Keys of the lines of a grove's cache in a set. -/
def setKeys (s : State) (g set : Nat) : List Nat :=
  skeys s.dram.cache (fun key _ => key / 2 ^ 43 = g && cacheSet s g (keyRegion key) (keyLevel key) (keyIndex key) = set)

/-- Channel and line of a metadata line. -/
def metaPlace (s : State) (g r k j : Nat) : Nat × Nat :=
  match dramAt s g (metaOffset s g r k j) with
  | some (c, ca) => (c, ca / 64)
  | none => (2 * g, 0)

/-- A 64-bit word of the cache written; an armed point 0x06 with TARGET[8] = 0 inverts its bits. -/
def injectCache (g r k j w : Nat) (s : State) : State :=
  let t := injTarget s (8 + g) 6
  if t % 8 = r ∧ !t.testBit 8 then
    let i := inject (8 + g) 6 s
    match i.1, cached i.2 g r k j with
    | true, some x =>
      let p := injPattern i.2 (8 + g) 6
      let f1 := toggle x.flips (w, nfld p 5 0)
      let f2 := if p.testBit 15 then toggle f1 (w, nfld p 13 8) else f1
      whereAdd (8 + g) 6 (nodeLoc k j) (setCached g r k j (some { x with flips := f2 }) i.2)
    | _, _ => i.2
  else s

/-- A line placed in the cache. -/
def cacheInsert (g r k j : Nat) (b : List Byte) (s : State) : State :=
  let u := s.dram.clockUse + 1
  let s1 := setCached g r k j (some { bytes := b, used := u }) { s with dram := { s.dram with clockUse := u } }
  (upto 8).foldl (fun t w => injectCache g r k j w t) s1

/-- Word `w` of a cached line written. -/
def setWord (g r k j w v : Nat) (s : State) : State :=
  match cached s g r k j with
  | none => s
  | some x =>
    injectCache g r k j w (setCached g r k j (some { x with
      bytes := overlay x.bytes (8 * w) (toBytes 8 v), dirty := true, flips := x.flips.filter (fun f => f.1 ≠ w) }) s)

/-- Word `w` of a line of 64 bytes. -/
def wordOf (b : List Byte) (w : Nat) : Nat := ofBytes ((b.drop (8 * w)).take 8)

/-- A cached line read: one differing bit in a word is corrected. The words that are uncorrectable are given. -/
def cacheRead (g r k j : Nat) (x : CounterLine) (s : State) : List Nat × State :=
  let bad := (upto 8).filter (fun w => 2 ≤ flipsOf x.flips w)
  let u := s.dram.clockUse + 1
  let s0 := if x.flips = [] then s else findingAt (8 + g) 6 (nodeLoc k j) s
  let one := (upto 8).filter (fun w => flipsOf x.flips w = 1)
  let s1 := one.foldl (fun t _ => countCorr (8 + g) t) s0
  (bad, setCached g r k j (some { x with used := u, flips := x.flips.filter (fun f => bad.contains f.1) })
    { s1 with dram := { s1.dram with clockUse := u } })

/-- Node (k, j) with its counters verified up to the root or a cached ancestor; none when it is broken (R405, R410). -/
def getNode : Nat → Nat → Nat → Nat → Nat → State → Option (List Byte) × State
  | 0, _, _, _, _, s => (none, s)
  | fuel + 1, g, r, k, j, s =>
    if rgnDepth s g r ≤ k then
      let q := checkRoot g r s
      (if q.1 then some ((upto 7).flatMap (fun m => toBytes 8 ((rgnAt q.2 g r).root.getD m 0)) ++ List.replicate 8 0) else none, q.2)
    else match cached s g r k j with
      | some x =>
        let q := cacheRead g r k j x (cnt s (encCnt g 6))
        if q.1 = [] then (some x.bytes, q.2) else (none, breakNode g r k j 2 (setCached g r k j none q.2))
      | none =>
        let p := getNode fuel g r (k + 1) (j / 7) (cnt s (encCnt g 7))
        match p.1 with
        | none => (none, p.2)
        | some up =>
          let at_ := metaPlace p.2 g r k j
          let l := readLine at_.1 at_.2 0 p.2
          let body := l.1.bytes.take 56
          let c := wordOf up (j % 7)
          if l.1.bad.any id then (none, breakNode g r k j 1 l.2)
          else if wordOf l.1.bytes 7 ≠ (Config.gmac (rgnAt l.2 g r).tagKey (nodeIv c (winAddr g (metaOffset l.2 g r k j))) body).toNat then
            (none, breakNode g r k j 0 l.2)
          else (some l.1.bytes, cacheInsert g r k j l.1.bytes l.2)

/-- The counter of child `x` of level k - 1 set in its parent, which is cached or the root (R401). -/
def setCounter (g r k x v : Nat) (s : State) : State :=
  if rgnDepth s g r ≤ k then
    let q := rgnAt s g r
    injectRoot g r (x % 7) (setRgn g r { q with root := (q.root ++ List.replicate 7 0).take 7 |>.set (x % 7) v,
                                                flips := q.flips.filter (fun f => f.1 ≠ x % 7) } s)
  else setWord g r k (x / 7) (x % 7) v s

/-- Tag line `t` of a region, by way of the cache; one answered POISON is taken as eight tags of zero (R403). The
words that are uncorrectable in the cache are given. -/
def getTags (g r t : Nat) (s : State) : List Byte × List Nat × State :=
  match cached s g r 0 t with
  | some x =>
    let q := cacheRead g r 0 t x (cnt s (encCnt g 6))
    (x.bytes, q.1, q.2)
  | none =>
    let at_ := metaPlace s g r 0 t
    let l := readLine at_.1 at_.2 0 (cnt s (encCnt g 7))
    let b := if l.1.bad.any id then List.replicate 64 0 else l.1.bytes
    (b, [], cacheInsert g r 0 t b l.2)

/-- The metadata lines that line `i` of a region needs and that are not cached. -/
def missingKeys (s : State) (g r i : Nat) : List Nat :=
  let up := (upto (rgnDepth s g r)).filter (1 ≤ ·)
  let miss := up.filter (fun k => (up.filter (· ≤ k)).all (fun m => (cached s g r m (i / 7 ^ m)).isNone))
  (if (cached s g r 0 (i / 8)).isNone then [cacheKey g r 0 (i / 8)] else []) ++ miss.map (fun k => cacheKey g r k (i / 7 ^ k))
/-- The cache has ways free for them; otherwise COUNTER_CACHE_EVICT comes first. -/
def cacheRoom (s : State) (g r i : Nat) : Bool :=
  let set (key : Nat) : Nat := cacheSet s g (keyRegion key) (keyLevel key) (keyIndex key)
  let m := missingKeys s g r i
  m.all (fun key => decide ((setKeys s g (set key)).length + (m.filter (fun q => set q = set key)).length ≤ 16))

/-- A dirty line of the cache written to DRAM; a node first takes a new counter and tag, and its parent's slot is
updated (R405). -/
def writeBackLine (g r k j : Nat) (s : State) : State :=
  match cached s g r k j with
  | none => s
  | some x =>
    if !x.dirty then s
    else
      let q := cacheRead g r k j x s
      let at_ := metaPlace s g r k j
      let clean (b : List Byte) (t : State) : State :=
        writeLine at_.1 at_.2 b (setCached g r k j (some { x with bytes := b, dirty := false, flips := [] }) t)
      if k = 0 then clean (q.1.foldl (fun b w => overlay b (8 * w) (toBytes 8 0)) x.bytes) q.2
      else if q.1 ≠ [] then breakNode g r k j 2 (setCached g r k j none q.2)
      else
        let d := drawCounter g r q.2
        match d.1 with
        | none => d.2
        | some c =>
          let body := x.bytes.take 56
          let tag := (Config.gmac (rgnAt d.2 g r).tagKey (nodeIv c (winAddr g (metaOffset s g r k j))) body).toNat
          setCounter g r (k + 1) j c (clean (body ++ toBytes 8 tag) d.2)

/-- Every dirty line of a grove's cache written back, tag lines and lower levels first (R412). -/
def writeBackAll (g : Nat) (s : State) : State :=
  (upto 8).foldl (fun t r =>
    (upto (rgnDepth t g r)).foldl (fun u k =>
      (skeys u.dram.cache (fun key _ => key / 2 ^ 32 = (g * 8 + r) * 256 + k)).foldl
        (fun v key => writeBackLine g r k (keyIndex key) v) u) t) s

/-- The region's cache lines dropped unwritten. -/
def dropCache (g r : Nat) (s : State) : State :=
  { s with dram := { s.dram with cache := sdrop s.dram.cache (fun key => key / 2 ^ 40 = g * 8 + r) } }

/-! ### Lines (R399, R400, R406, R407) -/

/-- Index of a line in its region. -/
def regionLine (s : State) (g r c line : Nat) : Nat := (offsetOf s c (line * 64) - rgnBase s g r * mib) / 64
/-- Device address of a line of a channel. -/
def lineAddr (s : State) (c line : Nat) : Nat := winAddr (c / 2) (offsetOf s c (line * 64))

/-- The line encrypted or decrypted: each 16 bytes XOR AES-256 of X_j. -/
def cipher (key : List Word) (ctr addr : Nat) (b : List Byte) : List Byte :=
  (upto 4).flatMap (fun j =>
    toBytes 16 (ofBytes ((b.drop (16 * j)).take 16)
      ^^^ (Config.aes256 key (ctr * 2 ^ 64 + addr / 64 * 2 ^ 22 + j * 2 ^ 20)).toNat))
def lineTag (key : List Word) (ctr addr : Nat) (b : List Byte) : Nat :=
  (Config.gmac key (ctr * 2 ^ 64 + addr / 64 * 2 ^ 22) b).toNat

/-- MEM_ENC_TAG_FAIL, at most once per millisecond and grove (R417). -/
def raiseTagFail (g r addr : Nat) (corrected : Bool) (s : State) : State :=
  let n := sget 0 s.dram.tagSince g + 1
  let soon := match sget none s.dram.tagLast g with
    | some t => decide (s.tu.tick < t + tickMs)
    | none => false
  if soon then { s with dram := { s.dram with tagSince := sset 0 s.dram.tagSince g n } }
  else
    raise 0x0782 2 (rmcStation g) [rgnWord g r, lo32 addr, word (addr / 2 ^ 32 % 2 ^ 16 + b2n corrected * 2 ^ 16), word n]
      { s with dram := { s.dram with tagSince := sset 0 s.dram.tagSince g 0,
                                     tagLast := sset none s.dram.tagLast g (some s.tu.tick) } }

/-- What the unit finds in a line of an ACTIVE or BROKEN region (R406). -/
inductive EncFinding where
  | data (b : List Byte)
  | unwritten
  | poisoned
  /-- Region BROKEN or beneath a broken node. -/
  | broken
  deriving DecidableEq, Repr

/-- ENC_LINE_READ of a line. -/
def encRead (c line : Nat) (r : Nat) (s : State) : EncFinding × State :=
  let g := c / 2
  let i := regionLine s g r c line
  let addr := lineAddr s c line
  if rgnState s g r = 0xA3 ∨ beneathBroken s g r 0 i then (.broken, s)
  else
    let l := readLine c line 0 s
    if l.1.bad.any id then (.poisoned, l.2)
    else
      let n := getNode 16 g r 1 (i / 7) l.2
      match n.1 with
      | none => (.broken, n.2)
      | some leaf =>
        let ctr := wordOf leaf (i % 7)
        if ctr = 0 then (.unwritten, n.2)
        else
          let t := getTags g r (i / 8) n.2
          let x := rgnAt t.2.2 g r
          if !t.2.1.contains (i % 8) ∧ wordOf t.1 (i % 8) = lineTag x.tagKey ctr addr l.1.bytes then
            (.data (cipher x.dataKey ctr addr l.1.bytes), t.2.2)
          else
            let s1 := cnt t.2.2 (encCnt g 0)
            let s2 := if l.1.corrected then cnt s1 (encCnt g 1) else s1
            let s3 := findingAt (8 + g) 5 i (countUncorr (8 + g) s2)
            (.poisoned, poisonLine c line (raiseTagFail g r addr l.1.corrected s3))

/-- ENC_FULL_WRITE of a line: false when it is refused (R407, R413). -/
def encWrite (c line r : Nat) (b : List Byte) (s : State) : Bool × State :=
  let g := c / 2
  let i := regionLine s g r c line
  let addr := lineAddr s c line
  if rgnState s g r = 0xA3 ∨ beneathBroken s g r 0 i then (false, s)
  else
    let n := getNode 16 g r 1 (i / 7) s
    match n.1 with
    | none => (false, n.2)
    | some _ =>
      let d := drawCounter g r n.2
      match d.1 with
      | none => (false, d.2)
      | some ctr =>
        let x := rgnAt d.2 g r
        let ct := cipher x.dataKey ctr addr b
        let q := if injTarget d.2 (8 + g) 5 % 8 = r then inject (8 + g) 5 d.2 else (false, d.2)
        let q2 := if q.1 then whereAdd (8 + g) 5 i q.2 else whereFree (8 + g) 5 i q.2
        let tag := lineTag x.tagKey ctr addr ct ^^^ (if q.1 then 2 ^ (injPattern q2 (8 + g) 5 % 64) else 0)
        let t := getTags g r (i / 8) q2
        let s1 := setWord g r 0 (i / 8) (i % 8) (tag % 2 ^ 64) t.2.2
        (true, writeLine c line ct (setCounter g r 1 i ctr s1))

/-- A write that the unit refuses: a WR is answered POISON, a WRP discarded; ENC_WRITE_REFUSED counts it. -/
def encRefuse (c : Nat) (e : DramEntry) (s : State) : State := endPart e [] true (cnt s (encCnt (c / 2) 2))

/-- An access of a region's line in a state in which the unit does not serve it: gated (R412) or BUILDING (R394). It
reads zero and discards writes. -/
def encIdle (e : DramEntry) (counter : Nat) (s : State) : State :=
  endPart e (if e.write then [] else List.replicate e.len 0) false (cnt s counter)

/-- The unit's block is gated. -/
def encGated (s : State) (g : Nat) : Bool := !rdB s (clkBlk (8 + g) + 0x10) 5

/-- A region's entry given to `f` once the unit serves the region. -/
def encServe (c r : Nat) (e : DramEntry) (f : State → State) (s : State) : State :=
  let g := c / 2
  if encGated s g then encIdle e (clkBlk (8 + g) + 0x14) s
  else if rgnState s g r = 0xA1 then encIdle e (encCnt g 5) s
  else f s

/-- A read of a region's line answered (R406). -/
def encReadEntry (c r : Nat) (e : DramEntry) : State → State :=
  encServe c r e (fun s =>
    let x := encRead c e.line r s
    match x.1 with
    | .data b => endPart e ((b.drop e.off).take e.len) false x.2
    | .unwritten =>
      let s1 := cnt x.2 (encCnt (c / 2) 3)
      if rdB s1 (rgnReg (c / 2) r 3) 16 then endPart e (List.replicate e.len 0) false s1 else endPart e [] true s1
    | _ => endPart e [] true x.2)

/-- A full write of a region's line, or one with POISON = 1 (R407). -/
def encWriteEntry (c r : Nat) (e : DramEntry) : State → State :=
  encServe c r e (fun s =>
    let i := regionLine s (c / 2) r c e.line
    if e.poison then
      (if rgnState s (c / 2) r = 0xA3 ∨ beneathBroken s (c / 2) r 0 i then encRefuse c e s
       else endPart e [] false (poisonLine c e.line s))
    else
      let x := encWrite c e.line r e.data s
      if x.1 then endPart e [] false x.2 else encRefuse c e x.2)

/-- A partial write of a region's line (R408). -/
def encPartEntry (c r : Nat) (e : DramEntry) : State → State :=
  encServe c r e (fun s =>
    let x := encRead c e.line r s
    let go (b : List Byte) (s : State) : State :=
      let y := encWrite c e.line r (overlay b e.off e.data) s
      if y.1 then endPart e [] false y.2 else encRefuse c e y.2
    match x.1 with
    | .data b => go b x.2
    | .unwritten => go (List.replicate 64 0) (cnt x.2 (encCnt (c / 2) 3))
    | _ => encRefuse c e x.2)

/-! ### Map changes (R412) -/

/-- Offsets [lo, hi) of the window hold part of a channel. -/
def rangeTouches (s : State) (c lo hi : Nat) : Bool :=
  if rdB s (memBlk c + 8) 31 then decide (lo < hi)
  else if c % 2 = 0 then decide (lo < hi ∧ lo < cap0 s (c / 2))
  else decide (lo < hi ∧ cap0 s (c / 2) < hi ∧ lo < cap0 s (c / 2) + cap1 s (c / 2))
/-- A region, not FREE, or its metadata has part on a channel. -/
def regionOn (s : State) (c r : Nat) : Bool :=
  let g := c / 2
  let b := rgnBase s g r * mib
  let m := rgnMeta s g r * mib
  rgnState s g r ≠ 0xA0 && (rangeTouches s c b (b + rgnSize s g r * mib)
    || rangeTouches s c m (m + metaMib (linesOf (rgnSize s g r)) * mib))
/-- Regions with part on the channel become BROKEN at the map change. -/
def breakOn (c : Nat) (s : State) : State :=
  ((upto 8).filter (regionOn s c)).foldl (fun t r =>
    if rgnState t (c / 2) r = 0xA1 then breakRegion (c / 2) r 2 (setRgnState (c / 2) r 0xA2 t) else breakRegion (c / 2) r 2 t) s

end Sys2Proof.Machine
end

