-- ==== Sys2Proof/Machine/Mem.lean ====
section
/-!
DEFINITION. Meanings of the MEM commands of the DRAM controller and of its events (12 R361-R391).
-/
namespace Sys2Proof.Machine

/-! ### Configuration (R361, R362) -/

/-- One byte of CRC-16 with polynomial 0x1021. -/
def crc16Byte (c b : Nat) : Nat :=
  (upto 8).foldl (fun a _ => if a < 0x8000 then 2 * a else (2 * a % 0x10000) ^^^ 0x1021) (c ^^^ (b * 256))
def spdCrc (l : List Word) (lo n : Nat) : Nat := (upto n).foldl (fun c i => crc16Byte c (byteAt l (lo + i))) 0
/-- Both CRCs of an SPD image hold. -/
def spdCrcOk (l : List Word) : Bool :=
  spdCrc l 0 126 = byteAt l 126 + 256 * byteAt l 127 && spdCrc l 128 126 = byteAt l 254 + 256 * byteAt l 255

/-- What the controller takes from an SPD image: x8, module type, rows, package and logical ranks, fastest speed. -/
structure SpdInfo where
  x8 : Bool
  type : Nat
  rows : Nat
  pranks : Nat
  lranks : Nat
  speed : Nat
  deriving DecidableEq, Repr

/-- Fastest speed for a least clock period in picoseconds. -/
def speedOf (ps : Int) : Option Nat :=
  if ps ≤ 625 then some 3 else if ps ≤ 682 then some 2 else if ps ≤ 750 then some 1 else if ps ≤ 834 then some 0 else none

/-- The image read; none where the configuration is not one of R361. -/
def spdInfo (l : List Word) : Option SpdInfo :=
  let dens := byteAt l 4 % 16
  let width := byteAt l 12 % 8
  let type := match byteAt l 3 % 16 with
    | 0 => some 0
    | 1 => some 1
    | 4 => some 2
    | _ => none
  let stack := if byteAt l 6 / 128 = 1 ∧ byteAt l 6 % 4 = 2 then byteAt l 6 / 16 % 8 + 1 else 1
  let pr := byteAt l 12 / 8 % 8 + 1
  let tck : Int := (byteAt l 18 * 125 : Nat) + sint 8 (byteAt l 125)
  match type, speedOf tck with
  | some t, some sp =>
    if byteAt l 2 ≠ 0x0C ∨ 2 ≤ width ∨ dens < 4 ∨ 6 < dens then none
    else some { x8 := width = 1, type := t, rows := 11 + dens + (1 - width), pranks := pr, lranks := pr * stack, speed := sp }
  | _, _ => none

/-- Capacity exponent of a channel's logical ranks. -/
def capLog (i : SpdInfo) : Nat := 17 + i.rows + Nat.log2 i.lranks
/-- Ranks and capacity lie within R361. -/
def spdFits (i : SpdInfo) : Bool :=
  [1, 2, 4].contains i.pranks && [1, 2, 4, 8].contains i.lranks && decide (capLog i ≤ 37)

/-- A channel no longer mapped: regions with part on it break, the map is rebuilt, its contents are lost. -/
def unmapChan (c : Nat) (s : State) : State :=
  let s1 := if chanMapped s c then remapTo c 0 (breakOn c s) else s
  { s1 with dram := { s1.dram with cells := sdrop s1.dram.cells (fun k => k / 2 ^ 34 = c) } }

/-- MEM_CONFIG (R362, R390). -/
def execMemConfig (b : Nat) (s : State) : Host.Outcome State Fault Refusal :=
  Next (serve 0x0702 [0x90, 0x91, 0x95] (fun r s =>
    let c := r.f 0 3 0
    let spd := r.args.drop 4
    if 16 ≤ r.f 0 7 0 then badArg 0
    else if r.w 4 ≠ 0 then badArg 4
    else if r.w 8 ≠ 0 then badArg 8
    else if r.w 12 ≠ 0 then badArg 12
    else if !spdCrcOk spd then refused 0x0701
    else match spdInfo spd with
      | none => refused 0x0702
      | some i =>
        if !spdFits i then refused 0x0703
        else
          let sp := min i.speed (r.f 0 9 8)
          let cfg := r.f 0 16 16 * 2 ^ 31 + r.f 0 17 17 * 2 ^ 30 + r.f 0 19 19 * 2 ^ 29 + r.f 0 18 18 * 2 ^ 28
            + i.type * 2 ^ 26 + b2n i.x8 * 2 ^ 25 + (i.rows - 15) * 2 ^ 22 + Nat.log2 i.lranks * 2 ^ 20
            + Nat.log2 i.pranks * 2 ^ 18 + capLog i
          let s1 := wr (unmapChan c s) (memBlk c + 4) (word cfg)
          let s2 := wr s1 (memBlk c) (word (b2n (2 ≤ sp && r.f 0 16 16 = 0) * 2 ^ 20 + sp * 2 ^ 16 + 0x91))
          let s3 := modChan c (fun x => { x with period := 0, fill := none, writeBacks := [], rows := [],
                                                 hits := [], owed := [], inService := false }) s2
          .ok [word cfg, word sp] s3) b s)

/-! ### Training (R363-R366) -/

/-- Answer of the MEM_TRAIN that runs for a channel. -/
def finishTrain (c status detail : Nat) (payload : List Word) (s : State) : State :=
  match s.ward.taken.find? (fun t => t.phase = .running && t.op = 0x0703 && wordAt t.args 0 = c) with
  | some t => answer t.booth status (chanState s c) detail payload s
  | none => s

/-- MEM_TRAIN: a full training begins. -/
def execMemTrain (b : Nat) (s : State) : Host.Outcome State Fault Refusal :=
  Next (serve 0x0703 [0x91, 0x95] (fun r s =>
    let c := r.f 0 3 0
    if 16 ≤ r.w 0 then badArg 0
    else if mapMoves s c ∧ !(r.w 4).testBit 0 then refused 0x0705
    else .run (modChan c (fun x => { x with inService := false, remap := (r.w 4).testBit 0 }) (setChanState c 0x92 s))) b s)

/-- Results of a training, by DQS group; a retention training keeps the write side (R365). -/
def setTrn (c : Nat) (trn : List Word) (keepWrite : Bool) (s : State) : State :=
  (upto (if isX8 s c then 9 else 18)).foldl (fun t n =>
    let a := memBlk c + 0x400 + 4 * n
    let w := trn.getD n 0
    wr t a (if keepWrite then setFld (setFld (rd t a) 23 16 (fld w 23 16)) 7 0 (fld w 7 0) else w)) s

/-- Read delays that the quick recheck re-centred (R365). -/
def setReadDelay (c : Nat) (trn : List Word) (s : State) : State :=
  (upto (if isX8 s c then 9 else 18)).foldl (fun t n => wrF t (memBlk c + 0x400 + 4 * n) 7 0 (fld (trn.getD n 0) 7 0)) s

/-- MEM_TRAINED. -/
def raiseTrained (c kinds : Nat) (s : State) : State :=
  raiseMem 0x0701 0 c [word kinds, word (rdF s (memBlk c + 4) 5 0), rd s (memBlk c + 8)] s

/-- The retrain of R383 is over. -/
def retrainOver (c : Nat) (passed : Bool) (s : State) : State :=
  raiseMem 0x0707 2 c [word (chanAt s c).alertKinds, word (b2n passed)]
    (modChan c (fun x => { x with inService := false, alerts := [], alertKinds := 0 }) s)

/-- A training fails in a phase, on a rank. -/
def trainFails (c phase rank : Nat) (s : State) : State :=
  let x := chanAt s c
  let s1 := raiseMem 0x0702 3 c [word phase, word rank] (setChanState c 0x95 s)
  let s2 := if x.inService then retrainOver c false s1 else s1
  finishTrain c stFailed 0x0704 [] s2

/-- A training under way ends. -/
def execTrainingDone (c : Nat) (pass : Bool) (phase rank : Nat) (trn : List Word) (s : State) :
    Host.Outcome State Fault Refusal :=
  Next (if 16 ≤ c ∨ chanState s c ≠ 0x92 then s
    else if !pass then trainFails c phase rank s
    else if (chanAt s c).inService then
      retrainOver c true (raiseTrained c 3 (setTrn c trn true (setChanState c 0x93 s)))
    else
      let s0 := if mapMoves s c then breakOn (if c % 2 = 0 then c + 1 else c - 1) s else s
      let s1 := { s0 with dram := { s0.dram with cells := sdrop s0.dram.cells (fun k => k / 2 ^ 34 = c) } }
      let s2 := remapTo c (rdF s1 (memBlk c + 4) 5 0) (setTrn c trn false (setChanState c 0x93 s1))
      finishTrain c stOk 0 [word 0x93, word (rdF s2 (memBlk c + 4) 5 0), rd s2 (memBlk c + 8)] (raiseTrained c 0 s2))

/-- A phase does not end within its limit. -/
def execTrainingPhaseTimeout (c phase rank : Nat) (s : State) : Host.Outcome State Fault Refusal :=
  Next (if 16 ≤ c ∨ chanState s c ≠ 0x92 then s else trainFails c phase rank s)

/-! ### Self-refresh (R372-R374) -/

/-- The channel is to enter self-refresh: its block is gated, its grove is in DEEP, or a reset that keeps DRAM is on
its way. -/
def wantsRefresh (s : State) (c : Nat) : Bool :=
  !rdB s (clkBlk (chanDie c) + 0x10) (3 + c % 2) || dieState s (chanDie c) = 0x32
    || s.clk.dieResets.any (fun e => e.1 = chanDie c && e.2.2) || s.dbg.stoppedDies.contains (chanDie c)

/-! ### Requests and their service (R368-R381) -/

/-- Channel that a request taken by a directory goes to. -/
def reqChan (s : State) (r : HomeReq) : Nat :=
  match dramAt s r.home (lineOf r.pkt.addr * 64) with
  | some (c, _) => c
  | none => 2 * r.home + (if r.pkt.dst % 256 = 2 then 1 else 0)

/-- The line entries of an access. -/
def entriesOf (s : State) (g : Nat) (p : Packet) (id : Nat) : List DramEntry :=
  let cache := isCacheMsg p
  let base := p.addr % 0x4000000000
  (pktLines p).map (fun l =>
    let lo := if cache then l * 64 else max base (l * 64)
    let hi := if cache then l * 64 + 64 else min (base + p.len) (l * 64 + 64)
    let pos := if cache then 0 else lo - base
    { line := (match dramAt s g (l * 64) with
        | some (_, ca) => ca / 64
        | none => 0),
      acc := id, off := lo % 64, len := hi - lo, pos := pos, write := p.op ≠ 1,
      data := (p.data.drop pos).take (hi - lo), poison := p.poison && p.op ≠ 1 })

/-- A request that its channel does not serve answered by its home or its station. -/
def refuseReq (p : Packet) (status : Nat) (data : List Byte) (s : State) : State :=
  if isCacheMsg p ∧ p.op = 1 ∧ p.addr % 64 = 2 then
    launch3 { op := 7, vc := 3, dst := p.src, src := p.dst, tag := p.tag, addr := p.addr / 64 * 64, len := 0, status := stAbsent }
      (dropEmpty (p.dst / 256 - 8) (lineOf p.addr) s)
  else respond p status data (if isCacheMsg p then dropEmpty (p.dst / 256 - 8) (lineOf p.addr) s else s)

/-- A request taken by a directory removed from its list. -/
def dropReq (r : HomeReq) (s : State) : State := { s with rmc := { s.rmc with homeReqs := s.rmc.homeReqs.erase r } }

/-- An access takes its entries in the channel's queue, when they fit (R368). -/
def enterQueue (c : Nat) (r : HomeReq) (s : State) : State :=
  let id := s.dram.nextAcc
  let es := entriesOf s r.home r.pkt id
  let x := chanAt s c
  let held := (x.queue.filter (fun e => e.write = decide (r.pkt.op ≠ 1))).length
  if 128 < held + es.length then s
  else
    let s1 := dropReq r s
    setChan c { x with queue := x.queue ++ es }
      { s1 with dram := { s1.dram with nextAcc := id + 1,
                                       accesses := s1.dram.accesses ++ [{ id := id, pkt := r.pkt, left := es.length }] } }

/-- The oldest granted request of a channel acted on, as the channel's state says (R363, R374). -/
def admitReq (c : Nat) (s : State) : State :=
  match s.rmc.homeReqs.find? (fun r => r.awaits = [] && reqChan s r = c) with
  | none => s
  | some r =>
    let zeros := if r.pkt.op = 1 then List.replicate r.pkt.len 0 else []
    let st := chanState s c
    if rmcWaits s r.home then s
    else if st = 0x93 then (if wantsRefresh s c then s else enterQueue c r s)
    else if st = 0x94 then
      (if !rdB s (clkBlk (chanDie c) + 0x10) (3 + c % 2) then
        refuseReq r.pkt stOk zeros (cnt (dropReq r s) (clkBlk (chanDie c) + 0x14))
       else s)
    else if st = 0x92 ∧ chanMapped s c then s
    else if st = 0x91 ∨ (st = 0x95 ∧ chanMapped s c) then refuseReq r.pkt stAbsent [] (dropReq r s)
    else refuseReq r.pkt stOk zeros (noteUnmapped r.pkt.src r.pkt.addr (dropReq r s))

/-- A request takes queue entries (`bank` none), or the bank's next request, a write of whole codewords outside every
region, is issued. -/
def execDramRequest (c : Nat) (bank : Option Nat) (s : State) : Host.Outcome State Fault Refusal :=
  Next (if 16 ≤ c then s
    else match bank with
      | none => admitReq c s
      | some b =>
        servePicked c b (fun t e => e.write && (e.poison || wholeCws e.off e.len) && linePlain t c e.line) (plainWrite c) s)

/-- The bank's next request, a read outside every region, is served. -/
def execDramReadDecode (c bank : Nat) (s : State) : Host.Outcome State Fault Refusal :=
  Next (if 16 ≤ c then s else servePicked c bank (fun t e => !e.write && linePlain t c e.line) (plainRead c) s)

/-- The bank's next request, a write of part of a codeword outside every region, is performed. -/
def execDramRmw (c bank : Nat) (s : State) : Host.Outcome State Fault Refusal :=
  Next (if 16 ≤ c then s
    else servePicked c bank (fun t e => e.write && !e.poison && !wholeCws e.off e.len && linePlain t c e.line) (plainRmw c) s)

/-- A write to a codeword is queued. -/
def writeQueued (x : Channel) (line k : Nat) : Bool :=
  (x.queue ++ x.rt).any (fun e => e.write && e.line = line && (e.poison || cwTouched e.off e.len k))

/-- The first corrected codeword is written back, or dropped for a queued write (R380). -/
def execCorrectedWriteBack (c : Nat) (s : State) : Host.Outcome State Fault Refusal :=
  let x := chanAt s c
  Next (if 16 ≤ c ∨ chanState s c ≠ 0x93 then s
    else match x.writeBacks with
      | [] => s
      | w :: ws =>
        let s1 := setChan c { x with writeBacks := ws } s
        if writeQueued x w.1 w.2.1 then s1 else injectLine c w.1 (putCw c w.1 w.2.1 w.2.2 s1))

/-- A rank's tREFI elapses. `want`: 0 a REF is issued; 1 it is postponed, while the rank is busy or in panic; 2 a
further one is pulled in, while the rank is idle. Eight postponed REFs are issued ahead of all else (R369, R371). -/
def execRefreshDue (c rank want : Nat) (s : State) : Host.Outcome State Fault Refusal :=
  let x := chanAt s c
  let busy := x.queue.any (fun e => rankOf s c e.line = rank) || inPanic s c
  let owed := sget 0 x.owed rank
  let close (x : Channel) : Channel := { x with rows := sdrop x.rows (fun b => b / 16 = rank), hits := sdrop x.hits (fun b => b / 16 = rank) }
  Next (if 16 ≤ c ∨ chanState s c ≠ 0x93 ∨ 2 ^ rdF s (memBlk c + 4) 21 20 ≤ rank then s
    else if want = 1 ∧ busy ∧ owed < 8 then
      cnt (setChan c { x with owed := sset 0 x.owed rank (owed + 1) } s) (memCnt c 9)
    else if want = 2 ∧ !busy ∧ -8 < owed then setChan c (close { x with owed := sset 0 x.owed rank (owed - 1) }) s
    else if owed < 0 then setChan c { x with owed := sset 0 x.owed rank (owed + 1) } s
    else setChan c (close { x with owed := sset 0 x.owed rank (if owed = 8 then 0 else owed) }) s)

/-! ### The real-time port (R375, R376) -/

/-- A line of the real-time buffer issued. -/
def drainRt (c : Nat) (s : State) : State :=
  let x := chanAt s c
  match x.rt with
  | [] => s
  | e :: es =>
    let s1 := setChan c { x with rt := es } s
    showRt c (match lineRegion s1 c e.line with
      | some r =>
        if !cacheRoom s1 (c / 2) r (regionLine s1 (c / 2) r c e.line) then s
        else if e.poison ∨ e.len = 64 then encWriteEntry c r e s1 else encPartEntry c r e s1
      | none =>
        match lineMeta s1 c e.line with
        | some _ => endPart e [] false (cnt s1 (encCnt (c / 2) 4))
        | none => if e.poison ∨ wholeCws e.off e.len then plainWrite c e s1 else plainRmw c e s1)

/-- The oldest waiting VC0 write enters the buffer; `late` when later than 400 ns after its head flit. -/
def enterRt (c : Nat) (late : Bool) (s : State) : State :=
  let x := chanAt s c
  match x.rtWait with
  | [] => s
  | p :: ps =>
    let id := s.dram.nextAcc
    let es := entriesOf s (c / 2) p id
    if 1024 < x.rt.length + es.length then s
    else
      let s1 := setChan c { x with rtWait := ps, rt := x.rt ++ es }
        { s with dram := { s.dram with nextAcc := id + 1,
                                       accesses := s.dram.accesses ++ [{ id := id, pkt := p, left := es.length }] } }
      showRt c (if late then cnt s1 (memCnt c 11) else s1)

/-- A VC0 write enters the real-time buffer, or with `drain` the buffer's oldest line is issued. -/
def execRtPortWrite (c : Nat) (late drain : Bool) (s : State) : Host.Outcome State Fault Refusal :=
  Next (if 16 ≤ c ∨ chanState s c ≠ 0x93 then s else if drain then drainRt c s else enterRt c late s)

/-! ### Alerts (R382-R384) -/

/-- ALERT_n falls for a write CRC error or a parity error. What is re-issued is what was issued, so that stored data
stays as it is. The eighth alert within 1 ms retrains the channel. -/
def execAlertNFall (c : Nat) (parity : Bool) (s : State) : Host.Outcome State Fault Refusal :=
  Next (if 16 ≤ c ∨ chanState s c ≠ 0x93 ∨ !rdB s (memBlk c + 4) (if parity then 30 else 31) then s
    else
      let d := chanDie c
      let n := if parity then 4 else 3
      let i := if injTarget s d n % 2 = c % 2 then inject d n s else (false, s)
      let s1 := cnt (if i.1 then injSeen d n 0 i.2 else i.2) (memCnt c (if parity then 6 else 5))
      let x := chanAt s1 c
      let l := x.alerts.filter (fun t => decide (s1.tu.tick < t + tickMs)) ++ [s1.tu.tick]
      let y := { x with alerts := l, alertKinds := x.alertKinds ||| (if parity then 2 else 1), parityLow := x.parityLow || parity }
      if l.length < 8 then setChan c y s1
      else setChanState c 0x92 (cnt (setChan c { y with inService := true, parityLow := false, rows := [], hits := [] } s1) (memCnt c 7)))

/-- ALERT_n rises after a parity error: every bank is precharged and the commands are re-issued. -/
def execAlertNRise (c : Nat) (s : State) : Host.Outcome State Fault Refusal :=
  Next (if 16 ≤ c ∨ !(chanAt s c).parityLow then s
    else modChan c (fun x => { x with parityLow := false, rows := [], hits := [] }) s)

/-! ### Fill and scrub (R386, R387) -/

/-- A FLOW contract has a channel as its destination. -/
def flowInto (s : State) (c : Nat) : Bool := (openContracts s).any (fun e => e.2.dst = chanStation c)

/-- Channel lines of a range on a channel, first and last. -/
def chanRange (s : State) (g c lo hi : Nat) : Option (Nat × Nat) :=
  let on (l : Nat) : Option Nat := match dramAt s g (l * 64) with
    | some (k, ca) => if k = c then some (ca / 64) else none
    | none => none
  let top := min hi (cap0 s g + cap1 s g)
  let n := (top + 63) / 64 - lo / 64
  let first := (upto (min n 8)).findSome? (fun i => on (lo / 64 + i))
  let last := (upto (min n 8)).findSome? (fun i => on ((top + 63) / 64 - 1 - i))
  let c0 := cap0 s g / 64
  if rdB s (memBlk c + 8) 31 then
    (match first, last with
     | some a, some b => some (a, b)
     | _, _ => none)
  else if n = 0 then none
  else if c % 2 = 0 then (if lo / 64 < c0 then some (lo / 64, min (c0 - 1) ((top + 63) / 64 - 1)) else none)
  else if c0 < (top + 63) / 64 then some (lo / 64 - c0, (top + 63) / 64 - 1 - c0) else none

/-- Every state code of a channel. -/
def chanStates : List Nat := [0x90, 0x91, 0x92, 0x93, 0x94, 0x95]

/-- The legal states of the MEM_FILL served next: any, when its range touches no mapped channel (R390). -/
def fillLegal (s : State) : List Nat :=
  match nextWaiting s with
  | some t =>
    let r : Req := { booth := t.booth, flags := t.flags, args := t.args }
    if rangeChannels s (r.f 0 2 0) (fillRange r).1 (fillRange r).2 = [] then chanStates else [0x93]
  | none => [0x93]

/-- MEM_FILL. -/
def execMemFill (b : Nat) (s : State) : Host.Outcome State Fault Refusal :=
  Next (serve 0x0704 (fillLegal s) (fun r s =>
    let g := r.f 0 2 0
    let start := r.w64 8 % 2 ^ 48
    let len := r.w64 16 % 2 ^ 39
    let lo := (fillRange r).1
    let hi := (fillRange r).2
    let cs := rangeChannels s g lo hi
    if start % 64 ≠ 0 then badArg 8
    else if len % 64 ≠ 0 then badArg 16
    else if start / 0x4000000000 ≠ g ∨ len = 0 ∨ cap0 s g + cap1 s g < hi then .no stBadArg 0x0707
    else if cs.any (fun c => (chanAt s c).fill.isSome) then .no stBusy 0x0706
    else if cs.any (flowInto s) then refused 0x0708
    else .ok [] (cs.foldl (fun t c => match chanRange s g c lo hi with
      | some x =>
        wr (wrB (modChan c (fun y => { y with fill := some { next := x.1, last := x.2, pattern := r.w64 24 } }) t) (memBlk c) 22 true)
          (memBlk c + 0x10) (word x.1)
      | none => t) s)) b s)

/-- A fill writes its next line (R386; 13 R395). -/
def execFillLineWrite (c : Nat) (s : State) : Host.Outcome State Fault Refusal :=
  Next (match (chanAt s c).fill with
    | none => s
    | some f =>
      if 16 ≤ c ∨ f.aborted ∨ f.last < f.next ∨ chanState s c ≠ 0x93 ∨ wantsRefresh s c ∨ inPanic s c then s
      else
        let bytes := (upto 8).flatMap (fun _ => toBytes 8 f.pattern)
        let done (t : State) : State :=
          wr (modChan c (fun x => { x with fill := some { f with next := f.next + 1, written := f.written + 1 } }) t)
            (memBlk c + 0x10) (word (f.next + 1))
        match lineRegion s c f.next, lineMeta s c f.next with
        | none, none => done (writeLine c f.next bytes s)
        | none, some _ => done s
        | some r, _ =>
          if rgnState s (c / 2) r = 0xA1 then done (cnt s (encCnt (c / 2) 5))
          else if !cacheRoom s (c / 2) r (regionLine s (c / 2) r c f.next) then s
          else
            let x := encWrite c f.next r bytes s
            done (if x.1 then x.2 else cnt x.2 (encCnt (c / 2) 2)))

/-- A fill ends on a channel, OK or ABSENT. -/
def execMemFillDone (c : Nat) (s : State) : Host.Outcome State Fault Refusal :=
  Next (match (chanAt s c).fill with
    | none => s
    | some f =>
      if 16 ≤ c ∨ (!f.aborted ∧ f.next ≤ f.last) then s
      else
        raiseMem 0x0705 (if f.aborted then 2 else 0) c [word (if f.aborted then stAbsent else stOk), word f.written]
          (wrB (modChan c (fun x => { x with fill := none }) s) (memBlk c) 22 false))

/-- MEM_SCRUB. -/
def execMemScrub (b : Nat) (s : State) : Host.Outcome State Fault Refusal :=
  Next (serve 0x0705 [0x93, 0x94] (fun r s =>
    let c := r.f 0 3 0
    let on := (r.w 4).testBit 0
    if 16 ≤ r.w 0 then badArg 0
    else if r.w 8 < 1 ∨ 168 < r.w 8 then badArg 8
    else
      let s1 := modChan c (fun x => { x with period := r.w 8, passCorr := 0, passUncorr := 0 }) (wrB s (memBlk c) 21 on)
      .ok [] (if on then wr s1 (memBlk c + 0x14) 0 else s1)) b s)

/-- Patrol scrub reads its next line; the last one ends the pass (R387). -/
def execScrubRead (c : Nat) (s : State) : Host.Outcome State Fault Refusal :=
  Next (if 16 ≤ c ∨ !rdB s (memBlk c) 21 ∨ chanState s c ≠ 0x93 ∨ wantsRefresh s c ∨ inPanic s c then s
    else
      let l := (rd s (memBlk c + 0x14)).toNat
      let s1 := (readLine c l 1 s).2
      if (l + 1) * 64 < chanCap s c then wr s1 (memBlk c + 0x14) (word (l + 1))
      else
        let x := chanAt s1 c
        let s2 := wr (cnt (setChan c { x with passCorr := 0, passUncorr := 0 } s1) (memCnt c 10)) (memBlk c + 0x14) 0
        raiseMem 0x0706 0 c [word x.passCorr, word x.passUncorr] s2)

/-! ### The log and the remaining commands (R388-R390) -/

/-- The log emptied: its entries read zero. -/
def clearLog (c : Nat) (s : State) : State :=
  (upto 64).foldl (fun t i => wr t (memBlk c + 0x100 + 4 * i) 0) (wrF s (memBlk c + 0x18) 4 0 0)

/-- A write of 1 to MEM_CE_CTRL.CLEAR by a source with authority. -/
def execCeLogClear (src : Writer) (c : Nat) (s : State) : Host.Outcome State Fault Refusal :=
  Next (atBlock (chanDie c) (3 + c % 2) (fun s => if s.pkg.held ∨ 16 ≤ c ∨ !(src = .warden || src = .host 0) ∨ !dieAlive s (chanDie c) then s else clearLog c s) s)

/-- MEM_INFO. -/
def execMemInfo (b : Nat) (s : State) : Host.Outcome State Fault Refusal :=
  Next (serve 0x0701 chanStates (fun r s =>
    let c := r.f 0 3 0
    if 16 ≤ r.w 0 then badArg 0
    else .ok ((upto 4).map (fun i => rd s (memBlk c + 4 * i)) ++ (upto 12).map (fun i => rd s (memCnt c i))
      ++ [rd s (memBlk c + 0x50), rd s (memBlk c + 0x54)]) s) b s)

/-- MEM_ERRLOG. -/
def execMemErrlog (b : Nat) (s : State) : Host.Outcome State Fault Refusal :=
  Next (serve 0x0706 chanStates (fun r s =>
    let c := r.f 0 3 0
    if 16 ≤ r.w 0 then badArg 0
    else
      .ok ([word (rdF s (memBlk c + 0x18) 4 0), rd s (memCnt c 0), rd s (memCnt c 2), word (rdF s (memBlk c + 0x18) 31 31)]
          ++ (upto 64).map (fun i => rd s (memBlk c + 0x100 + 4 * i)))
        (if (r.w 4).testBit 0 then wrB (clearLog c s) (memBlk c + 0x18) 31 false else s)) b s)

/-- MEM_DISABLE. -/
def execMemDisable (b : Nat) (s : State) : Host.Outcome State Fault Refusal :=
  Next (serve 0x0707 [0x91, 0x93, 0x95] (fun r s =>
    let c := r.f 0 3 0
    if 16 ≤ r.w 0 then badArg 0
    else if flowInto s c then refused 0x0708
    else
      let s1 := setChanState c 0x90 (unmapChan c s)
      .ok [rd s1 (memBlk c + 8)] s1) b s)

end Sys2Proof.Machine
end

