-- ==== Sys2Proof/Machine/Home.lean ====
section
/-!
DEFINITION. Meanings of the home directory's events (07 R225-R230).
-/
namespace Sys2Proof.Machine

/-- Two packets touch a common line. -/
def sharesLine (p q : Packet) : Bool := (pktLines p).any (pktLines q).contains
/-- A request of a cache for a line: a fill or a check. -/
def isFillMsg (p : Packet) : Bool := isCacheMsg p && p.op = 1

/-- A request of the same line stands before packet `i` of the inbox: requests to one line are served in the order in
which they reach the directory (R227). A write-back waits for none, since it ends its sender's copy. -/
def homeBlocked (s : State) (g i : Nat) (p : Packet) : Bool :=
  !(isCacheMsg p && p.op = 2) &&
  ((s.bough.inbox.take i).any (fun q => atHome g q && sharesLine p q)
    || s.rmc.homeReqs.any (fun r => r.home = g && sharesLine p r.pkt)
    || s.dram.accesses.any (fun a => atHome g a.pkt && isFillMsg a.pkt && sharesLine p a.pkt))

/-- A fill or check has an entry for its line, or finds a free one (R228). -/
def hasEntry (s : State) (g : Nat) (p : Packet) : Bool :=
  !isFillMsg p || (dirFind s g (lineOf p.addr)).isSome || (dirFree s g (lineOf p.addr)).isSome

/-- The home directory takes request `i` of the inbox: withdrawals go out to the holders that stand in its way (R227).
-/
def execHomeRequest (i : Nat) (s : State) : Host.Outcome State Fault Refusal :=
  Next (match inboxAt s i with
    | none => s
    | some p =>
      let g := p.dst / 256 - 8
      if !atHome g p ∨ rmcWaits s g ∨ homeBlocked s g i p ∨ !hasEntry s g p then s
      else
        let n := needs s g p
        let s1 := { s with bough := { s.bough with inbox := s.bough.inbox.eraseIdx i } }
        let s2 := if isFillMsg p then reserveEntry g (lineOf p.addr) s1 else s1
        let s3 := { s2 with rmc := { s2.rmc with homeReqs := s2.rmc.homeReqs ++ [{ home := g, pkt := p, awaits := n }] } }
        n.foldl (fun t x => withdraw g x t) s3)

/-- A line of a home is in service. -/
def lineBusy (s : State) (g line : Nat) : Bool :=
  s.rmc.homeReqs.any (fun r => r.home = g && (pktLines r.pkt).contains line)
    || s.dram.accesses.any (fun a => atHome g a.pkt && (pktLines a.pkt).contains line)

/-- Request `i` of the inbox needs an entry and its set is full: the least recently used entry is released (R228). -/
def execDirectoryEvict (i : Nat) (s : State) : Host.Outcome State Fault Refusal :=
  Next (match inboxAt s i with
    | none => s
    | some p =>
      let g := p.dst / 256 - 8
      let b := dirBase g (lineOf p.addr)
      if !atHome g p ∨ rmcWaits s g ∨ hasEntry s g p ∨ s.rmc.evicts.any (fun e => e.key / 16 = b / 16) then s
      else
        let keys := ((upto 16).map (b + ·)).filter (fun k => (dirAt s k).holders ≠ 0 && !lineBusy s g (dirAt s k).line)
        match keys.foldl (fun (a : Option Nat) k => match a with
            | none => some k
            | some m => if (dirAt s k).used < (dirAt s m).used then some k else some m) none with
        | none => s
        | some k =>
          let e := dirAt s k
          let w := (holdersOf e).map (fun h => (e.line, h, wdRelease))
          w.foldl (fun t x => withdraw g x t)
            { s with rmc := { s.rmc with evicts := s.rmc.evicts ++ [{ home := g, key := k, line := e.line, awaits := w }] } })

/-- A VC0 write reaches its channel station: it is performed at once, STALE to the line's S holders, RECALL_DROP to
its M holder (R229). -/
def execVc0DramWrite (i : Nat) (s : State) : Host.Outcome State Fault Refusal :=
  Next (match inboxAt s i with
    | none => s
    | some p =>
      let g := p.dst / 256 - 8
      if !(isGroveDie (p.dst / 256) && (p.dst % 256 = 1 || p.dst % 256 = 2) && p.op = 3 && p.vc = 0) ∨ rmcWaits s g then s
      else
        let c := 2 * g + (p.dst % 256 - 1)
        let s1 := { s with bough := { s.bough with inbox := s.bough.inbox.eraseIdx i } }
        let s2 := (needs s1 g p).foldl (fun t x =>
          let u := withdraw g x t
          if x.2.2 = wdDrop then
            { u with rmc := { u.rmc with recalls := u.rmc.recalls ++ [{ home := g, line := x.1, addr := p.addr, holder := x.2.1 }] } }
          else u) s1
        if chanState s2 c = 0x93 ∨ chanState s2 c = 0x94 ∨ (chanState s2 c = 0x92 ∧ chanMapped s2 c) then
          modChan c (fun x => { x with rtWait := x.rtWait ++ [p] }) s2
        else if chanMapped s2 c then s2
        else noteUnmapped p.src p.addr s2)

/-- A surrender arrives at a home: a notice, or the answer of a withdrawal (R227). -/
def execSurrenderArrival (i : Nat) (s : State) : Host.Outcome State Fault Refusal :=
  Next (match inboxAt s i with
    | none => s
    | some p =>
      let g := p.dst / 256 - 8
      if !(p.op = 6 && p.dst % 256 = 3 && isGroveDie (p.dst / 256) && p.src % 256 = 3 && p.addr / 0x4000000000 = g) ∨ rmcWaits s g then s
      else
        surrender g (lineOf p.addr) (cacheOf p) (if p.len = 64 then some p.data else none) p.poison
          { s with bough := { s.bough with inbox := s.bough.inbox.eraseIdx i } })

end Sys2Proof.Machine
end

