-- ==== Sys2Proof/Machine/PinOps.lean ====
section
/-!
DEFINITION. Service pins as operations: which pin feeds an input, conflicts, levels, switches (17 R516-R526).
-/
namespace Sys2Proof.Machine

/-- SVP_PIN of pin `n`. -/
def svpPin (n : Nat) : Nat := svpBase + 0x100 + 4 * n
def svpOut (g : Nat) : Nat := svpBase + 4 * g
def svpOe (g : Nat) : Nat := svpBase + 0x20 + 4 * g
def svpStatus : Nat := svpBase + 0x60
def pinFunc (s : State) (n : Nat) : Nat := rdF s (svpPin n) 21 16
def pinIndex (s : State) (n : Nat) : Nat := rdF s (svpPin n) 12 8
def pinSwitching (s : State) (n : Nat) : Bool := rdB s (svpPin n) 31

/-- Functions that are inputs or have an input half (R516). -/
def inputFuncs : List Nat := [0x02, 0x03, 0x07, 0x0A, 0x0C, 0x10, 0x12]
/-- INDEX values that a function has; none for a function that may not be placed. -/
def funcIndexes (f : Nat) : Option Nat :=
  match f with
  | 0x00 => some 1
  | 0x02 => some 6
  | 0x03 => some 6
  | 0x05 => some 2
  | 0x06 => some 2
  | 0x07 => some 2
  | 0x08 => some 8
  | 0x09 => some 2
  | 0x0A => some 2
  | 0x0B => some 8
  | 0x0C => some 8
  | 0x10 => some 32
  | 0x11 => some 16
  | 0x12 => some 1
  | _ => none

/-- Pins that feed an input, from the lowest (R518, R523). -/
def feeders (s : State) (f i : Nat) : List Nat :=
  (upto 96).filter (fun n => pinFunc s n = f && pinIndex s n = i && !pinSwitching s n)
/-- Exactly one pin feeds the input. -/
def feedOk (s : State) (f i : Nat) : Bool := (feeders s f i).length = 1
/-- Some pin drives an output function. -/
def carried (s : State) (f i : Nat) : Bool :=
  (upto 96).any (fun n => pinFunc s n = f && pinIndex s n = i && !pinSwitching s n)

/-- Inputs now in conflict: those that a pin feeds beside a lower one. -/
def conflictsNow (s : State) : List (Nat × Nat) :=
  ((upto 96).map (fun n => (pinFunc s n, pinIndex s n))).eraseDups.filter
    (fun e => inputFuncs.contains e.1 && decide (2 ≤ (feeders s e.1 e.2).length))

/-- An input enters conflict (R518, R532). -/
def enterConflict (s : State) (e : Nat × Nat) : State :=
  let pin := (feeders s e.1 e.2).getLastD 0
  let s1 := cnt (wr (wrB s svpStatus 0 true) (svpBase + 0x64) (word (e.1 * 2 ^ 16 + e.2 * 2 ^ 8 + pin))) (svpBase + 0x68)
  let n := s1.pins.conflictsSince + 1
  let s2 := { s1 with pins := { s1.pins with conflictsSince := n } }
  let soon : Bool := match s2.pins.conflictLast with
    | some t => decide (s2.tu.tick < t + tickMs)
    | none => false
  if soon then s2
  else
    let r := raiseSince 0x0B01 1 0x000 n (fun k => [rd s2 (svpBase + 0x64), word k]) s2
    { r.2 with pins := { r.2.pins with conflictsSince := r.1, conflictLast := some r.2.tu.tick } }

/-- The reference input stops being ready: REF_OK clears, PIN_REF_LOST (R526). -/
def refLoss (detail : Nat) (s : State) : State :=
  if rdB s svpStatus 1 then raise 0x0B02 2 0x000 [word detail] (wrB s svpStatus 1 false) else s

/-- The inputs after pins changed: conflicts entered and left, and the reference input (R518, R526). -/
def settleInputs (s : State) : State :=
  let now := conflictsNow s
  let s1 := (now.filter (fun e => !s.pins.conflicts.contains e)).foldl enterConflict s
  let s2 := { s1 with pins := { s1.pins with conflicts := now } }
  if feedOk s2 0x12 0 then s2 else refLoss (if now.contains (0x12, 0) then 4 else 1) s2

/-- The level that a pin drives; none while its pad is released or its level is not the model's to know. -/
def pinDrives (s : State) (n : Nat) : Option Bool :=
  let i := pinIndex s n
  if pinSwitching s n then some (sget false s.pins.keeper n)
  else match pinFunc s n with
    | 0x00 =>
      let v := rdB s (svpOut (n / 16)) (n % 16)
      if rdB s (svpOe (n / 16)) (n % 16) ∧ (!rdB s (svpPin n) 5 ∨ !v) then some v else none
    | 0x05 => some ((sget 0 s.pins.spiMode i).testBit 1)
    | 0x08 => some true
    | 0x09 => if (sget {} s.pins.uarts i).tx = [] ∨ gated s 0 1 then some true else none
    | 0x11 => some (sget {} s.tu.outs i).high
    | _ => none

/-- The level at a pin's ball; what the board drives is a free value. -/
def pinLevel (n : Nat) (s : State) : Bool × State :=
  match pinDrives s n with
  | some v => (v, s)
  | none => (Config.freeBit s.fresh, tick1 s)

/-- SVP_IN of group `g` (R521). -/
def svpIn (g : Nat) (s : State) : Word × State :=
  let r := (upto 16).foldl (fun (a : Nat × State) k =>
    let l := pinLevel (16 * g + k) a.2
    (a.1 + b2n l.1 * 2 ^ k, l.2)) (0, s)
  (word r.1, r.2)

/-- A switch begins at cycle 0: the keeper takes the level, the switch is counted (R523). -/
def beginSwitch (n : Nat) (v : Word) (s : State) : State :=
  let l := pinLevel n s
  let s1 := { l.2 with pins := { l.2.pins with keeper := sset false l.2.pins.keeper n l.1 } }
  cnt (wr s1 (svpPin n) (setBit v 31 true)) (svpBase + 0x6C)

/-- A pin's new value as PIN_CONFIG writes it (R523, R524). -/
def writePin (n : Nat) (v : Word) (s : State) : State :=
  if pinSwitching s n then { s with pins := { s.pins with waiting := sset none s.pins.waiting n (some v) } }
  else if fld v 21 16 = pinFunc s n ∧ fld v 12 8 = pinIndex s n then wr s (svpPin n) (setBit v 31 false)
  else beginSwitch n v s

end Sys2Proof.Machine
end

