-- ==== Sys2Proof/Machine/Clk.lean ====
section
/-!
DEFINITION. Meanings of the clock sources, their selection, the monitors, gating and the CLK commands that name no
die reset (03 R78-R90, R97).
-/
namespace Sys2Proof.Machine

/-! ### Ready flags (R79) -/

def clkReady : Nat := clkBase
def rootSel : Nat := clkBase + 4
def switchStatus : Nat := clkBase + 8

/-- LOL of lane LN`n` is clear, so its recovered clock is ready (R79; 14 R421). -/
def laneClockReady (s : State) (n : Nat) : Bool := n < 512 && !rdB s (lanBlk n + 0xC) 1

/-- The source of SRL (R86 table) is ready. -/
def srlReady (s : State) (src : Nat) : Bool :=
  match src with
  | 0 => rdB s clkReady 1
  | 1 => rdB s clkReady 2
  | 2 => rdB s clkReady 3
  | _ => rdB s clkReady 5

/-- The source of TL, with the lane it names, is ready. -/
def tlReady (s : State) (src lane : Nat) : Bool :=
  match src with
  | 0 => rdB s clkReady 2
  | 1 => rdB s clkReady 3
  | 2 => laneClockReady s lane
  | 3 => rdB s (svpBase + 0x60) 1
  | _ => false

/-- The source of LRL`l` is ready: REFIN0-3 present, or TL locked. -/
def lrlReady (s : State) (l src : Nat) : Bool :=
  if src < 4 then rdB s (clkBlk (l + 1)) src else src = 4 && rdB s clkReady 5

/-- A domain is being slewed to a new reference. -/
def switching (s : State) (dom : Nat) : Bool := s.clk.switching.contains dom

/-- A slew begins; SWITCHING stands for SRL and TL, and SRL no longer holds over (R85, R86). -/
def startSlew (dom : Nat) (s : State) : State :=
  let s1 := { s with clk := { s.clk with switching := s.clk.switching.filter (· ≠ dom) ++ [dom] } }
  let s2 := if dom < 2 then wrB s1 switchStatus 1 true else s1
  if dom = 0 then wrB s2 switchStatus 4 false else s2

/-- A slew ends. -/
def endSlew (dom : Nat) (s : State) : State :=
  let l := s.clk.switching.filter (· ≠ dom)
  wrB { s with clk := { s.clk with switching := l } } switchStatus 1 (l.any (· < 2))

/-- One selection field checked as R84 says: honoured when its target is ready and its domain is not switching, else
REFUSED is set. A field that keeps its value is not a selection. -/
def selectField (s : State) (a hi lo v dom : Nat) (ready : Bool) : State :=
  if rdF s a hi lo = v then s
  else if ready ∧ !switching s dom then startSlew dom (wrF s a hi lo v)
  else wrB s switchStatus 0 true

/-- SRL_FB written: checked as a selection, it names no reference in use and starts no slew (R84, R86). -/
def writeFallback (fb : Nat) (s : State) : State :=
  if rdF s rootSel 5 4 = fb then s
  else if srlReady s fb ∧ !switching s 0 then wrF s rootSel 5 4 fb
  else wrB s switchStatus 0 true

/-- A write of CLK_ROOT_SEL, field by field (R84, R86). TL_LANE and TL_REF name one selection. -/
def writeRootSel (v : Word) (s : State) : State :=
  let s1 := writeFallback (fld v 5 4) s
  let s2 := selectField s1 rootSel 1 0 (fld v 1 0) 0 (srlReady s (fld v 1 0))
  let ref := fld v 10 8
  let lane := fld v 24 16
  if 4 ≤ ref then s2
  else if rdF s2 rootSel 10 8 = ref ∧ (ref ≠ 2 ∨ rdF s2 rootSel 24 16 = lane) then wrF s2 rootSel 24 16 lane
  else if tlReady s2 ref lane ∧ !switching s2 1 then
    startSlew 1 (wrF (wrF s2 rootSel 10 8 ref) rootSel 24 16 lane)
  else wrB s2 switchStatus 0 true

/-- A write of CLK_LRL_SEL of lane die `l` (R84, R89); codes above 100 are unlisted (00 R6). -/
def writeLrlSel (l : Nat) (v : Word) (s : State) : State :=
  let src := fld v 2 0
  if 5 ≤ src then s else selectField s (clkBlk (l + 1) + 4) 2 0 src (2 + l) (lrlReady s l src)

/-- A write to a source-selection field: CLK_ROOT_SEL of the hub (die 0) or CLK_LRL_SEL of a lane die; only the
Warden writes it (R78, R84). -/
def execClkSourceSelectWrite (src : Writer) (die : Nat) (value : Word) (s : State) :
    Host.Outcome State Fault Refusal :=
  Next (if s.pkg.held ∨ src ≠ .warden then s
    else if die = 0 then writeRootSel value s
    else if isLaneDie die then writeLrlSel (die - 1) value s
    else s)

/-- The reference in use of a domain. -/
def refOf (s : State) (dom : Nat) : Nat :=
  if dom = 0 then rdF s rootSel 1 0 else if dom = 1 then rdF s rootSel 10 8 else rdF s (clkBlk (dom - 1) + 4) 2 0

/-! ### Losing and regaining a reference (R86, R90) -/

/-- SRL's reference has lost its ready flag: holdover, then the fallback when it names another ready source (R86). -/
def srlRefLost (s : State) : State :=
  let ref := rdF s rootSel 1 0
  let fb := rdF s rootSel 5 4
  let s1 := wrB (wrB s switchStatus 4 true) switchStatus 2 true
  if fb ≠ ref ∧ srlReady s fb then
    let s2 := wrB (wrB (startSlew 0 (wrF s1 rootSel 1 0 fb)) switchStatus 3 true) switchStatus 4 false
    raise 0x0202 0 0 [0, word ref, word fb, 1] (raise 0x0201 2 0 [0, word ref, 1] s2)
  else raise 0x0201 2 0 [0, word ref, 2] (endSlew 0 s1)

/-- SRL's selected reference is no longer ready (R86). -/
def execRefLost (s : State) : Host.Outcome State Fault Refusal :=
  Next (if srlReady s (rdF s rootSel 1 0) ∨ s.pkg.held then s else srlRefLost s)

/-- A monitor's fault: its bit in CLK_MON_STATUS of the die, and CLK_MON_FAULT (R90). -/
def monFault (die m sev : Nat) (ppm : Int) (s : State) : State :=
  raise 0x0203 sev 0 [word (die + m * 2 ^ 8), word (uint 32 ppm)] (wrB s (clkBlk die + 0xC) m true)

/-- M0: event only. -/
def execSoscMonitorFault (ppm : Int) (s : State) : Host.Outcome State Fault Refusal :=
  Next (if s.pkg.held then s else monFault 0 0 2 ppm s)

/-- M1 or M2: the ready flag of XIN0 or XIN1 clears; R86 when SRL takes it. -/
def execXinMonitorFault (x : Nat) (ppm : Int) (s : State) : Host.Outcome State Fault Refusal :=
  Next (if s.pkg.held ∨ 2 ≤ x then s
    else
      let s1 := monFault 0 (1 + x) 2 ppm (wrB s clkReady (2 + x) false)
      if rdF s1 rootSel 1 0 = 1 + x then srlRefLost s1 else s1)

/-- M3: SRL_LOCK lost, SRL holds over. -/
def execSrlLockLost (s : State) : Host.Outcome State Fault Refusal :=
  Next (if s.pkg.held then s else monFault 0 3 2 0 (wrB (wrB s clkReady 4 false) switchStatus 4 true))

/-- SRL has not relocked within 1 ms: the event at severity 3. -/
def execSrlRelockTimeout (s : State) : Host.Outcome State Fault Refusal :=
  Next (if s.pkg.held ∨ rdB s clkReady 4 then s else raise 0x0203 3 0 [word (3 * 2 ^ 8), 0] s)

/-- M4: TL_LOCK lost, TL holds over. A domain that takes TL loses its ready reference: SRL acts under R86. -/
def execTlLockLost (s : State) : Host.Outcome State Fault Refusal :=
  Next (if s.pkg.held then s
    else
      let s1 := monFault 0 4 2 0 (wrB s clkReady 5 false)
      let s2 := { s1 with clk := { s1.clk with holdover := s1.clk.holdover.filter (· ≠ 1) ++ [1] } }
      if rdF s2 rootSel 1 0 = 3 then srlRefLost s2 else s2)

/-- Boot step 4 ends, the firmware of step 5 follows (04 R98). -/
def endStep4 (s : State) : State := if rdF s cfgBase 23 16 = 4 then wrF s cfgBase 23 16 5 else s

/-- The slew of a domain ends: SWITCHING clears, and a CLK_SELECT that waits for it raises CLK_SWITCHED and is
answered OK (R85, R86). -/
def execReferenceSlewEnd (domain : Nat) (s : State) : Host.Outcome State Fault Refusal :=
  Next (if !switching s domain then s
    else
      let s1 := if domain = 0 then endStep4 (endSlew 0 s) else endSlew domain s
      match s.clk.selectBooth.find? (fun e => e.1 = domain) with
      | none => s1
      | some e =>
        let s2 := { s1 with clk := { s1.clk with selectBooth := s1.clk.selectBooth.filter (fun e => e.1 ≠ domain) } }
        let st := if domain < 2 then sysState s2 else dieState s2 (domain - 1)
        let s3 := match running s2 0x0202 with
          | some t => if t.flags.testBit 1 then s2 else answer t.booth stOk st 0 [] s2
          | none => s2
        raise 0x0202 0 0 [word domain, word e.2, word (refOf s3 domain), 0] s3)

/-- A ready or lock flag rises under its condition of R79. An XIN's flag asks for its amplitude to be satisfied. -/
def execReadyFlagSet (source : ClockSource) (s : State) : Host.Outcome State Fault Refusal :=
  Next (if s.pkg.held then s
    else match source with
      | .sosc => wrB s clkReady 0 true
      | .fosc => wrB s clkReady 1 true
      | .xin x => if x < 2 ∧ s.clk.ampl.contains x then wrB s clkReady (2 + x) true else s
      | .srl => wrB (wrB s clkReady 4 true) switchStatus 4 false
      | .tl =>
        let s1 := wrB s clkReady 5 true
        { s1 with clk := { s1.clk with holdover := s1.clk.holdover.filter (· ≠ 1) } }
      | .lrl l => if l < 4 then wrB s (clkBlk (l + 1)) 4 true else s
      | .dcl d =>
        if isLaneDie d ∨ isGroveDie d then wrB (wrB s (clkBlk d) 31 true) clkReady (8 + d) true else s
      | .ful g n => if g < 8 ∧ n < 24 then wrB s (clkBlk (8 + g)) n true else s
      | .refin l n => if l < 4 ∧ n < 4 then wrB s (clkBlk (l + 1)) n true else s
      | .pinRef => if s.pins.refHz = 0 ∨ !feedOk s 0x12 0 then s else wrB s (svpBase + 0x60) 1 true)

/-! ### Start of the oscillators (R81, R82) -/

/-- XIN`x` is fitted: XIN0 always, XIN1 by its strap (01 R23). -/
def xinFitted (s : State) (x : Nat) : Bool := x = 0 || (x = 1 && rdB s (wdnBase + 0x10) 6)

/-- The start delay of XIN`x` elapses and the amplitude detector is consulted (R82). -/
def execXinStartDelayExpiry (x : Nat) (satisfied : Bool) (s : State) : Host.Outcome State Fault Refusal :=
  Next (if s.pkg.held ∨ !xinFitted s x ∨ s.clk.ampl.contains x then s
    else if satisfied then { s with clk := { s.clk with ampl := s.clk.ampl ++ [x] } }
    else
      let n := (if x = 0 then s.clk.fails0 else s.clk.fails1) + 1
      let s1 := { s with clk := if x = 0 then { s.clk with fails0 := n } else { s.clk with fails1 := n } }
      if 16 ≤ n then wrB s1 switchStatus (5 + x) true else s1)

/-- The boot code switches SRL to the first XIN that is ready, XIN0 if both are (R81). -/
def execBootReferenceSwitch (s : State) : Host.Outcome State Fault Refusal :=
  Next (if s.pkg.held ∨ rdF s rootSel 1 0 ≠ 0 ∨ s.clk.noReference then s
    else if srlReady s 1 then selectField s rootSel 1 0 1 0 true
    else if srlReady s 2 then selectField s rootSel 1 0 2 0 true
    else s)

/-- 200 ms pass without a ready XIN: CLK_NO_REFERENCE, and booths are served on FOSC (R81). -/
def execReferenceWaitTimeout (s : State) : Host.Outcome State Fault Refusal :=
  Next (if s.pkg.held ∨ rdF s rootSel 1 0 ≠ 0 ∨ srlReady s 1 ∨ srlReady s 2 then s
    else
      let c0 := s.clk.ampl.contains 0 || s.clk.fails0 ≠ 0
      let c1 := s.clk.ampl.contains 1 || s.clk.fails1 ≠ 0
      raise 0x0205 3 0 [word (b2n c0 + 2 * b2n c1)] (endStep4 { s with clk := { s.clk with noReference := true } }))

/-! ### The CLK commands (R97) -/

/-- CLK_INFO. -/
def execClkInfo (b : Nat) (s : State) : Host.Outcome State Fault Refusal :=
  Next (serve 0x0201 allServed (fun _ s =>
    let st (i : Nat) : Word := word (dieState s (4 * i) + dieState s (4 * i + 1) * 2 ^ 8
      + dieState s (4 * i + 2) * 2 ^ 16 + dieState s (4 * i + 3) * 2 ^ 24)
    .ok [rd s clkReady, rd s rootSel, rd s switchStatus, rd s (clkBase + 0xC), st 0, st 1, st 2, st 3] s) b s)

/-- The Warden's procedure of CLK_SELECT after its checks (R86): the selection written, and the domain waited for.
A target already selected switches nothing and is answered at once. -/
def clkSelectTo (dom src lane : Nat) (s : State) : State :=
  let s1 := if dom = 0 then selectField s rootSel 1 0 src 0 (srlReady s src)
    else if dom = 1 then
      if refOf s 1 = src ∧ (src ≠ 2 ∨ rdF s rootSel 24 16 = lane) then s
      else if tlReady s src lane ∧ !switching s 1 then
        startSlew 1 (wrF (wrF s rootSel 10 8 src) rootSel 24 16 lane)
      else wrB s switchStatus 0 true
    else selectField s (clkBlk (dom - 1) + 4) 2 0 src dom (lrlReady s (dom - 2) src)
  if switching s1 dom then
    { s1 with clk := { s1.clk with selectBooth := s1.clk.selectBooth.filter (fun e => e.1 ≠ dom) ++ [(dom, refOf s dom)] } }
  else s1

/-- The target of a domain is ready. -/
def selectReady (s : State) (dom src lane : Nat) : Bool :=
  if dom = 0 then srlReady s src else if dom = 1 then tlReady s src lane else lrlReady s (dom - 2) src

/-- The next command served is a CLK_SELECT of a lane die's domain. -/
def selectsLrl (s : State) : Bool :=
  match nextWaiting s with
  | some t => decide (2 ≤ nfld (wordAt t.args 0) 2 0)
  | none => false

/-- CLK_SELECT (R86, R97): SRL_FB takes the fallback named beside it, in the same write. -/
def execClkSelect (b : Nat) (s : State) : Host.Outcome State Fault Refusal :=
  Next (serve 0x0202 (if selectsLrl s then [0x30, 0x31] else runTrial) (fun r s =>
    let dom := r.f 0 2 0
    let src := r.f 4 2 0
    let lane := r.f 4 24 16
    if 6 ≤ dom then badArg 0
    else if (dom < 2 ∧ 4 ≤ src) ∨ 5 ≤ src then badArg 4
    else if switching s dom then .no stBusy 0x0202
    else if !selectReady s dom src lane then .no stNotReady 0x0201
    else
      let s1 := clkSelectTo dom src lane (if dom = 0 then writeFallback (r.f 8 1 0) s else s)
      if switching s1 dom then .run s1 else .ok [] (raise 0x0202 0 0 [word dom, word src, word src, 0] s1)) b s)

/-- Number of gateable blocks of a die (R88). -/
def gateBits (die : Nat) : Nat := if die = 0 then 2 else if isLaneDie die then 17 else 18

/-- An access to a gated block reads zero or is discarded and is counted; one to a block under reset is not (R88,
R89). -/
def execGatedBlockAccess (die blk : Nat) (s : State) : Host.Outcome State Fault Refusal :=
  Next (if !isDie die ∨ gateBits die ≤ blk ∨ !gated s die blk ∨ rdB s (clkBlk die + 0x108) blk then s
    else cnt s (clkBlk die + 0x14))

end Sys2Proof.Machine
end

