-- ==== Sys2Proof/Machine/Fabric.lean ====
section
/-!
DEFINITION. Meanings of the programmable fabric's resources while a design runs: cells, block RAM and its parity
square, the user NVM, the serial ports and the trace memory (05 R128-R170). The routing candidates of a cluster are
listed in a device database that the spec does not hold, so that what a design drives on a port is an operand.
-/
namespace Sys2Proof.Machine

/-! ### Cells (R132-R136) -/

/-- Outputs O6 and O5 and carry out of a cell, from its 64-bit TRUTH, MODE, inputs 5-0 as a number, and carry in
(R133, R135). -/
def cellOut (truth mode inp : Nat) (ci : Bool) : Bool × Bool × Bool :=
  let lo := truth.testBit (inp % 32)
  let hi := truth.testBit (32 + inp % 32)
  match mode with
  | 1 => (truth.testBit (inp % 64), false, ci)
  | 2 => (hi, lo, ci)
  | 3 => let co := if lo then ci else hi
         (lo != ci, co, co)
  | 4 => (truth.testBit (inp % 64), false, ci)
  | _ => (false, false, ci)

/-- TRUTH of a RAM64 cell after a rising edge of cluster clock 1 (R133). -/
def ram64Edge (truth mode inp : Nat) (we x : Bool) : Nat :=
  if mode = 4 ∧ we ∧ truth.testBit (inp % 64) ≠ x then truth ^^^ 2 ^ (inp % 64) else truth

/-- A flip-flop after a clock edge, from its configuration bits INIT, CE, SR (R134). -/
def ffEdge (init useCe useSr ce sr d q : Bool) : Bool :=
  if useSr && sr then init else if useCe && !ce then q else d

/-- The grove clock line that CLKSEL names (R136): 0-23 loops, 24 CK_LINK, 25 and 26 oscillators. -/
def clockLine (sel : Nat) : Option Nat := if sel < 27 then some sel else none

/-- A grove clock line carries edges: a loop that is locked, CK_LINK, or an oscillator that runs and is not gated
(R136, R157). -/
def lineRuns (s : State) (g line : Nat) : Bool :=
  if line < 24 then dieState s (8 + g) ≠ 0x32 && rdB s (clkBlk (8 + g)) line && (sget (0, 0) s.clk.fuls (g * 32 + line)).2 ≠ 0
  else if line = 24 then dieAlive s (8 + g)
  else hardOn s g (line - 25) && rdB s (clkBlk (8 + g) + 0x10) (line - 16)

/-- A loop clocks a region: the region owns it, or one of its clusters' clocks takes the loop's line (R131, R136). -/
def loopClocks (s : State) (g loop r : Nat) : Bool :=
  ownerOf s g 4 (128 + loop) = r ||
  s.fab.live.any (fun e =>
    decide (e.1 / 65536 = g * 8 + 1) && ownerOf s g 1 (e.1 % 65536) = r &&
    (upto 8).any (fun j =>
      nfld (wordAt e.2 (124 * j + 114)) 4 0 = loop || nfld (wordAt e.2 (124 * j + 114)) 12 8 = loop))

/-- Frequency in kHz of a fabric oscillator: 25 MHz x (16 + CODE) / 16, CODE at most 240 (R157). -/
def oscKhz (s : State) (g k : Nat) : Nat := 25000 * (16 + min 240 (nfld (hardCfg s g k) 15 8)) / 16

/-! ### The parity square (R149, R150) -/

/-- Even parity over the bits of an 8-bit number. -/
def par8 (n : Nat) : Nat := ((upto 8).filter (fun i => n.testBit i)).length % 2

/-- The 16 check bits of a word. -/
def squareOf (d : Nat) : Nat :=
  (upto 8).foldl (fun n i => n + par8 (nfld d (8 * i + 7) (8 * i)) * 2 ^ i
    + par8 ((upto 8).foldl (fun m j => m + b2n (d.testBit (8 * j + i)) * 2 ^ j) 0) * 2 ^ (8 + i)) 0

/-- The single bit set in an 8-bit number. -/
def oneBit (n : Nat) : Option Nat := (upto 8).find? (fun i => n = 2 ^ i)

/-- Finding of a read: 0 none, 1 corrected, 2 uncorrectable; the word delivered, and the word to write back. -/
def squareCheck (x : BramWord) : Nat × Nat × BramWord :=
  let syn := squareOf x.data ^^^ x.chk
  let r := syn % 256
  let c := syn / 256
  if syn = 0 then (0, x.data, x)
  else match oneBit r, oneBit c with
    | some i, some j => let d := x.data ^^^ 2 ^ (8 * i + j); (1, d, ⟨d, squareOf d⟩)
    | some _, none => if c = 0 then (1, x.data, ⟨x.data, squareOf x.data⟩) else (2, x.data, x)
    | none, some _ => if r = 0 then (1, x.data, ⟨x.data, squareOf x.data⟩) else (2, x.data, x)
    | none, none => (2, x.data, x)

/-! ### Block RAM -/

/-- Block RAM number. -/
def bramNo (g b : Nat) : Nat := g * 2048 + b
/-- The stored word that an address uses: its spare when it is mended (R154). -/
def bramLoc (s : State) (n w : Nat) : Nat :=
  match (upto 4).find? (fun k => sget none s.fab.mends (n * 4 + k) = some w) with
  | some k => 1024 + k
  | none => w
/-- A stored word. One not written since its contents became undefined holds a free value; before that, zero. -/
def bramAt (s : State) (n loc : Nat) : BramWord :=
  match sget none s.fab.bram (n * 2048 + loc) with
  | some x => x
  | none =>
    match (sget none s.fab.bramVoid n).or (sget none s.fab.bramVoid (n / 2048 * 2048 + 2047)) with
    | some k => ⟨(Config.undefBram k n loc).1 % 2 ^ 64, (Config.undefBram k n loc).2 % 2 ^ 16⟩
    | none => {}
def bramSet (n loc : Nat) (x : BramWord) (s : State) : State :=
  { s with fab := { s.fab with bram := sset none s.fab.bram (n * 2048 + loc) (some x) } }
/-- A stored word in the layout of CFG_BRAM_LAST. -/
def bramPlace (b loc : Nat) : Nat :=
  b * 2 ^ 16 + (if 1024 ≤ loc then 2 ^ 12 + (loc - 1024) else loc)

/-- A whole word written with its check bits; an armed point 0x00 inverts stored bits (19 R560). -/
def bramPut (g b loc d : Nat) (s : State) : State :=
  let x : BramWord := ⟨d, squareOf d⟩
  let die := 8 + g
  let s0 := whereFree die 0 (bramPlace b loc) s
  if injTarget s die 0 % 2048 = b then
    let r := inject die 0 s0
    if r.1 then
      let p := injPattern s die 0
      let m := (2 ^ (p % 128)) ^^^ (if p.testBit 15 then 2 ^ nfld p 14 8 else 0)
      let y := (x.data + x.chk * 2 ^ 64) ^^^ m
      whereAdd die 0 (bramPlace b loc) (bramSet (bramNo g b) loc ⟨y % 2 ^ 64, y / 2 ^ 64 % 2 ^ 16⟩ r.2)
    else bramSet (bramNo g b) loc x r.2
  else bramSet (bramNo g b) loc x s0

/-- A finding under R150 counted, recorded and reported (R170; 19 R565, R573). -/
def bramFinding (g b loc kind : Nat) (s : State) : State :=
  let place := bramPlace b loc
  if kind = 0 then s
  else
    let s1 := wr s (cfgGrv g + 0x110) (word (place + (if kind = 2 then 2 ^ 31 else 0)))
    let s2 := findingAt (8 + g) 0 place s1
    if kind = 1 then countCorr (8 + g) (cnt s2 (cfgGrv g + 0x108))
    else
      let s3 := countUncorr (8 + g) (cnt s2 (cfgGrv g + 0x10C))
      let n := sget 0 s3.ras.bramSince g + 1
      let soon := match sget none s3.ras.bramLast g with
        | some t => decide (s3.tu.tick < t + tickMs)
        | none => false
      if soon then { s3 with ras := { s3.ras with bramSince := sset 0 s3.ras.bramSince g n } }
      else
        raise 0x0804 2 0 [word g, rd s3 (cfgGrv g + 0x110), word n]
          { s3 with ras := { s3.ras with bramSince := sset 0 s3.ras.bramSince g 0,
                                         bramLast := sset none s3.ras.bramLast g (some s3.tu.tick) } }

/-- A read of address `w`: finding, data delivered, and a write-back owed when it was corrected (R150, R151). -/
def bramRead (g b w : Nat) (s : State) : Nat × Nat × State :=
  let n := bramNo g b
  let loc := bramLoc s n w
  let r := squareCheck (bramAt s n loc)
  let s1 := bramFinding g b loc r.1 s
  let s2 := if r.1 = 1 ∧ !s1.fab.writeBacks.contains (n, loc) then
      { s1 with fab := { s1.fab with writeBacks := s1.fab.writeBacks ++ [(n, loc)] } } else s1
  (r.1, r.2.1, s2)

/-- A write-back owed is dropped: the word has been written (R151). -/
def dropBack (n loc : Nat) (s : State) : State :=
  { s with fab := { s.fab with writeBacks := s.fab.writeBacks.filter (· ≠ (n, loc)) } }

/-- Address `w` written whole. -/
def bramWrite (g b w d : Nat) (s : State) : State :=
  let loc := bramLoc s (bramNo g b) w
  bramPut g b loc (d % 2 ^ 64) (dropBack (bramNo g b) loc s)

/-- The corrected word of an owed write-back written. -/
def writeBack (g b loc : Nat) (s : State) : State :=
  let x := (squareCheck (bramAt s (bramNo g b) loc)).2.2
  dropBack (bramNo g b) loc (bramSet (bramNo g b) loc x s)

/-- Bytes of `new` where `be` is set, else of `old`. -/
def mergeBytes (old new be n : Nat) : Nat :=
  (upto n).foldl (fun m i =>
    m + (if be.testBit i then nfld new (8 * i + 7) (8 * i) else nfld old (8 * i + 7) (8 * i)) * 2 ^ (8 * i)) 0

/-- Bits presented by a width code (R145). -/
def widthBits (wd : Nat) : Nat := 64 / 2 ^ wd

/-- A port's configuration: its ten bits of R144. -/
def portCfg (s : State) (g b port : Nat) : Nat :=
  if port = 0 then nfld (bramCfg s g b) 9 0 else nfld (bramCfg s g b) 25 16

/-- The port takes operations of the design: it is in use, its region runs, and port B is not exported. -/
def portOn (s : State) (g b port : Nat) : Bool :=
  g < 8 && b < 1920 && port < 2 && (portCfg s g b port).testBit 4 && regionRuns s g (bramOwner s g b)
    && !(port = 1 && (bramCfg s g b).testBit 26)

def setPort (n port : Nat) (x : BramPort) (s : State) : State :=
  { s with fab := { s.fab with bramPorts := sset {} s.fab.bramPorts (n * 2 + port) x } }

/-- One operation of a port, with its DOUT, CERR and UERR (R145-R147, R152). A partial write reads, checks, merges
and writes. -/
def bramOp (g b port : Nat) (write : Bool) (addr din be : Nat) (s : State) : State :=
  let cfg := portCfg s g b port
  let bits := widthBits (nfld cfg 1 0)
  let per := 64 / bits
  let w := addr / per % 1024
  let lo := bits * (addr % per)
  let view (d : Nat) : Nat := nfld d (lo + bits - 1) lo
  let n := bramNo g b
  let old := sget {} s.fab.bramPorts (n * 2 + port)
  let full := bits = 64 && be % 256 = 255
  if !write then
    let r := bramRead g b w s
    setPort n port ⟨view r.2.1, r.1 = 1, r.1 = 2⟩ r.2.2
  else if full then
    let rdw := nfld cfg 3 2
    if rdw = 0 then
      let r := bramRead g b w s
      setPort n port ⟨r.2.1, r.1 = 1, r.1 = 2⟩ (bramWrite g b w din r.2.2)
    else setPort n port ⟨if rdw = 1 then din % 2 ^ 64 else old.dout, false, false⟩ (bramWrite g b w din s)
  else
    let r := bramRead g b w s
    if r.1 = 2 then setPort n port ⟨old.dout, false, true⟩ r.2.2
    else
      let new := mergeBytes r.2.1 (din % 2 ^ bits * 2 ^ lo) (be % 2 ^ (bits / 8) * 2 ^ (lo / 8)) 8
      let rdw := nfld cfg 3 2
      let dout := if rdw = 0 then view r.2.1 else if rdw = 1 then view new else old.dout
      setPort n port ⟨dout, r.1 = 1, false⟩ (bramWrite g b w new r.2.2)

/-- A block RAM port takes an operation (R146). -/
def execBramPortOperation (g r port : Nat) (write : Bool) (addr din be : Nat) (s : State) :
    Host.Outcome State Fault Refusal :=
  .next (if portOn s g r port then bramOp g r port write addr din be s else s)

/-- A partial write over two cycles (R147). -/
def execBramPartialWrite (g r port addr din be : Nat) (s : State) : Host.Outcome State Fault Refusal :=
  .next (if portOn s g r port ∧ !(widthBits (nfld (portCfg s g r port) 1 0) = 64 && be % 256 = 255) then
      bramOp g r port true addr din be s else s)

/-- The oldest corrected word of a block RAM is written back in an idle cycle (R151). -/
def execBramWriteBack (g r : Nat) (s : State) : Host.Outcome State Fault Refusal :=
  .next (match s.fab.writeBacks.find? (fun e => e.1 = bramNo g r) with
    | some e => writeBack g r e.2 s
    | none => s)

/-- Spares of a block RAM in use. -/
def sparesUsed (s : State) (n : Nat) : List Nat :=
  (upto 4).filter (fun k => (sget none s.fab.mends (n * 4 + k)).isSome)

/-- BRAM_MEND (R154): a word found correctable on two consecutive passes moves to a free spare. -/
def bramMend (g b w : Nat) (s : State) : State :=
  let n := bramNo g b
  match (upto 4).find? (fun k => !(sparesUsed s n).contains k) with
  | none => s
  | some k =>
    let d := (squareCheck (bramAt s n w)).2.2
    let s1 := dropBack n w (bramSet n (1024 + k) d
      { s with fab := { s.fab with mends := sset none s.fab.mends (n * 4 + k) (some w) } })
    let last := (sparesUsed s1 n).length = 4
    let s2 := cnt s1 (cfgGrv g + 0x114)
    let s3 := if last then wr s2 (cfgGrv g + 0x118) (rd s2 (cfgGrv g + 0x118) + 1) else s2
    raise 0x0805 1 0 [word g, rd s3 (cfgGrv g + 0x110), word (b2n last)] s3

/-- The sweep reads the next word of a block RAM whose region runs (R153, R154); write-backs owed are made in its
access (R151). -/
def execBramSweepRead (g r : Nat) (s : State) : Host.Outcome State Fault Refusal :=
  let n := bramNo g r
  .next (if 8 ≤ g ∨ 1920 ≤ r ∨ !regionRuns s g (bramOwner s g r) then s
    else
      let s0 := (s.fab.writeBacks.filter (fun e => e.1 = n)).foldl (fun t e => writeBack g r e.2 t) s
      let words := upto 1024 ++ (sparesUsed s0 n).map (· + 1024)
      let pos := sget 0 s0.fab.sweepPos n
      let i := if pos < words.length then pos else 0
      let w := words.getD i 0
      let loc := if w < 1024 then bramLoc s0 n w else w
      let c := squareCheck (bramAt s0 n loc)
      let s1 := bramFinding g r loc c.1 s0
      let found := sget [] s1.fab.sweepFound n
      let again := found.contains w
      let found' := if c.1 = 1 ∧ !again then found ++ [w] else found.filter (· ≠ w)
      let s2 := { s1 with fab := { s1.fab with sweepPos := sset 0 s1.fab.sweepPos n ((i + 1) % words.length),
                                               sweepFound := sset [] s1.fab.sweepFound n found' } }
      if c.1 ≠ 1 then s2
      else if again ∧ loc < 1024 ∧ (sparesUsed s2 n).length < 4 then bramMend g r w s2
      else { s2 with fab := { s2.fab with writeBacks := s2.fab.writeBacks.filter (· ≠ (n, loc)) ++ [(n, loc)] } })

/-- An export access of at most 8 aligned bytes, as the answer it gets: status, data (R155). -/
def bramExport (g b : Nat) (write : Bool) (off len : Nat) (data : List Byte) (s : State) : Nat × List Byte × State :=
  let w := off / 8 % 1024
  let lo := off % 8
  if write then
    if len = 8 ∧ lo = 0 then (0, [], bramWrite g b w (ofBytes data) s)
    else
      let r := bramRead g b w s
      if r.1 = 2 then (stPoison, [], r.2.2)
      else (0, [], bramWrite g b w (mergeBytes r.2.1 (ofBytes data * 2 ^ (8 * lo)) ((2 ^ len - 1) * 2 ^ lo) 8) r.2.2)
  else
    let r := bramRead g b w s
    (if r.1 = 2 then stPoison else 0, ((toBytes 8 r.2.1).drop lo).take len, r.2.2)

/-- A Bough access of at most 8 aligned bytes reaches an exported block RAM (R155); another block RAM is unmapped. -/
def execBramExportAccess (src tag g r : Nat) (write : Bool) (off len : Nat) (data : List Byte) (s : State) :
    Host.Outcome State Fault Refusal :=
  .next (if 8 ≤ g ∨ 1920 ≤ r ∨ !exported s g r ∨ len = 0 ∨ 8 < off % 8 + len then s
    else
      let p : Packet := { op := if write then 2 else 1, vc := 2, dst := (8 + g) * 256, src := src, tag := tag,
                          addr := 0x020000000000 + g * 0x40000000 + 0x04000000 + r * 0x2000 + off % 0x2000, len := len }
      let x := bramExport g r write (off % 0x2000) len ((data ++ List.replicate len 0).take len) s
      respond p x.1 x.2.1 x.2.2)

/-! ### User NVM (R158-R160) -/

def nvmCountOf (s : State) (g sec : Nat) : Nat := sget 0 s.fab.nvmCount (g * 512 + sec)
/-- START is taken: the NVM is enabled, its region runs, it is not gated, and BUSY = 0. -/
def nvmFree (s : State) (g : Nat) : Bool :=
  g < 8 && hardOn s g 2 && rdB s (clkBlk (8 + g) + 0x10) 11 && (nvmPort s g).busy.isNone
/-- A command begins. -/
def nvmStart (g cmd a st d : Nat) (s : State) : State :=
  setNvmPort g { nvmPort s g with busy := some (cmd, a, st, d) } s

/-- READ of a word (R158). `upset` lists the stored bits that are in error, check bits from 64 on; an armed point
0x0C adds its own. A word left undefined by a cut command reads as free values (R160). -/
def execNvmRead (g addr : Nat) (upset : List Nat) (s : State) : Host.Outcome State Fault Refusal :=
  .next (if !nvmFree s g ∨ 262144 ≤ addr then s
    else
      let x := nvmAt s g addr
      if x.undef then
        nvmStart g 1 addr (if Config.freeBit s.fresh then 2 else 0)
          ((Config.freeWord s.fresh).toNat + (Config.freeWord (s.fresh + 1)).toNat * 2 ^ 32) (tick1 (tick1 s))
      else
        let r := inject (8 + g) 0xC s
        let p := injPattern s (8 + g) 0xC
        let add := if r.1 then nfld p 5 0 :: (if p.testBit 15 then [nfld p 13 8] else []) else []
        let bad := upset.eraseDups.filter (fun i => !add.contains i) ++ add.filter (fun i => !upset.contains i)
        let s1 := if r.1 ∧ bad ≠ [] then injSeen (8 + g) 0xC addr r.2 else r.2
        match bad with
        | [] => nvmStart g 1 addr 0 x.data s1
        | [_] => nvmStart g 1 addr 1 x.data (countCorr (8 + g) s1)
        | l => nvmStart g 1 addr 2 (l.foldl (fun d i => if i < 64 then d ^^^ 2 ^ i else d) x.data)
                 (countUncorr (8 + g) s1))

/-- PROGRAM of a word: a word that does not read all ones is NOT_ERASED (R158). -/
def execNvmProgram (g addr wdata : Nat) (s : State) : Host.Outcome State Fault Refusal :=
  .next (if !nvmFree s g ∨ 262144 ≤ addr then s
    else if nvmAt s g addr = {} then nvmStart g 2 addr 0 (wdata % 2 ^ 64) s
    else nvmStart g 2 addr 3 0 s)

/-- ERASE of the sector of ADDR: counted from the moment it begins, WORN at 100,000 (R159, R160). -/
def execNvmErase (g addr : Nat) (s : State) : Host.Outcome State Fault Refusal :=
  .next (if !nvmFree s g ∨ 262144 ≤ addr then s
    else
      let sec := addr / 512
      let n := nvmCountOf s g sec
      if 100000 ≤ n then nvmStart g 3 addr 4 0 s
      else
        let s1 := { s with fab := { s.fab with nvmCount := sset 0 s.fab.nvmCount (g * 512 + sec) (n + 1) } }
        let s2 := if n + 1 = 100000 then wr s1 (cfgGrv g + 0x11C) (rd s1 (cfgGrv g + 0x11C) + 1) else s1
        nvmStart g 3 addr 0 0 s2)

/-- COUNT of the sector of ADDR (R158). -/
def execNvmCount (g addr : Nat) (s : State) : Host.Outcome State Fault Refusal :=
  .next (if !nvmFree s g ∨ 262144 ≤ addr then s
    else nvmStart g 4 addr 0 (nvmCountOf s g (addr / 512) % 2 ^ 32) s)

/-- The words of a sector erased. -/
def nvmEraseSector (g sec : Nat) (s : State) : State :=
  let lo := g * 262144 + sec * 512
  { s with fab := { s.fab with nvm := sdrop s.fab.nvm (fun k => decide (lo ≤ k ∧ k < lo + 512)) } }

/-- The command under way ends: its effect stands, DONE pulses, STATUS and RDATA are given (R158). -/
def execNvmDone (g : Nat) (s : State) : Host.Outcome State Fault Refusal :=
  .next (match (nvmPort s g).busy with
    | none => s
    | some (cmd, a, st, d) =>
      let s1 := if st ≠ 0 ∧ cmd ≠ 1 then s
        else if cmd = 2 then nvmSet g a ⟨d, false⟩ s
        else if cmd = 3 then nvmEraseSector g (a / 512) s else s
      let p := nvmPort s g
      setNvmPort g { p with busy := none, status := st, done := p.done + 1,
                            rdata := if cmd = 1 ∨ cmd = 4 then d else p.rdata } s1)

/-! ### Serial ports (R161) -/

def serialAt (s : State) (g port : Nat) : SerialPort := sget {} s.fab.serial (g * 8 + port)
def setSerial (g port : Nat) (x : SerialPort) (s : State) : State :=
  { s with fab := { s.fab with serial := sset {} s.fab.serial (g * 8 + port) x } }

/-- A UART, SPI or I2C port (0, 1; 2, 3; 4, 5) moves an item: kind 0 from the design into its transmit FIFO, 1 from
there onto the line, 2 from the line into its receive FIFO, 3 from there to the design. The FIFOs hold 64 items; one
that finds its FIFO full is not taken. -/
def execFabricSerialTransfer (g port kind item : Nat) (s : State) : Host.Outcome State Fault Refusal :=
  .next (if 8 ≤ g ∨ 6 ≤ port ∨ !hardOn s g (3 + port) ∨ !rdB s (clkBlk (8 + g) + 0x10) (12 + port) then s
    else
      let x := serialAt s g port
      let v := item % 2 ^ (if port = 2 ∨ port = 3 then 32 else 8)
      match kind with
      | 0 => if x.tx.length < 64 then setSerial g port { x with tx := x.tx ++ [v] } s else s
      | 1 => (match x.tx with
              | [] => s
              | a :: r => setSerial g port { x with tx := r, line := x.line ++ [a] } s)
      | 2 => if x.rx.length < 64 then setSerial g port { x with rx := x.rx ++ [v] } s else s
      | 3 => setSerial g port { x with rx := x.rx.drop 1 } s
      | _ => s)

/-! ### Probes and trace memory (R167-R169) -/

def prbCtrl (g : Nat) : Nat := dbgBlk g + 0x100
def prbStatus (g : Nat) : Nat := dbgBlk g + 0x104

/-- A sample as recorded: a channel that is not enabled, or that names no cluster, samples 0. -/
def maskSample (s : State) (g v : Nat) : Nat :=
  (upto 64).foldl (fun n i =>
    let sel := rd s (dbgBlk g + 4 * i)
    if v.testBit i ∧ bit sel 31 ∧ fld sel 21 5 < 102400 then n + 2 ^ i else n) 0

/-- One sample written at WPTR, which advances modulo 131,072. -/
def putSample (g v : Nat) (s : State) : State :=
  let p := rdF s (prbStatus g) 16 0
  let s1 := { s with fab := { s.fab with trace := sset {} s.fab.trace (g * 131072 + p) ⟨maskSample s g v, 0⟩,
                                         samples := smod 0 s.fab.samples g (· + 1) } }
  let s2 := wrF s1 (prbStatus g) 16 0 (p + 1)
  if p = 131071 then wrB s2 (prbStatus g) 29 true else s2

/-- The sampling is armed. -/
def prbArmed (s : State) (g : Nat) : Bool := g < 8 && rdB s (prbCtrl g) 0

/-- DBG_PRB_CTRL written; ARM = 1 clears DONE, TRIGGERED, WRAPPED and WPTR (R168). -/
def writePrbCtrl (g : Nat) (v : Word) (s : State) : State :=
  let s1 := wr s (prbCtrl g) (v &&& word 0xFFFF807F)
  if bit v 0 then
    wr { s1 with fab := { s1.fab with samples := sset 0 s1.fab.samples g 0, postLeft := sset none s1.fab.postLeft g none } }
      (prbStatus g) (rd s1 (prbStatus g) &&& word 0x10000000)
  else s1

/-- The writer holds the authority of R557: the Warden, or the debug station in USER or FULL. -/
def dbgWriter (s : State) : Writer → Bool
  | .warden => true
  | .debug o => o ≠ 0 && rdF s dbgBase 9 8 = o && (dbgAuth s = 0xD2 || dbgAuth s = 0xD3)
  | _ => false

/-- A write of ARM = 1 to DBG_PRB_CTRL. -/
def execProbeArm (src : Writer) (g : Nat) (value : Word) (s : State) : Host.Outcome State Fault Refusal :=
  .next (if 8 ≤ g ∨ !dbgWriter s src ∨ !bit value 0 then s else writePrbCtrl g value s)

/-- The capture ends: DONE sets, ARM clears. -/
def prbEnd (g : Nat) (s : State) : State := wrB (wrB s (prbStatus g) 31 true) (prbCtrl g) 0 false

/-- The last samples are taken: 131,072 in MODE 1, POST after the trigger in MODE 0. -/
def execProbeCaptureEnd (g : Nat) (samples : List Nat) (s : State) : Host.Outcome State Fault Refusal :=
  .next (if !prbArmed s g then s
    else
      let due := if rdB s (prbCtrl g) 1 then some (131072 - sget 0 s.fab.samples g) else sget none s.fab.postLeft g
      if due = some samples.length then prbEnd g (samples.foldl (fun t v => putSample g v t) s) else s)

/-- A read of sample `i`: its data, zero while ARM = 1; a byte whose parity fails sets PERR (R169). -/
def traceRead (g i : Nat) (s : State) : Nat × State :=
  if prbArmed s g then (0, s)
  else
    let x := sget {} s.fab.trace (g * 131072 + i % 131072)
    let r := inject (8 + g) 0xD s
    let s1 := if r.1 then injSeen (8 + g) 0xD i r.2 else r.2
    (x.data, if r.1 ∨ x.badBytes ≠ 0 then countUncorr (8 + g) (wrB s1 (prbStatus g) 28 true) else s1)

def execTraceRead (g i : Nat) (s : State) : Host.Outcome State Fault Refusal :=
  .next (if 8 ≤ g ∨ 131072 ≤ i then s else (traceRead g i s).2)

end Sys2Proof.Machine
end

