-- ==== Sys2Proof/Machine/Image.lean ====
section
/-!
DEFINITION. Images, frames and planes as operations: boot header and image checks, the floorplan, erasing and
writing configuration, and the end of a load (04 R102-R119, R125; 05 R140-R142, R163-R166).
-/
namespace Sys2Proof.Machine

/-! ### Die states (03 R94) -/

/-- A die's state set, CLK_DIE_STATE raised: severity 3 on entry to LOST. -/
def setDieState (d st : Nat) (s : State) : State :=
  let old := dieState s d
  let s1 := if isLaneDie d then wrF s (clkBlk d) 23 16 st else wrF s (clkBlk d + 0x18) 7 0 st
  raise 0x0204 (if st = 0x35 then 3 else 1) 0 [word d, word old, word st] s1

/-- Boot step in progress (04 R98, R126). -/
def bootStep (s : State) : Nat := rdF s cfgBase 23 16
def setBootStep (n : Nat) (s : State) : State := wrF s cfgBase 23 16 n

/-! ### Signatures and keys (R109-R111) -/

/-- A signature check passes: it verifies, or it is skipped. -/
def sigPasses (s : State) (epoch : Nat) (signed sig : List Word) : Bool :=
  !keyKnown s || Config.ecdsaOk epoch (Config.sha384 (wordsToBytes signed)) sig

/-! ### Boot header (R102, R103) -/

def hdrCount (h : List Word) : Nat := nfld (wordAt h 1) 31 24
/-- Entry `i` of a header's image table: word at its offset +8. -/
def hdrTarget (h : List Word) (i : Nat) : Nat := wordAt h (8 + 4 * i + 2)
/-- The frequency is not stated, or in range. -/
def hzOk (f : Nat) : Bool := f = 0 || (10000000 ≤ f && f ≤ 100000000)
/-- A used entry is well formed. -/
def hdrEntryOk (h : List Word) (i : Nat) : Bool :=
  let t := hdrTarget h i
  t < 512 && wordAt h (8 + 4 * i + 3) = 0 && (!t.testBit 7 || t % 16 = 0)

/-- What is wrong with a boot header, if anything: a status and a detail (R103). -/
def hdrCheck (s : State) (h : List Word) : Option (Nat × Nat) :=
  if crc32 (wordsToBytes (h.take 160)) ≠ wordAt h 160 then some (stBadArg, 0x280)
  else if wordAt h 0 ≠ 0x56494C42 then some (stBadArg, 0)
  else if nfld (wordAt h 1) 15 0 ≠ 1 then some (stBadArg, 4)
  else if nfld (wordAt h 1) 23 16 ≠ setVal s 1 then some (stRefused, 0x0306)
  else if !sigPasses s (setVal s 1) (h.take 136) ((h.drop 136).take 24) then some (stRefused, 0x0301)
  else if !hzOk (wordAt h 2) then some (stBadArg, 8)
  else if rdB s (wdnBase + 0x10) 6 ∧ !hzOk (wordAt h 3) then some (stBadArg, 12)
  else match (upto (hdrCount h)).find? (fun i => !hdrEntryOk h i) with
    | some i => some (stBadArg, 0x20 + 16 * i)
    | none => if 32 < hdrCount h then some (stBadArg, 4) else none

/-- CFG_AUTH_FAIL counts a signature failure. -/
def authFail (d : Nat) (s : State) : State := if d = 0x0301 then cnt s (cfgBase + 4) else s

/-- A header adopted: frequencies stated, table adopted, monitors M1 and M2 armed. -/
def adoptHeader (h : List Word) (s : State) : State :=
  wrB { s with cfg := { s.cfg with header := some h },
               clk := { s.clk with xin0Hz := wordAt h 2, xin1Hz := wordAt h 3 } } cfgBase 0 true

/-! ### Floorplan (R112-R114) -/

/-- Entry `c` of a static descriptor. -/
def descPlan (desc : List Word) (c : Nat) : List Word := (desc.drop (4 + 154 * c)).take 154
def planDeclared (p : List Word) : Bool := (wordAt p 0).testBit 0
/-- The ranges of an entry: first word, and how many. -/
def planRanges (p : List Word) (w n : Nat) : List (Nat × Nat) :=
  (upto n).map (fun k => (nfld (wordAt p (w + k)) 15 0, nfld (wordAt p (w + k)) 31 16))
def planLogic (p : List Word) : List (Nat × Nat) := planRanges p 6 (nfld (wordAt p 0) 15 8)
def planBram (p : List Word) : List (Nat × Nat) := planRanges p 14 (nfld (wordAt p 0) 23 16)
def overlap (a b : List (Nat × Nat)) : Bool :=
  a.any (fun x => b.any (fun y => x.1 ≤ y.2 && y.1 ≤ x.2))
/-- Two masks of `n` words share a bit. -/
def masksMeet (p q : List Word) (w n : Nat) : Bool :=
  (upto n).any (fun i => wordAt p (w + i) &&& wordAt q (w + i) ≠ 0)

/-- An entry is valid by itself. -/
def planOk (p : List Word) : Bool :=
  let f := nfld (wordAt p 5) 12 0
  nfld (wordAt p 0) 15 8 ≤ 8 && nfld (wordAt p 0) 23 16 ≤ 4 && f ≤ 4096
    && (planLogic p).all (fun x => x.1 ≤ x.2 && x.2 < 12800) && (planBram p).all (fun x => x.1 ≤ x.2 && x.2 < 3840)
    && (upto 128).all (fun i => wordAt p (26 + i) >>> (f - min f (32 * i)) = 0 || 32 * i + 32 ≤ f)

/-- A static descriptor is valid for grove `g` (R113). -/
def descOk (g : Nat) (desc : List Word) : Bool :=
  desc.length = 2468 && wordAt desc 0 = g
    && (upto 16).all (fun c => !planDeclared (descPlan desc c) || planOk (descPlan desc c))
    && (upto 16).all (fun c => (upto c).all (fun d =>
      let p := descPlan desc c
      let q := descPlan desc d
      !planDeclared p || !planDeclared q
        || (!overlap (planLogic p) (planLogic q) && !overlap (planBram p) (planBram q) && !masksMeet p q 1 1
            && !masksMeet p q 2 3 && !masksMeet p q 18 8)))

/-- The floorplan of a grove adopted: entries kept, DECLARED shown. -/
def adoptPlan (g : Nat) (desc : List Word) (s : State) : State :=
  (upto 16).foldl (fun t c =>
    let p := descPlan desc c
    let d := planDeclared p
    wrB { t with cfg := { t.cfg with plans := sset [] t.cfg.plans (g * 17 + c) (if d then p else []) } }
      (regionReg g c) 8 d) s
/-- The floorplan of a grove dropped. -/
def dropPlan (g : Nat) (s : State) : State := adoptPlan g [] s

/-! ### Planes (R115, R118) -/

/-- The region's frames and express heads erased from one plane. -/
def erasePlane (g r : Nat) (shadow : Bool) (s : State) : State :=
  let mine (k : Nat) : Bool := k / 65536 / 8 = g && ownerOf s g (k / 65536 % 8) (k % 65536) = r
  let mineH (k : Nat) : Bool := k / 409600 = g && ownerOf s g 1 (k / 4 % 102400 / 8) = r
  if shadow then
    { s with fab := { s.fab with shadow := sdrop s.fab.shadow mine, shadowHeads := sdrop s.fab.shadowHeads mineH } }
  else { s with fab := { s.fab with live := sdrop s.fab.live mine, liveHeads := sdrop s.fab.liveHeads mineH } }

/-- The block RAMs of a region that is EMPTY or FAILED hold undefined words (R116). -/
def voidBrams (g r : Nat) (s : State) : State :=
  let l := (upto 1920).filter (fun b => bramOwner s g b = r)
  tick1 { s with fab := { s.fab with
    bram := sdrop s.fab.bram (fun k => decide (k / 2048 / 2048 = g) && l.contains (k / 2048 % 2048))
    bramVoid := l.foldl (fun m b => sset none m (g * 2048 + b) (some s.fresh)) s.fab.bramVoid } }

/-- A map with the entries of keys `p` exchanged with another's. -/
def swapKeys {α : Type} [DecidableEq α] (d : α) (a b : List (Nat × α)) (p : Nat → Bool) : List (Nat × α) :=
  (b.filter (fun e => p e.1)).foldl (fun m e => sset d m e.1 e.2) (sdrop a p)

/-- The planes of a region exchanged (R118). -/
def exchangePlanes (g r : Nat) (s : State) : State :=
  let mine (k : Nat) : Bool := k / 65536 / 8 = g && ownerOf s g (k / 65536 % 8) (k % 65536) = r
  let mineH (k : Nat) : Bool := k / 409600 = g && ownerOf s g 1 (k / 4 % 102400 / 8) = r
  { s with fab := { s.fab with
      live := swapKeys [] s.fab.live s.fab.shadow mine
      shadow := swapKeys [] s.fab.shadow s.fab.live mine
      liveHeads := swapKeys none s.fab.liveHeads s.fab.shadowHeads mineH
      shadowHeads := swapKeys none s.fab.shadowHeads s.fab.liveHeads mineH } }

/-- PREV_VALID of a clearing. -/
def setPrev (g r : Nat) (b : Bool) (s : State) : State := if r = 16 then s else wrB s (regionReg g r) 9 b

/-- Clearing ID, with STATIC in bit 7, as events and payloads give a region. -/
def regionId (g r : Nat) : Nat := if r = 16 then 128 + g * 16 else g * 16 + r

/-! ### Loads -/

def loadOf (s : State) (g r : Nat) : Option Load := s.cfg.loads.find? (fun l => l.grove = g && l.region = r)
def dropLoad (g r : Nat) (s : State) : State :=
  { s with cfg := { s.cfg with loads := s.cfg.loads.filter (fun l => !(l.grove = g && l.region = r)) } }
def putLoad (l : Load) (s : State) : State :=
  { s with cfg := { s.cfg with loads := s.cfg.loads.map (fun x =>
      if x.grove = l.grove && x.region = l.region then l else x) } }

/-- A load of the image table has ended, loaded or failed; the last one ends boot step 8 (R98). -/
def tableEnd (ok : Bool) (s : State) : State :=
  let s1 := { s with cfg := { s.cfg with tableDone := s.cfg.tableDone + 1,
                                         tableFailed := s.cfg.tableFailed + b2n (!ok) } }
  let s2 := if ok then wrF s1 cfgBase 15 8 (rdF s1 cfgBase 15 8 + 1) else s1
  if bootStep s2 = 8 ∧ hdrCount (s2.cfg.header.getD []) ≤ s2.cfg.tableDone then setBootStep 9 s2 else s2

/-- LOAD_FAILED: the plane is erased, CFG_LOAD_FAILED raised (R115). -/
def loadFailed (l : Load) (status detail seq : Nat) (s : State) : State :=
  let s1 := dropLoad l.grove l.region s
  let s2 := if l.shadow then setRegionState l.grove l.region 0x43 (erasePlane l.grove l.region true s1)
            else setRegionState l.grove l.region 0x46 (voidBrams l.grove l.region (erasePlane l.grove l.region false s1))
  let s3 := if l.region = 16 then dropPlan l.grove s2 else s2
  let s4 := raise 0x0302 2 0 [word (regionId l.grove l.region), word (status + detail * 2 ^ 16), word seq] s3
  if l.table then tableEnd false s4 else s4

/-- Boot steps 6 and 7 end once the lane dies run, and once the groves have come up or been lost (R98). -/
def bootAdvance (s : State) : State :=
  let s1 := if bootStep s = 6 ∧ [1, 2, 3, 4].all (fun d => dieState s d ≠ 0x33 && dieState s d ≠ 0x34) then setBootStep 7 s
    else s
  if bootStep s1 = 7 ∧ (upto 8).all (fun g => dieState s1 (8 + g) ≠ 0x33) then
    setBootStep (if hdrCount (s1.cfg.header.getD []) ≤ s1.cfg.tableDone then 9 else 8) s1
  else s1

/-- What is wrong with an image's header and descriptor, in the order of R105: a status and a detail. -/
def imageCheck (s : State) (g r : Nat) (shadow : Bool) (h desc : List Word) : Option (Nat × Nat) :=
  let w1 := wordAt h 1
  let target := nfld w1 23 17
  if wordAt h 0 ≠ 0x56494C49 then some (stRefused, 0x0317)
  else if nfld w1 7 0 ≠ (if r = 16 then 2 else 3) ∨ target ≠ (if r = 16 then g * 16 else g * 16 + r) then
    some (stRefused, 0x0312)
  else if nfld w1 15 8 ≠ setVal s 1 then some (stRefused, 0x0306)
  else if !sigPasses s (setVal s 1) (h.take 24) ((h.drop 24).take 24) then some (stRefused, 0x0301)
  else if w1.testBit 16 ∧ !keyKnown s then some (stRefused, 0x0314)
  else if r = 16 then
    if wordAt h 3 ≠ 9872 ∨ !descOk g desc then some (stRefused, 0x0308) else none
  else
    let st := regionState s g 16
    if !(st = 0x42 ∨ st = 0x43) ∨ !planDeclared (planOf s g r) then some (stRefused, 0x0307)
    else if nfld (wordAt desc 0) 6 0 ≠ g * 16 + r
        ∨ (desc.drop 4).take 8 ≠ (Config.sha384 (wordsToBytes (planOf s g r))).take 8 then some (stRefused, 0x0308)
    else if shadow ∧ (wordAt desc 0).testBit 8 then some (stRefused, 0x030C)
    else none

/-- The region goes to LOADING or STAGING, its plane erased; a static image's floorplan is adopted (R115, R119). -/
def beginPlane (l : Load) (desc : List Word) (s : State) : State :=
  if l.shadow then
    setPrev l.grove l.region false (setRegionState l.grove l.region 0x44 (erasePlane l.grove l.region true s))
  else
    let s1 := setRegionState l.grove l.region 0x41 (erasePlane l.grove l.region false s)
    if l.region = 16 then adoptPlan l.grove desc s1 else s1

/-- A load with what its checked header and descriptor say. -/
def armLoad (l : Load) (h desc : List Word) : Load :=
  { l with
    header := none
    enc := (wordAt h 1).testBit 16
    epoch := nfld (wordAt h 1) 15 8
    nonce := word64At h 6
    frames := wordAt h 2
    digest := (h.drop 12).take 12
    body := desc
    bramInit := l.region = 16 || (wordAt desc 0).testBit 8 }

/-- Loading begins. -/
def beginLoad (l : Load) (h desc : List Word) (s : State) : State :=
  let a := armLoad l h desc
  beginPlane a desc { s with cfg := { s.cfg with loads := s.cfg.loads ++ [a] } }

/-! ### Frames (R106-R108) -/

/-- The words of a frame: its header, the stored payload, the tag. -/
def frameLen (enc zero : Bool) : Nat := if zero then 5 else if enc then 1033 else 1029

/-- Claim slot `c` of cluster `j` in a LOGIC payload (05 R131, R140). -/
def claimAt (pl : List Word) (j c : Nat) : Nat :=
  nfld (wordAt pl (124 * j + 112 + c / 2)) (16 * (c % 2) + 15) (16 * (c % 2))

/-- The claims of a LOGIC frame, in the order in which they are made: head cluster (none outside the grove),
direction, driver (05 R140, R141). -/
def claimsOf (idx : Nat) (pl : List Word) : List (Option Nat × Nat × Nat) :=
  (upto 8).flatMap (fun j => (upto 4).filterMap (fun c =>
    let v := claimAt pl j c
    let k := 8 * idx + j
    let dr := nfld v 4 3
    let dc := nfld v 6 5
    if !v.testBit 0 then none
    else some (if k / 320 < dr ∨ k % 320 < dc then none else some ((k / 320 - dr) * 320 + (k % 320 - dc)),
               nfld v 2 1, (4 * dr + dc) * 16 + nfld v 10 7)))

/-- A claim names a head outside the grove or in another region (05 R142). -/
def claimOutside (s : State) (g r : Nat) (h : Option Nat) : Bool :=
  match h with
  | none => true
  | some k => ownerOf s g 1 (k / 8) ≠ r

/-- EXPRESS_CLAIM: the driver index set; a replacement is counted in CFG_DRIVER_REPLACED (05 R140, R141). -/
def claim (g : Nat) (shadow : Bool) (c : Option Nat × Nat × Nat) (s : State) : State :=
  match c.1 with
  | none => s
  | some k =>
    let key := (g * 102400 + k) * 4 + c.2.1
    let m := if shadow then s.fab.shadowHeads else s.fab.liveHeads
    let s1 := if (sget none m key).isSome then cnt s (cfgGrv g + 0x48) else s
    let m' := sset none m key (some c.2.2)
    { s1 with fab := if shadow then { s1.fab with shadowHeads := m' } else { s1.fab with liveHeads := m' } }

/-- Tile memory in canonical form: addresses strictly rising, no entry equal to what an unlisted address reads as. -/
def Memory.wf (m : Sparse Byte) : Bool := swf 0 m
/-- Bytes stored from an address of tile memory. -/
def memPut (a : Nat) (l : List Byte) (s : State) : State :=
  { s with mem := (l.foldl (fun (m : List (Nat × Byte) × Nat) b => (sset 0 m.1 m.2 b, m.2 + 1)) (s.mem, a)).1 }
/-- Bytes read from tile memory. -/
def memGet (s : State) (a n : Nat) : List Byte := (upto n).map (fun i => sget 0 s.mem (a + i))

/-- Base of tile `t`'s slot in the on-die window of grove `g` (01 R32). -/
def tileSlot (g t : Nat) : Nat := 0x020000000000 + g * 0x40000000 + t * 0x20000

/-- The standard is allowed at the sensed VIO_F (05 R164, R165). -/
def stdAllowed (vio std : Nat) : Bool :=
  match vio with
  | 1 => [1, 6, 8].contains std
  | 2 => [2, 4, 9].contains std
  | 3 => [3, 5, 9].contains std
  | _ => false

/-- Pin `p`'s configuration must be left unused (05 R165). -/
def pinBad (s : State) (g p cfg : Nat) : Bool :=
  let std := nfld cfg 3 0
  let diff := cfg.testBit 8
  ([1, 2, 3, 4, 5, 6, 8, 9].contains std) &&
    (!stdAllowed (rdF s (cfgGrv g + 0x100) 1 0) std || ((std = 8 || std = 9) && !diff)
      || (diff && p % 2 = 1) || (diff && p % 2 = 0 && ownerOf s g 4 p ≠ ownerOf s g 4 (p + 1)))

/-- A fabric user loop set (05 R166; 03 R97); zero kHz stops it. -/
def setFul (g u ref khz : Nat) (s : State) : State :=
  { s with clk := { s.clk with fuls := sset (0, 0) s.clk.fuls (g * 32 + u) (ref, khz) } }

/-- A verified frame written (R107, R108; 05 R163-R166); the frame of a pair's second pin has no effect (05 R165). -/
def writeFrame (l : Load) (type idx : Nat) (pl : List Word) (s : State) : State :=
  let g := l.grove
  let far := (8 + g) * 2 ^ 28 + type * 2 ^ 24 + idx
  let z := if pl.all (· = 0) then [] else pl
  let s0 := cnt (whereFree (8 + g) 1 far s) (cfgGrv g + 0x44)
  match type with
  | 2 =>
    (upto 512).foldl (fun t i =>
      bramPut g (idx / 2) (bramLoc t (bramNo g (idx / 2)) (idx % 2 * 512 + i)) (word64At pl (2 * i)) t) s0
  | 3 =>
    let part := idx % 20
    let base := tileSlot g (idx / 20) + (if part < 4 then 0x10000 + 4096 * part else 4096 * (part - 4))
    memPut base (wordsToBytes ((pl ++ List.replicate 1024 0).take 1024)) s0
  | _ =>
    let k := frameKey g type idx
    let s1 : State := if l.shadow then { s0 with fab := { s0.fab with shadow := sset [] s0.fab.shadow k z } }
      else { s0 with fab := { s0.fab with live := sset [] s0.fab.live k z } }
    if type = 1 then (claimsOf idx pl).foldl (fun t c => claim g l.shadow c t) s1
    else if 128 ≤ idx then
      if l.shadow then s1 else setFul g (idx - 128) (nfld (wordAt pl 0) 1 0) (wordAt pl 1) s1
    else if idx % 2 = 1 ∧ (wordAt (sget [] (if l.shadow then s1.fab.shadow else s1.fab.live) (k - 1)) 0).testBit 8 then s1
    else if pinBad s1 g idx (wordAt pl 0) then
      cnt { s1 with fab := { s1.fab with badPins := s1.fab.badPins.filter (· ≠ g * 128 + idx) ++ [g * 128 + idx] } }
        (cfgGrv g + 0x104)
    else { s1 with fab := { s1.fab with badPins := s1.fab.badPins.filter (· ≠ g * 128 + idx) } }

end Sys2Proof.Machine
end

