-- ==== Sys2Proof/Machine/LaneOps.lean ====
section
/-!
DEFINITION. Lanes, ports and port engines as operations: lane and port states, timestamps, the parse and classify
stages, policers and gate lists (14 R419-R454).
-/
namespace Sys2Proof.Machine

/-! ### Lanes and ports -/

def lanStatus (n : Nat) : Nat := lanBlk n + 0xC
def lanState (s : State) (n : Nat) : Nat := rdF s (lanStatus n) 23 16
def lanMode (s : State) (n : Nat) : Nat := rdF s (lanStatus n) 11 8
def penCfg (p k : Nat) : Nat := penBlk p + 4 * k
def penDef (p k : Nat) : Nat := penBlk p + 0x20 + 8 * k
/-- State code of a port (R432). -/
def portState (s : State) (p k : Nat) : Nat := 0xB8 + rdF s (penCfg p k) 15 14
def portSpeed (s : State) (p k : Nat) : Nat := rdF s (penCfg p k) 31 28
/-- Station of port engine PE`p` (06 R174). -/
def engineStation (p : Nat) : Nat := (1 + p / 16) * 256 + 0x10 + p % 16
/-- Lane die, as a die ID, of an engine. -/
def engineDie (p : Nat) : Nat := 1 + p / 16
/-- An engine's clock runs and its die is not in a state that stops it (R452). -/
def engineRuns (s : State) (p : Nat) : Bool :=
  p < 64 && (dieState s (engineDie p) = 0x30 || dieState s (engineDie p) = 0x31) && rdB s (clkBlk (engineDie p) + 0x10) (p % 16)
    && !s.dbg.stoppedDies.contains (engineDie p)
/-- The counters of a port: 0 RX_FRAMES, 1 RX_DROP_MAC, 2 FEC_CORR, 3 FEC_UNCORR, 4 TX_FRAMES, 5 TX_BAD,
6 TX_DOWN_DROP, 7 TX_UNDERRUN, 8 GATE_OVERRUN, 9 TS_ONESTEP_MISS. -/
def portCnt (p k i : Nat) : Nat := penBlk p + 0x100 + 0x40 * k + 4 * i
/-- The stage counters: 0 PARSE_FALLBACK, 1 CLS_MISS, 2 CLS_DROP, 3 POL_YELLOW, 4 POL_RED, 5 ADMIT_GUAR_DROP,
6 ADMIT_BE_DROP, 7 UNITS_SENT. -/
def stageCnt (p i : Nat) : Nat := penBlk p + 0x400 + 4 * i

/-- Lanes a port of a speed takes (R429). -/
def speedLanes (sp : Nat) : Nat := [0, 1, 1, 1, 2, 1, 2, 4, 8, 1].getD sp 0
/-- Lane mode of a speed; a raw port's is chosen by RAWMODE. -/
def speedMode (cfg : Nat) : Nat :=
  let sp := nfld cfg 31 28
  if sp = 9 then nfld cfg 25 24 else [0, 2, 3, 4, 4, 5, 5, 5, 5].getD sp 0
/-- MAC rate of a speed in Gb/s. -/
def speedRate (sp : Nat) : Nat := [0, 10, 25, 50, 100, 100, 200, 400, 800].getD sp 0
/-- FEC codes a speed allows. -/
def speedFec (sp fec : Nat) : Bool :=
  match sp with
  | 0 => true
  | 1 => fec ≤ 1
  | 2 => fec ≤ 2
  | 9 => fec = 0
  | _ => fec = 3
/-- The mode has an M at a die's F_LRL (R419). -/
def modeHasM (f mode : Nat) : Bool := mode ≤ 5 && (f = 0 || mode = 0 || mode = 2 || mode = 3)
/-- F_LRL of lane die `l`: 0 or 1. -/
def fLrl (s : State) (l : Nat) : Nat := sget 0 s.lan.lrl l
/-- Lanes of port `k` of an engine under a configuration value. -/
def cfgLanes (p k cfg : Nat) : List Nat := (upto (speedLanes (nfld cfg 31 28))).map (fun i => 8 * p + k + i)
/-- The port that uses a lane. -/
def portOfLane (s : State) (n : Nat) : Option (Nat × Nat) :=
  ((upto 8).find? (fun k => (cfgLanes (n / 8) k (rd s (penCfg (n / 8) k)).toNat).contains n)).map (fun k => (n / 8, k))

/-- A setting written, and kept by the Warden (R453). -/
def setKept (a : Nat) (v : Word) (s : State) : State :=
  let s1 := wr s a v
  { s1 with lan := { s1.lan with kept := sset none s1.lan.kept a (some v) } }

/-- A lane moved to a state and mode (R427): powered with LOL set; kept. -/
def setLane (n st mode : Nat) (s : State) : State :=
  let v := setFld (setFld (rd s (lanStatus n)) 23 16 st) 11 8 mode
  setKept (lanStatus n) (setBit (setBit v 2 false) 1 true) s

/-- LANE_LINK (R459). -/
def raiseLink (p k st : Nat) (s : State) : State :=
  raise 0x0C02 1 (engineStation p) [word (p + k * 2 ^ 8), word st] s

/-- A port's state set; each change between DOWN and UP raises LANE_LINK (R432). -/
def setPortState (p k st : Nat) (s : State) : State :=
  let old := portState s p k
  let s1 := wrF s (penCfg p k) 15 14 (st - 0xB8)
  if (old = 0xB9 ∧ st = 0xBA) ∨ (old = 0xBA ∧ st = 0xB9) then raiseLink p k st s1 else s1

/-- Every lane of an Ethernet port is free of LOS and LOL. -/
def lanesClear (s : State) (p k : Nat) : Bool :=
  (cfgLanes p k (rd s (penCfg p k)).toNat).all (fun n => !rdB s (lanStatus n) 0 && !rdB s (lanStatus n) 1)

/-- A lane that has lost its signal or its lock takes its port from UP to DOWN (R432). -/
def laneLost (n : Nat) (s : State) : State :=
  match portOfLane s n with
  | some (p, k) => if portState s p k = 0xBA then setPortState p k 0xB9 s else s
  | none => s

/-- An OPEN contract has a station as its source or destination. -/
def stationInContract (s : State) (st : Nat) : Bool := (openContracts s).any (fun e => e.2.src = st || e.2.dst = st)

/-- Why a port configuration is refused (R429, R437, R457): status and detail. -/
def portRefusal (s : State) (p k cfg : Nat) : Option (Nat × Nat) :=
  let sp := nfld cfg 31 28
  let ls := cfgLanes p k cfg
  if 9 < sp ∨ !speedFec sp (nfld cfg 27 26) ∨ (sp = 9 ∧ nfld cfg 25 24 = 0) ∨ nfld cfg 18 16 ≠ 0
      ∨ (1 ≤ sp ∧ sp ≤ 8 ∧ (nfld cfg 13 0 < 1518 ∨ 9216 < nfld cfg 13 0)) then some (stBadArg, 4)
  else if (sp ≠ 0 ∧ (k % speedLanes sp ≠ 0 ∨ 8 < k + speedLanes sp))
      ∨ ls.any (fun n => match portOfLane s n with
          | some (_, k') => k' ≠ k
          | none => false) then some (stRefused, 0x0C03)
  else if sp ≠ 0 ∧ !modeHasM (fLrl s (p / 16)) (speedMode cfg) then some (stRefused, 0x0C02)
  else if sp ≠ portSpeed s p k ∧ stationInContract s (engineStation p) then some (stRefused, 0x0C04)
  else none

/-- A port configuration applied as LANE_PORT_CONFIG applies it: lanes released and powered, the port restarts. -/
def applyPort (p k cfg : Nat) (s : State) : State :=
  let old := cfgLanes p k (rd s (penCfg p k)).toNat
  let new := cfgLanes p k cfg
  let s1 := (old.filter (fun n => !new.contains n)).foldl (fun t n => setLane n 0xB0 0 t) s
  let s2 := new.foldl (fun t n =>
    if lanState t n = 0xB1 ∧ lanMode t n = speedMode cfg then t else setLane n 0xB1 (speedMode cfg) t) s1
  let st := if nfld cfg 31 28 = 0 then 0 else if nfld cfg 31 28 = 9 then 3 else 1
  setKept (penCfg p k) (setFld (word cfg) 15 14 st) s2

/-- MAC rates in Gb/s of an engine's Ethernet ports (R437). -/
def engineRates (s : State) (p : Nat) : List Nat :=
  ((upto 8).map (fun k => speedRate (portSpeed s p k))).filter (· ≠ 0)

/-! ### Timestamps (R435, R436; 15 R464, R470) -/

/-- A timestamp in 1/256 ns, 48 bits, by the die's replica of a time base with the port's correction; none while it
does not run. -/
def stampAt (s : State) (p k tb : Nat) (rx : Bool) : Option Nat :=
  let c := replicaTb s (engineDie p) tb
  let corr := sget (0, 0) s.tu.tsComp (8 * p + k)
  if c.run then some (uint 48 ((c.cnt / 2 ^ 32 : Nat) + (if rx then corr.2 else corr.1))) else none

/-- NS, SUBNS and WRAPS of a timestamp. -/
def stNs (t : Option Nat) : Nat := nfld (t.getD 0) 39 8
def stSub (t : Option Nat) : Nat := nfld (t.getD 0) 7 0
def stWraps (t : Option Nat) : Nat := nfld (t.getD 0) 47 40

/-- A record written into an engine's timestamp ring; nothing while EN = 0. -/
def ringRecord (p k tb tag : Nat) (dir : Bool) (t : Option Nat) (seq units : Nat) (s : State) : State :=
  let hi := rd s (penBlk p + 0x74)
  if !bit hi 31 then s
  else
    let prod := (rd s (penBlk p + 0x78)).toNat
    let a := (rd s (penBlk p + 0x70)).toNat + fld hi 15 0 * 2 ^ 32 + 16 * (prod % 2 ^ fld hi 20 16)
    let w0 := nfld tag 15 0 + k * 2 ^ 16 + tb * 2 ^ 19 + b2n t.isSome * 2 ^ 22 + b2n dir * 2 ^ 23 + stWraps t * 2 ^ 24
    let d := wordsToBytes [word w0, word (stNs t), word (stSub t + nfld seq 15 0 * 2 ^ 16), word units]
    sendReq { op := 3, vc := 2, dst := 0, src := engineStation p, addr := a % 2 ^ 48, len := 16, data := d }
      (wr s (penBlk p + 0x78) (word (prod + 1)))

/-! ### Parse (R439, R440) -/

/-- The big-endian number in `n` bytes from offset `o`. -/
def beAt (f : List Byte) (o n : Nat) : Nat := ((f.drop o).take n).foldl (fun a b => a * 256 + b.toNat) 0

/-- What the parse stage finds: kind, outer VID, key words 1 to 3, SEQ_ID, whether it fell back, and for a PTP
message its offset with the UDP header's offset over IPv4 or IPv6. -/
structure Parsed where
  kind : Nat := 5
  vid : Nat := 0
  k1 : Nat := 0
  k2 : Nat := 0
  k3 : Nat := 0
  seqId : Nat := 0
  fallback : Bool := false
  ptp : Option Nat := none
  udp4 : Option Nat := none
  udp6 : Option Nat := none

/-- A VLAN TPID. -/
def isTpid (e : Nat) : Bool := e = 0x8100 || e = 0x88A8

/-- A frame of kind 5: destination MAC in bytes 4-9 of the key, EtherType in bytes 10-11. -/
def parsedOther (f : List Byte) (vid et : Nat) (fallback : Bool) : Parsed :=
  { vid := vid, fallback := fallback, k1 := ofBytes (f.take 4),
    k2 := ofBytes ((f.drop 4).take 2) + (et / 256 + et % 256 * 256) * 2 ^ 16 }

/-- A PTP message at offset `o`, complete in its header. -/
def parsedPtp (f : List Byte) (vid et o : Nat) (u4 u6 : Option Nat) : Parsed :=
  if f.length < o + 34 then parsedOther f vid et true
  else { kind := 2, vid := vid, k1 := beAt f o 1 % 16 + beAt f (o + 4) 1 * 2 ^ 8, ptp := some o, udp4 := u4, udp6 := u6 }

/-- The kinds in their order of test; `f` is the frame without FCS. -/
def parseFrame (f : List Byte) (ensembleType : Nat) : Parsed :=
  let t1 := isTpid (beAt f 12 2)
  let t2 := t1 && isTpid (beAt f 16 2)
  let o := if t2 then 22 else if t1 then 18 else 14
  let et := beAt f (o - 2) 2
  let vid := if t1 then beAt f 14 2 % 2 ^ 12 else 0
  let n := f.length
  if et = 0xAEFE then
    if n < o + 8 ∨ beAt f o 1 / 16 ≠ 1 ∨ n < o + 4 + beAt f (o + 2) 2 ∨ beAt f (o + 2) 2 < 4 then
      parsedOther f vid et true
    else { kind := 1, vid := vid, k1 := beAt f (o + 1) 1 + beAt f (o + 4) 2 * 2 ^ 8, seqId := beAt f (o + 6) 2 }
  else if et = 0x88F7 then parsedPtp f vid et o none none
  else if et = ensembleType then { kind := 6, vid := vid }
  else if et = 0x0800 then
    let u := o + 4 * (beAt f o 1 % 16)
    if n < o + 20 ∨ beAt f o 1 / 16 ≠ 4 ∨ u < o + 20 ∨ n < o + beAt f (o + 2) 2 then parsedOther f vid et true
    else if beAt f (o + 9) 1 ≠ 17 then parsedOther f vid et false
    else if beAt f (o + 6) 2 % 2 ^ 13 ≠ 0 ∨ o + beAt f (o + 2) 2 < u + 8 then parsedOther f vid et true
    else if beAt f (u + 2) 2 = 319 ∨ beAt f (u + 2) 2 = 320 then parsedPtp f vid et (u + 8) (some u) none
    else { kind := 3, vid := vid, k1 := beAt f (o + 16) 4, k2 := beAt f (u + 2) 2 }
  else if et = 0x86DD then
    let u := o + 40
    if n < u ∨ beAt f o 1 / 16 ≠ 6 ∨ n < u + beAt f (o + 4) 2 then parsedOther f vid et true
    else if beAt f (o + 6) 1 ≠ 17 then parsedOther f vid et false
    else if n < u + 8 ∨ beAt f (o + 4) 2 < 8 then parsedOther f vid et true
    else if beAt f (u + 2) 2 = 319 ∨ beAt f (u + 2) 2 = 320 then parsedPtp f vid et (u + 8) none (some u)
    else { kind := 4, vid := vid, k1 := beAt f (o + 36) 4, k2 := beAt f (o + 32) 4, k3 := beAt f (u + 2) 2 }
  else parsedOther f vid et false

/-- The 16-byte key of a frame (R440). -/
def frameKeyWords (x : Parsed) (p k : Nat) (keyPort : Bool) : List Word :=
  [word (x.kind + (if keyPort then p % 16 * 2 ^ 4 + k * 2 ^ 8 else 0) + x.vid * 2 ^ 12), word x.k1, word x.k2, word x.k3]

/-- Bucket of a key (R441). -/
def clsBucket (key : List Word) : Nat := crc32 (wordsToBytes (key.take 4)) % 16384
/-- Index of a key's entry in a die's table. -/
def clsFind (m : Sparse (List Word)) (l : Nat) (key : List Word) : Option Nat :=
  ((upto 4).map (fun w => l * 65536 + clsBucket key * 4 + w)).find? (fun i => (sget [] m i).take 4 = key.take 4)
/-- A free way of a key's bucket. -/
def clsFree (m : Sparse (List Word)) (l : Nat) (key : List Word) : Option Nat :=
  ((upto 4).map (fun w => l * 65536 + clsBucket key * 4 + w)).find? (fun i => sget [] m i = [])

/-! ### Policers (R442) -/

/-- A policer as set: its buckets full. -/
def newPolicer (cir cbs eir ebs tick : Nat) : Policer :=
  { cir := cir, cbs := cbs, eir := eir, ebs := ebs, tc := 4000 * cbs, tp := 4000 * ebs, last := tick }

/-- Colour of a frame of `n` bytes, 0 green, 1 yellow, 2 red, and the policer after it (RFC 2698, colour-blind, EIR
and EBS in the place of its peak rate and burst). -/
def police (q : Policer) (n tick : Nat) : Nat × Policer :=
  let tc := min (4000 * q.cbs) (q.tc + q.cir * (tick - q.last))
  let tp := min (4000 * q.ebs) (q.tp + q.eir * (tick - q.last))
  if tp < 4000 * n then (2, { q with tc := tc, tp := tp, last := tick })
  else if tc < 4000 * n then (1, { q with tc := tc, tp := tp - 4000 * n, last := tick })
  else (0, { q with tc := tc - 4000 * n, tp := tp - 4000 * n, last := tick })

/-! ### Gate lists (R446-R449) -/

/-- GATES and DURATION of an entry. -/
def gateMask (w : Word) : Nat := fld w 31 24
def gateDur (w : Word) : Nat := fld w 23 0

/-- Entry in force at a position in the cycle, from entry `i` on, and the position at which it ends. -/
def gateEntryAt (cycle : Nat) : List Word → Nat → Nat → Nat → Nat × Nat
  | [], i, _, _ => (i - 1, cycle)
  | [_], i, _, _ => (i, cycle)
  | w :: r, i, start, pos =>
    if pos < start + gateDur w then (i, min cycle (start + gateDur w))
    else gateEntryAt cycle r (i + 1) (start + gateDur w) pos

/-- The list's entry in force on an engine, none while GATE_TB is not running, no list is active or BASE lies ahead;
with it the position in the cycle in 2^-40 ns. -/
def gateNow (s : State) (p : Nat) : Option (GateList × Nat × Nat) :=
  match sget none s.lan.active p with
  | none => none
  | some g =>
    let c := replicaTb s (engineDie p) g.tb
    let pos := c.cnt % 2 ^ 80
    if !c.run ∨ pos < g.base * 2 ^ 40 ∨ g.cycle = 0 then none
    else
      let x := (pos - g.base * 2 ^ 40) % (g.cycle * 2 ^ 40)
      some (g, (gateEntryAt g.cycle g.entries 0 0 (x / 2 ^ 40)).1, x)

/-- Gates in force on an engine. -/
def gatesOf (s : State) (p : Nat) : Nat :=
  match gateNow s p with
  | some (g, e, _) => gateMask (g.entries.getD e 0)
  | none => rdF s (penBlk p + 0x64) 31 24

/-- Position in the cycle up to which a class stays open, over the entries from `i` on that open it. -/
def openUntil (cycle cls : Nat) : List Word → Nat → Nat
  | [], at_ => at_
  | [w], at_ => if (gateMask w).testBit cls then cycle else at_
  | w :: r, at_ =>
    if (gateMask w).testBit cls then openUntil cycle cls r (min cycle (at_ + gateDur w)) else at_

/-- Sum of the durations of a list's first entries. -/
def durSum (l : List Word) : Nat := l.foldl (fun n w => n + gateDur w) 0

/-- A frame of `bits` bits on the line may start now at `rate` Gb/s (R447). -/
def gateAllows (s : State) (p k cls bits : Nat) : Bool :=
  if !rdB s (penCfg p k) 20 then true
  else
    match gateNow s p with
    | none => (rdF s (penBlk p + 0x64) 31 24).testBit cls
    | some (g, e, x) =>
      let until_ := min g.cycle (openUntil g.cycle cls (g.entries.drop e) (min g.cycle (durSum (g.entries.take e))))
      (gateMask (g.entries.getD e 0)).testBit cls
        && decide (bits * 2 ^ 40 ≤ (until_ * 2 ^ 40 - x) * speedRate (portSpeed s p k))

/-- PEN_GATE_STATUS brought up to the entry in force. -/
def showGate (p : Nat) (s : State) : State :=
  let e := match gateNow s p with
    | some (_, e, _) => e
    | none => 0
  wrF (wrF s (penBlk p + 0x68) 31 24 (gatesOf s p)) (penBlk p + 0x68) 7 0 e

/-- A list written into the registers of the active (0) or the shadow (256) bank. -/
def writeGateRegs (p bank : Nat) (l : List Word) (s : State) : State :=
  (upto 256).foldl (fun t e => wr t (penBlk p + 0x1000 + 4 * (bank + e)) (l.getD e 0)) s

/-- The shadow list becomes active. -/
def switchGate (p : Nat) (g : GateList) (s : State) : State :=
  let s1 := writeGateRegs p 256 [] (writeGateRegs p 0 g.entries s)
  let s2 := wr s1 (penBlk p + 0x64) (word (g.dflt * 2 ^ 24 + g.tb * 2 ^ 8 + (g.entries.length - 1)))
  let s3 := { s2 with lan := { s2.lan with active := sset none s2.lan.active p (some g), shadow := sset none s2.lan.shadow p none } }
  showGate p (wrB s3 (penBlk p + 0x68) 16 false)

end Sys2Proof.Machine
end

