-- ==== Sys2Proof/Machine/Lan.lean ====
section
/-!
DEFINITION. Meanings of the LANE commands and of the events of lanes, ports, frames and gate lists (14 R418-R460).
-/
namespace Sys2Proof.Machine

/-! ### LANE commands (R457) -/

/-- The detail codes of the LANE group. -/
def dLanesOn : Nat := 0x0C01
def dRateRef : Nat := 0x0C02
def dPortUp : Nat := 0x0C05
def dBucketFull : Nat := 0x0C06
def dNotFound : Nat := 0x0C07
def dGateTime : Nat := 0x0C08
def dFirRange : Nat := 0x0C09
def dTbStopped : Nat := 0x0C0A

/-- Four numbers of eight bits in a word. -/
def packBytes (f : Nat → Nat) (i : Nat) : Word :=
  word (f (4 * i) % 256 + f (4 * i + 1) % 256 * 2 ^ 8 + f (4 * i + 2) % 256 * 2 ^ 16 + f (4 * i + 3) % 256 * 2 ^ 24)

def execLaneInfo (b : Nat) (s : State) : Host.Outcome State Fault Refusal :=
  Next (serve 0x0C01 allServed (fun r s =>
    let l := r.f 0 1 0
    if 4 ≤ r.w 0 then badArg 0
    else .ok ([word (fLrl s l + b2n (rdB s (clkBlk (1 + l)) 4) * 2)]
      ++ (upto 32).map (packBytes (fun i => lanState s (128 * l + i)))
      ++ (upto 32).map (packBytes (fun i => portState s (16 * l + i / 8) (i % 8)))) s) b s)

/-- Every lane of a lane die is OFF. -/
def lanesOff (s : State) (l : Nat) : Bool := (upto 128).all (fun i => lanState s (128 * l + i) = 0xB0)

def execLaneLrlSet (b : Nat) (s : State) : Host.Outcome State Fault Refusal :=
  Next (serve 0x0C02 [0x30, 0x34] (fun r s =>
    if !lanesOff s (r.f 0 1 0) then refused dLanesOn
    else .ok [] { s with lan := { s.lan with lrl := sset 0 s.lan.lrl (r.f 0 1 0) (r.f 4 0 0) } }) b s)

/-- Lanes changed one by one. -/
def eachLane (r : Req) (f : Nat → State → State) (s : State) : State :=
  ((reqLanes r).getD []).foldl (fun t n => f n t) s

def execLaneConfig (b : Nat) (s : State) : Host.Outcome State Fault Refusal :=
  Next (serve 0x0C03 [0xB0, 0xB1, 0xB2] (fun r s =>
    let tx := r.w 4
    let rx := r.w 8
    if reqLanes r = none ∨ r.f 0 15 9 ≠ 0 ∨ r.f 0 31 25 ≠ 0 then badArg 0
    else if nfld tx 9 9 ≠ 0 ∨ nfld tx 31 13 ≠ 0 then badArg 4
    else if nfld rx 7 5 ≠ 0 ∨ nfld rx 31 13 ≠ 0 then badArg 8
    else if 39 < nfld tx 3 0 + nfld tx 8 4 then refused dFirRange
    else
      let v := nfld tx 3 0 + nfld tx 8 4 * 2 ^ 5 + nfld tx 11 10 * 2 ^ 10 + nfld tx 12 12 * 2 ^ 12
      .ok [] (eachLane r (fun n t => setKept (lanBlk n + 8) (word rx) (setKept (lanBlk n + 4) (word v) t)) s)) b s)

/-- The CTLE code of the largest eye height; the lowest of equals. -/
def bestEye (heights : List Nat) : Nat :=
  (upto 32).foldl (fun best i => if heights.getD best 0 < heights.getD i 0 then i else best) 0

/-- LANE_TUNE: `eyes` holds for each lane the heights in mV that the eye monitor finds at the 32 codes (R423). -/
def execLaneTune (b : Nat) (eyes : List (List Nat)) (s : State) : Host.Outcome State Fault Refusal :=
  Next (serve 0x0C04 [0xB1, 0xB2] (fun r s =>
    match reqLanes r with
    | none => badArg 0
    | some ls =>
      if ls.any (fun n => match portOfLane s n with
          | some (p, k) => portState s p k = 0xBA
          | none => false) then refused dPortUp
      else
        let one (i : Nat) : List Nat := eyes.getD i []
        .ok ((upto ls.length).map (fun i => word (bestEye (one i) + nfld ((one i).getD (bestEye (one i)) 0) 15 0 * 2 ^ 16)))
          ((upto ls.length).foldl (fun t i =>
            setKept (lanBlk (ls.getD i 0) + 8) (setFld (rd t (lanBlk (ls.getD i 0) + 8)) 4 0 (bestEye (one i))) t) s)) b s)

/-- One lane under LANE_TEST (R425, R426). -/
def testLane (mode loop gen chk n : Nat) (s : State) : State :=
  if mode = 0 then setKept (lanBlk n) 0 (setLane n 0xB0 0 s)
  else setKept (lanBlk n) (word (loop * 2 ^ 2 + gen * 2 ^ 4 + chk * 2 ^ 8)) (setLane n 0xB2 mode s)

/-- A PRBS pattern code is listed and serves a lane mode. -/
def patternServes (mode pat : Nat) : Bool := pat ≤ 5 || (pat ≤ 7 && 4 ≤ mode)

def execLaneTest (b : Nat) (s : State) : Host.Outcome State Fault Refusal :=
  Next (serve 0x0C05 [0xB0, 0xB2] (fun r s =>
    let mode := r.f 4 3 0
    match reqLanes r with
    | none => badArg 0
    | some ls =>
      if 5 < mode then badArg 4
      else if 7 < r.f 8 3 0 ∨ 7 < r.f 8 7 4 then badArg 8
      else if !modeHasM (fLrl s (ls.headD 0 / 128)) mode then refused dRateRef
      else if mode ≠ 0 ∧ !(patternServes mode (r.f 8 3 0) && patternServes mode (r.f 8 7 4)) then refused dRateRef
      else .ok [] (eachLane r (testLane mode (r.f 4 9 8) (r.f 8 3 0) (r.f 8 7 4)) s)) b s)

/-- Bit errors that a locked checker counts (R426). An armed point 0x02 adds one (19 R560). -/
def prbsCount (n errors : Nat) (s : State) : State :=
  if !rdB s (lanStatus n) 2 then s
  else
    let d := 1 + n / 128
    let r := if lanState s n = 0xB2 ∧ injTarget s d 2 % 128 = n % 128 then inject d 2 s else (false, s)
    let s1 := cntBy r.2 (lanBlk n + 0x18) (errors + b2n r.1)
    if r.1 then injSeen d 2 0 s1 else s1

/-- LANE_PRBS_READ: `errors` bit errors have reached the checker since its count was last brought up. -/
def execLanePrbsRead (b errors : Nat) (s : State) : Host.Outcome State Fault Refusal :=
  Next (serve 0x0C06 [0xB2] (fun r s =>
    let n := r.f 0 8 0
    if 512 ≤ r.w 0 then badArg 0
    else if 2 ≤ r.w 4 then badArg 4
    else
      let s1 := prbsCount n errors s
      let lk := rdB s1 (lanStatus n) 2
      let ns := if lk then min (2 ^ 32 - 1) (2 * (s1.tu.tick - sget 0 s1.lan.prbsAt n)) else 0
      .ok [word (b2n lk), rd s1 (lanBlk n + 0x18), word ns]
        (if r.f 4 0 0 = 1 then wr s1 (lanBlk n + 0x18) 0 else s1)) b s)

def execLanePortConfig (b : Nat) (s : State) : Host.Outcome State Fault Refusal :=
  Next (serve 0x0C07 [0xB8, 0xB9, 0xBA, 0xBB] (fun r s =>
    let p := r.f 0 5 0
    let k := r.f 0 10 8
    if r.f 0 7 6 ≠ 0 ∨ r.f 0 31 11 ≠ 0 then badArg 0
    else match portRefusal s p k (r.w 4) with
      | some (st, d) => .no st d
      | none =>
        if r.f 8 28 24 ≠ 0 ∨ r.f 8 15 12 ≠ 0 then badArg 8
        else
          let s1 := setKept (penDef p k + 4) (word (r.w 12)) (setKept (penDef p k) (word (r.w 8)) (applyPort p k (r.w 4)
            (keepSetting (fun a => match a with
              | .port q _ _ => q = 8 * p + k
              | _ => false) s)))
          .ok [word (portState s1 p k)] s1) b s)

def execLaneEngineConfig (b : Nat) (s : State) : Host.Outcome State Fault Refusal :=
  Next (serve 0x0C08 [0x30, 0x31, 0x34] (fun r s =>
    let p := r.f 0 5 0
    if 64 ≤ r.w 0 then badArg 0
    else if r.f 4 31 30 ≠ 0 ∨ 1024 < r.f 4 29 20 then badArg 4
    else if r.f 8 3 0 ≠ 0 then badArg 8
    else if r.f 12 30 21 ≠ 0 ∨ 16 < r.f 12 20 16 then badArg 12
    else
      let s1 := if r.f 12 31 31 = 1 ∧ !rdB s (penBlk p + 0x74) 31 then wr s (penBlk p + 0x78) 0 else s
      .ok [] (setKept (penBlk p + 0x74) (word (r.w 12)) (setKept (penBlk p + 0x70) (word (r.w 8))
        (setKept (penBlk p + 0x60) (word (r.w 4)) s1)))) b s)

/-- An entry of LANE_CLS_WRITE is well formed: the byte offset of its first invalid word. -/
def clsBad (r : Req) : Option Nat :=
  if r.f 4 3 0 = 0 ∨ 6 < r.f 4 3 0 ∨ r.f 4 11 11 ≠ 0 ∨ r.f 4 31 24 ≠ 0 then some 4
  else if r.f 20 31 15 ≠ 0 then some 20
  else if r.f 24 15 12 ≠ 0 ∨ r.f 24 31 24 ≠ 0 then some 24
  else if r.w 32 ≠ 0 then some 32
  else none

def execLaneClsWrite (b : Nat) (s : State) : Host.Outcome State Fault Refusal :=
  Next (serve 0x0C09 [0x30, 0x31, 0x34] (fun r s =>
    let l := r.f 0 1 0
    let e := (upto 8).map (fun i => word (r.w (4 + 4 * i)))
    if 4 ≤ r.w 0 then badArg 0
    else match clsBad r with
      | some o => badArg o
      | none =>
        match (clsFind s.lan.cls l e).orElse (fun _ => clsFree s.lan.cls l e) with
        | none => .no stExhausted dBucketFull
        | some i => .ok [word (i % 65536)] { s with lan := { s.lan with
            cls := sset [] s.lan.cls i e, clsKept := sset [] s.lan.clsKept i e } }) b s)

/-- The key of a LANE_CLS_DELETE or LANE_CLS_READ. -/
def reqKey (r : Req) : List Word := (upto 4).map (fun i => word (r.w (4 + 4 * i)))

def execLaneClsDelete (b : Nat) (s : State) : Host.Outcome State Fault Refusal :=
  Next (serve 0x0C0A [0x30, 0x31, 0x34] (fun r s =>
    match clsFind s.lan.cls (r.f 0 1 0) (reqKey r) with
    | none => refused dNotFound
    | some i => .ok [] { s with lan := { s.lan with cls := sdel s.lan.cls i, clsKept := sdel s.lan.clsKept i } }) b s)

def execLaneClsRead (b : Nat) (s : State) : Host.Outcome State Fault Refusal :=
  Next (serve 0x0C0B [0x30, 0x31, 0x34] (fun r s =>
    match clsFind s.lan.cls (r.f 0 1 0) (reqKey r) with
    | none => refused dNotFound
    | some i => .ok (sget [] s.lan.cls i) s) b s)

def execLanePolicerSet (b : Nat) (s : State) : Host.Outcome State Fault Refusal :=
  Next (serve 0x0C0C [0x30, 0x31, 0x34] (fun r s =>
    let i := r.f 0 1 0 * 4096 + r.f 4 11 0
    if 4 ≤ r.w 0 then badArg 0
    else if 4095 ≤ r.w 4 then badArg 4
    else .ok [] { s with lan := { s.lan with
      pol := sset none s.lan.pol i (some (newPolicer (r.w 8) (r.w 12) (r.w 16) (r.w 20) s.tu.tick)),
      polKept := sset [] s.lan.polKept i [r.w 8, r.w 12, r.w 16, r.w 20] } }) b s)

/-- The gate list of a LANE_GATE_LOAD. -/
def reqGate (r : Req) : GateList :=
  { tb := r.f 4 2 0, dflt := r.f 4 15 8, base := r.w 8 + r.f 12 7 0 * 2 ^ 32, cycle := r.w 16,
    entries := (upto (r.f 20 8 0)).map (fun i => word (r.w (24 + 4 * i))) }

/-- A list put into an engine's shadow bank. -/
def loadShadow (p : Nat) (g : GateList) (s : State) : State :=
  let s1 := writeGateRegs p 256 g.entries s
  wrB { s1 with lan := { s1.lan with shadow := sset none s1.lan.shadow p (some g) } } (penBlk p + 0x68) 16 true

def execLaneGateLoad (b : Nat) (s : State) : Host.Outcome State Fault Refusal :=
  Next (serve 0x0C0D [0x30, 0x31] (fun r s =>
    let p := r.f 0 5 0
    let g := reqGate r
    let c := (tbAt s g.tb).core
    let ahead := (g.base + 2 ^ 40 - c.now40) % 2 ^ 40
    if 64 ≤ r.w 0 then badArg 0
    else if r.f 4 7 3 ≠ 0 ∨ r.f 4 31 16 ≠ 0 then badArg 4
    else if 256 ≤ r.w 12 then badArg 12
    else if r.w 16 < 1000 ∨ 4000000000 < r.w 16 then badArg 16
    else if r.w 20 = 0 ∨ 256 < r.w 20 then badArg 20
    else match g.entries.findIdx? (fun w => gateDur w = 0) with
      | some i => badArg (24 + 4 * i)
      | none =>
        if !c.run then .no stNotReady dTbStopped
        else if ahead < 10000 ∨ 1000000000 < ahead then .no stBadArg dGateTime
        else
          let s1 := loadShadow p g s
          .ok [] { s1 with lan := { s1.lan with gateKept := sset none s1.lan.gateKept p (some g) } }) b s)

def execLaneTrimTry (b : Nat) (s : State) : Host.Outcome State Fault Refusal :=
  Next (serve 0x0C0E [0x30, 0x34] (fun r s =>
    let l := r.f 0 1 0
    if !lanesOff s l then refused dLanesOn
    else .ok [] { s with lan := { s.lan with
      trim := sset 0 s.lan.trim l (r.f 4 15 0), trial := sset none s.lan.trial l (some (r.f 4 15 0)) } }) b s)

def execLaneStats (b : Nat) (s : State) : Host.Outcome State Fault Refusal :=
  Next (serve 0x0C0F allServed (fun r s =>
    let p := r.f 0 5 0
    if 64 ≤ r.w 0 then badArg 0
    else .ok ((upto 8).map (fun i => rd s (stageCnt p i))
      ++ (upto 80).map (fun i => rd s (portCnt p (i / 10) (i % 10)))) s) b s)

/-! ### Signals (R421-R428, R432) -/

/-- A lane is powered. -/
def lanePowered (s : State) (n : Nat) : Bool := n < 512 && (lanState s n = 0xB1 || lanState s n = 0xB2)

/-- LANE_SIGNAL, at most once per millisecond and lane; later changes are counted (R422). -/
def laneSignal (n : Nat) (s : State) : State :=
  let k := sget 0 s.lan.sigSince n + 1
  let soon := match sget none s.lan.sigLast n with
    | some t => decide (s.tu.tick < t + tickMs)
    | none => false
  if soon then { s with lan := { s.lan with sigSince := sset 0 s.lan.sigSince n k } }
  else
    raise 0x0C01 1 (engineStation (n / 8)) [word n, word (fld (rd s (lanStatus n)) 1 0), word k]
      { s with lan := { s.lan with sigSince := sset 0 s.lan.sigSince n 0, sigLast := sset none s.lan.sigLast n (some s.tu.tick) } }

/-- LOL set and counted; its recovered clock is then not ready (R421). -/
def setLol (n : Nat) (s : State) : State :=
  if rdB s (lanStatus n) 1 then s else cnt (wrB s (lanStatus n) 1 true) (lanBlk n + 0x14)

/-- Loss of signal sets LOS and LOL (R422). -/
def losAssert (n : Nat) (s : State) : State :=
  if !lanePowered s n ∨ rdB s (lanStatus n) 0 then s
  else laneSignal n (laneLost n (setLol n (cnt (wrB s (lanStatus n) 0 true) (lanBlk n + 0x10))))

def execLosAssert (lane : Nat) (s : State) : Host.Outcome State Fault Refusal := Next (losAssert lane s)

def execLosClear (lane : Nat) (s : State) : Host.Outcome State Fault Refusal :=
  Next (if !lanePowered s lane ∨ !rdB s (lanStatus lane) 0 then s
    else laneSignal lane (wrB s (lanStatus lane) 0 false))

/-- Loss of lock (R421). -/
def lolAssert (n : Nat) (s : State) : State :=
  if !lanePowered s n ∨ rdB s (lanStatus n) 1 then s else laneSignal n (laneLost n (setLol n s))

def execLolAssert (lane : Nat) (s : State) : Host.Outcome State Fault Refusal := Next (lolAssert lane s)

/-- LOL clears only after LOS has cleared, and while the LRL is locked (R421, R422, R428). -/
def execLolClear (lane : Nat) (s : State) : Host.Outcome State Fault Refusal :=
  Next (if !lanePowered s lane ∨ !rdB s (lanStatus lane) 1 ∨ rdB s (lanStatus lane) 0
      ∨ !rdB s (clkBlk (1 + lane / 128)) 4 then s
    else laneSignal lane (wrB s (lanStatus lane) 1 false))

/-- The PCS of an Ethernet port gains block lock and alignment on lanes free of LOS and LOL, or loses them (R432). -/
def execPortLinkChange (pe port : Nat) (up : Bool) (s : State) : Host.Outcome State Fault Refusal :=
  Next (if !engineRuns s pe ∨ 8 ≤ port then s
    else if up then (if portState s pe port = 0xB9 ∧ portSpeed s pe port ≠ 9 ∧ lanesClear s pe port then
      setPortState pe port 0xBA s else s)
    else if portState s pe port = 0xBA then setPortState pe port 0xB9 s else s)

def execPrbsLockAcquired (lane : Nat) (s : State) : Host.Outcome State Fault Refusal :=
  Next (if 512 ≤ lane ∨ lanState s lane ≠ 0xB2 ∨ rdF s (lanBlk lane) 11 8 = 0 then s
    else
      let s1 := wrB s (lanStatus lane) 2 true
      { s1 with lan := { s1.lan with prbsAt := sset 0 s1.lan.prbsAt lane s1.tu.tick } })

/-- The checker loses lock, having counted `errors` bit errors more (R426). -/
def execPrbsLockLost (lane errors : Nat) (s : State) : Host.Outcome State Fault Refusal :=
  Next (if 512 ≤ lane then s else wrB (prbsCount lane errors s) (lanStatus lane) 2 false)

/-- LRL_LOCK lost: every lane of the die idles with LOL set, and every port is DOWN (R428, R90). -/
def lrlLost (l : Nat) (s : State) : State :=
  let s1 := monFault (1 + l) 6 2 0 (wrB s (clkBlk (1 + l)) 4 false)
  let s2 := (upto 128).foldl (fun t i => if lanePowered t (128 * l + i) then setLol (128 * l + i) t else t) s1
  let s3 := (upto 128).foldl (fun t i =>
    if portState t (16 * l + i / 8) (i % 8) = 0xB8 then t else setPortState (16 * l + i / 8) (i % 8) 0xB9 t) s2
  raise 0x0C03 3 (256 * (1 + l)) [word l] s3

def execLrlLockLost (l : Nat) (s : State) : Host.Outcome State Fault Refusal :=
  Next (if s.pkg.held ∨ 4 ≤ l ∨ !dieAlive s (1 + l) then s else lrlLost l s)

/-- The LRL relocks: the lanes resume with their settings, a raw port at once (R428). -/
def execLrlRelock (l : Nat) (s : State) : Host.Outcome State Fault Refusal :=
  Next (if s.pkg.held ∨ 4 ≤ l ∨ !dieAlive s (1 + l) then s
    else (upto 128).foldl (fun t i =>
      if portSpeed t (16 * l + i / 8) (i % 8) = 9 then wrF t (penCfg (16 * l + i / 8) (i % 8)) 15 14 3 else t)
      (wrB s (clkBlk (1 + l)) 4 true))

/-! ### Receiving (R430, R431, R435-R445, R451) -/

/-- An uncorrectable codeword counted; LANE_FEC_UNCORR at most once per millisecond and engine (R431). -/
def fecUncorr (p k : Nat) (s : State) : State :=
  let s1 := cnt s (portCnt p k 3)
  let n := sget 0 s1.lan.fecSince p + 1
  let soon := match sget none s1.lan.fecLast p with
    | some t => decide (s1.tu.tick < t + tickMs)
    | none => false
  if soon then { s1 with lan := { s1.lan with fecSince := sset 0 s1.lan.fecSince p n } }
  else
    raise 0x0C04 2 (engineStation p) [word p, word n]
      { s1 with lan := { s1.lan with fecSince := sset 0 s1.lan.fecSince p 0, fecLast := sset none s1.lan.fecLast p (some s1.tu.tick) } }

/-- Symbols that a FEC code corrects in a codeword: 7 for RS(528,514), 15 for RS(544,514). -/
def fecLimit (fec : Nat) : Nat := if fec = 2 then 7 else 15

/-- A received codeword with `errs` symbols in error. BASE-R corrects or not as `correctable` says. An armed point
0x00 corrupts symbols of the codeword (19 R560). -/
def execFecCodeword (pe port errs : Nat) (correctable : Bool) (s : State) : Host.Outcome State Fault Refusal :=
  Next (let fec := rdF s (penCfg pe port) 27 26
    if !engineRuns s pe ∨ 8 ≤ port ∨ portState s pe port ≠ 0xBA ∨ fec = 0 then s
    else
      let d := engineDie pe
      let r := if injTarget s d 0 % 128 = pe % 16 + port * 16 then inject d 0 s else (false, s)
      let n := errs + (if r.1 then injPattern s d 0 % 32 else 0)
      let good := if fec = 1 then correctable && !r.1 else decide (n ≤ fecLimit fec)
      let s1 := if n = 0 then r.2 else if good then cntBy r.2 (portCnt pe port 2) n else fecUncorr pe port r.2
      if r.1 ∧ n ≠ 0 then injSeen d 0 0 s1 else s1)

/-- Received frames of an engine that still hold space in its ingress buffer. -/
def rxHeld (s : State) (p : Nat) : List RxFrame :=
  s.lan.rxq.filter (fun f => f.pe = p &&
    s.bough.waiting.any (fun w => w.src = engineStation p && w.tag = f.unit % 2 ^ 16))

/-- Bytes held in a share of the ingress buffer. -/
def rxBytes (s : State) (p : Nat) (guar : Bool) : Nat :=
  ((rxHeld s p).filter (fun f => f.guar = guar)).foldl (fun n f => n + f.len) 0

/-- The admission stage (R443): none when the frame fits, else the stage counter of its drop. -/
def admitFrame (s : State) (p n : Nat) (guar mark : Bool) : Option Nat :=
  let v := rd s (penBlk p + 0x60)
  let share := fld v 29 20 * 1024
  let be := rxBytes s p false
  if guar then (if rxBytes s p true + n ≤ share then none else some 5)
  else if fld v 19 10 * 1024 < be ∨ (mark ∧ fld v 9 0 * 1024 < be) ∨ 1048576 - share < be + n then some 6
  else none

/-- Packets of a unit, 256 bytes each. -/
def unitPackets (d : List Byte) : List (Nat × Bool × List Byte) :=
  (upto ((d.length + 255) / 256)).map (fun i =>
    (256 * i, decide (d.length ≤ 256 * (i + 1)), (d.drop (256 * i)).take 256))

/-- One unit sent from an engine to a station (R444): cut at 65,536 bytes, its packets carrying unit words. -/
def sendEngineUnit (p dst : Nat) (guar : Bool) (n : Nat) (d : List Byte) (s : State) : State :=
  let k := sget 0 s.lan.units p
  let s1 := { s with lan := { s.lan with units := sset 0 s.lan.units p ((k + 1) % 2 ^ 32),
                                         rxq := s.lan.rxq.filter (fun f => f.pe ≠ p) ++ rxHeld s p ++ [{ pe := p, unit := k, guar := guar, len := n }] } }
  (unitPackets (d.take 65536)).foldl (fun t x =>
    sendUnit { op := 3, vc := 2, dst := dst, src := engineStation p, tag := k % 2 ^ 16,
               addr := x.1 + (if x.2.1 then 2 ^ 16 else 0), len := x.2.2.length, data := x.2.2 } t) (cnt s1 (stageCnt p 7))

/-- The receive header of R444. -/
def rxHeader (t : Option Nat) (tb k len seqId user : Nat) (mark miss : Bool) : List Byte :=
  wordsToBytes [word (stNs t), word (stSub t + stWraps t * 2 ^ 8 + tb * 2 ^ 16 + b2n t.isSome * 2 ^ 19 + k * 2 ^ 20
    + b2n mark * 2 ^ 23 + b2n miss * 2 ^ 24), word (len + nfld seqId 15 0 * 2 ^ 16), word user]

/-- What classification gives a frame: STATION, HDR, RXLOG, policer, STRIP, USER, and whether it missed. -/
structure Steer where
  station : Nat
  hdr : Bool
  rxlog : Bool
  policer : Nat
  strip : Nat
  user : Nat
  miss : Bool

/-- The classify stage: none when the frame is dropped (R441). -/
def classify (p k : Nat) (key : List Word) (s : State) : Option Steer × State :=
  let l := p / 16
  match clsFind s.lan.cls l key with
  | some i =>
    let e := sget [] s.lan.cls i
    let e' := e.set 7 (satInc (e.getD 7 0))
    let s1 := { s with lan := { s.lan with cls := sset [] s.lan.cls i e' } }
    let a := wordAt e 4
    if a.testBit 12 then (none, cnt s1 (stageCnt p 2))
    else (some { station := nfld a 11 0, hdr := a.testBit 13, rxlog := a.testBit 14, policer := nfld (wordAt e 5) 11 0,
                 strip := nfld (wordAt e 5) 23 16, user := wordAt e 6, miss := false }, s1)
  | none =>
    let s1 := cnt s (stageCnt p 1)
    let a := (rd s (penDef p k)).toNat
    if a.testBit 31 then (none, cnt s1 (stageCnt p 2))
    else (some { station := nfld a 11 0, hdr := a.testBit 30, rxlog := a.testBit 29, policer := 0xFFF,
                 strip := nfld a 23 16, user := 0, miss := true }, s1)

/-- The police stage: marked, or none when red (R442). -/
def policeStage (p pol n : Nat) (s : State) : Option Bool × State :=
  if pol = 0xFFF then (some false, s)
  else
    let i := p / 16 * 4096 + pol
    let r := police ((sget none s.lan.pol i).getD {}) n s.tu.tick
    let s1 := { s with lan := { s.lan with pol := sset none s.lan.pol i (some r.2) } }
    if r.1 = 2 then (none, cnt s1 (stageCnt p 4))
    else if r.1 = 1 then (some true, cnt s1 (stageCnt p 3))
    else (some false, s1)

/-- Admit and steer (R443, R444, R436). -/
def admitSteer (p k : Nat) (f : List Byte) (x : Parsed) (a : Steer) (mark : Bool) (s : State) : State :=
  let e := (routeOf s (engineStation p) a.station).toNat
  let guar := e.testBit 31 && e.testBit 30
  match admitFrame s p (f.length + 4) guar mark with
  | some c => cnt s (stageCnt p c)
  | none =>
    let tb := rdF s (penCfg p k) 23 21
    let t := stampAt s p k tb true
    let s1 := if a.rxlog then ringRecord p k tb (nfld a.user 15 0) true t (if x.kind = 1 then x.seqId else 0)
                (sget 0 s.lan.units p) s else s
    let h := if a.hdr then rxHeader t tb k f.length (if x.kind = 1 then x.seqId else 0) a.user mark a.miss else []
    sendEngineUnit p a.station guar (f.length + 4) (h ++ f.drop a.strip) s1

/-- The five stages on a frame without its FCS (R438). -/
def stages (p k : Nat) (f : List Byte) (s : State) : State :=
  let x := parseFrame f s.tu.ens.ether
  let s1 := if x.fallback then cnt s (stageCnt p 0) else s
  let r := classify p k (frameKeyWords x p k (rdB s (penCfg p k) 19)) s1
  match r.1 with
  | none => r.2
  | some a =>
    let q := policeStage p a.policer (f.length + 4) r.2
    match q.1 with
    | none => q.2
    | some mark => admitSteer p k f x a mark q.2

/-- A wholly received frame, with its FCS (R430, R431, R438). `touched`: an uncorrectable codeword touched it. An
armed point 0x01 corrupts it; a gated classifier drops it (R452). -/
def execFrameReceive (pe port : Nat) (frame : List Byte) (touched : Bool) (s : State) :
    Host.Outcome State Fault Refusal :=
  Next (if !engineRuns s pe ∨ 8 ≤ port ∨ portState s pe port ≠ 0xBA then s
    else
      let d := engineDie pe
      let r := if injTarget s d 1 % 128 = pe % 16 + port * 16 then inject d 1 s else (false, s)
      let n := frame.length
      let body := frame.take (n - 4)
      let fcs := ofBytes (frame.drop (n - 4))
      if touched ∨ r.1 ∨ n < 64 ∨ rdF s (penCfg pe port) 13 0 < n ∨ fcs ≠ crc32 body then
        let s1 := cnt r.2 (portCnt pe port 1)
        if r.1 then injSeen d 1 0 s1 else s1
      else
        let s1 := cnt r.2 (portCnt pe port 0)
        if !rdB s1 (clkBlk d + 0x10) 16 then cnt s1 (stageCnt pe 2) else stages pe port body s1)

/-- A raw port gathers a block of 256 bytes (R451). -/
def execRawBlockReceive (pe port : Nat) (block : List Byte) (s : State) : Host.Outcome State Fault Refusal :=
  Next (if !engineRuns s pe ∨ 8 ≤ port ∨ portState s pe port ≠ 0xBB ∨ rdB s (lanStatus (8 * pe + port)) 1 then s
    else
      let n := sget 0 s.lan.blocks (8 * pe + port)
      let def0 := rd s (penDef pe port)
      let tb := rdF s (penCfg pe port) 23 21
      let units := sget 0 s.lan.units pe
      let s1 := if n % 256 = 0 ∧ bit def0 29 then
          ringRecord pe port tb (n / 256) true (stampAt s pe port tb true) 0 units s else s
      let last := n % 256 = 255
      let s2 := { s1 with lan := { s1.lan with
        blocks := sset 0 s1.lan.blocks (8 * pe + port) (n + 1),
        units := sset 0 s1.lan.units pe (if last then (units + 1) % 2 ^ 32 else units) } }
      sendUnit { op := 3, vc := 2, dst := fld def0 11 0, src := engineStation pe,
                 addr := 256 * (n % 256) + (if last then 2 ^ 16 else 0), len := 256,
                 data := (block ++ List.replicate 256 0).take 256 } (if last then cnt s2 (stageCnt pe 7) else s2))

/-! ### Transmitting (R433-R436, R446, R451) -/

/-- Bytes placed at unit offsets. -/
def placeUnit (ps : List Packet) : List Byte :=
  ps.foldl (fun d p =>
    let o := p.addr % 2 ^ 16
    (d ++ List.replicate (o - d.length) 0).take o ++ p.data ++ d.drop (o + p.len)) []

/-- Packets up to the first that marks LAST; none when it has not come. -/
def untilLast : List Packet → Option (List Packet)
  | [] => none
  | p :: r => if p.addr.testBit 16 then some [p] else (untilLast r).map (fun l => p :: l)

/-- Bytes of an engine's transmit buffer, or of a raw port's. -/
def txBytes (s : State) (p : Nat) : Nat :=
  (s.lan.txq.filter (fun f => f.pe = p && portSpeed s p f.port ≠ 9)).foldl (fun n f => n + f.data.length) 0
def rawBytes (s : State) (p k : Nat) : Nat :=
  (s.lan.txq.filter (fun f => f.pe = p && f.port = k)).foldl (fun n f => n + f.data.length) 0

/-- A transmit unit whose LAST packet has come from `src` is queued, or discarded whole and counted (R433). Without
room the engine withholds credits (R434). -/
def execTxUnitQueued (pe src : Nat) (s : State) : Host.Outcome State Fault Refusal :=
  Next (let mine (p : Packet) : Bool := p.dst = engineStation pe && p.src = src && (p.op = 2 || p.op = 3)
    if !engineRuns s pe then s
    else match untilLast (s.bough.inbox.filter mine) with
      | none => s
      | some ps =>
        let d := placeUnit ps
        let w0 := ofBytes (d.take 4)
        let k := nfld w0 2 0
        let raw := portSpeed s pe k = 9
        let n := d.length - 16
        let bad := d.length < 16 || nfld w0 15 8 ≠ 0 || ofBytes ((d.drop 4).take 12) ≠ 0
          || !(portState s pe k = 0xBA || portState s pe k = 0xBB)
          || decide (rdF s (penCfg pe k) 13 0 + 12 < d.length) || (raw && n % 256 ≠ 0)
        let full := if raw then decide (16384 < rawBytes s pe k + n) else decide (524288 < txBytes s pe + n)
        if !bad ∧ full then s
        else
          let s1 := { s with bough := { s.bough with inbox := s.bough.inbox.filter (fun p => !ps.contains p) } }
          let s2 := ps.foldl (fun t p => respond p stOk [] t) s1
          if bad then cnt s2 (portCnt pe k 5)
          else
            let f : TxFrame := { pe := pe, port := k, cls := nfld w0 5 3, tsReq := w0.testBit 6, oneStep := w0.testBit 7,
                                 tag := nfld w0 31 16, data := d.drop 16 }
            { s2 with lan := { s2.lan with txq := s2.lan.txq ++ [f] } })

/-- A number in `n` bytes, big-endian. -/
def beBytes (n v : Nat) : List Byte := (toBytes n v).reverse
/-- Bytes replaced from an offset. -/
def patch (f : List Byte) (o : Nat) (d : List Byte) : List Byte := f.take o ++ d ++ f.drop (o + d.length)
/-- Sum of 16-bit words in ones' complement. -/
def onesSum : List Byte → Nat
  | [] => 0
  | [a] => a.toNat * 256
  | a :: b :: r => a.toNat * 256 + b.toNat + onesSum r
def foldOnes (n : Nat) : Nat :=
  let m := n % 65536 + n / 65536
  m % 65536 + m / 65536
/-- The UDP checksum over IPv6 of the datagram at `u`. -/
def udp6Sum (f : List Byte) (u : Nat) : Nat :=
  let len := beAt f (u + 4) 2
  let c := 65535 - foldOnes (onesSum ((f.drop (u - 32)).take 32) + onesSum ((f.drop u).take len) + len + 17)
  if c = 0 then 65535 else c

/-- A PTP event message with its timestamp written in (15 R471); none when the frame is none. -/
def stampOneStep (f : List Byte) (x : Parsed) (ptp sub : Nat) : Option (List Byte) :=
  match x.ptp with
  | none => none
  | some o =>
    let mt := beAt f o 1 % 16
    if 4 ≤ mt then none
    else
      let f1 := patch f (o + 8) (beBytes 8 (beAt f (o + 8) 8 + sub * 256))
      let f2 := if mt = 3 then f1
        else patch f1 (o + 34) (beBytes 6 (ptp / 1000000000) ++ beBytes 4 (ptp % 1000000000))
      let f3 := match x.udp4 with
        | some u => patch f2 (u + 6) [0, 0]
        | none => f2
      some (match x.udp6 with
        | some u =>
          let z := patch f3 (u + 6) [0, 0]
          patch z (u + 6) (beBytes 2 (udp6Sum z u))
        | none => f3)

/-- Bits a frame of `n` bytes without FCS takes on the line: padding to 64 bytes, preamble and gap (R430, R447). -/
def lineBits (n : Nat) : Nat := (max 64 (n + 4) + 20) * 8

/-- The frame that starts next on an Ethernet port: the highest class whose head's gate stays open long enough. -/
def nextFrame (s : State) (p k : Nat) : Option TxFrame :=
  (upto 8).findSome? (fun i =>
    match s.lan.txq.find? (fun f => f.pe = p && f.port = k && f.cls = 7 - i) with
    | some f => if gateAllows s p k f.cls (lineBits f.data.length) then some f else none
    | none => none)

/-- A frame leaves: one-step stamp, record, count (R430, R435, R436). -/
def sendFrame (p k : Nat) (f : TxFrame) (s : State) : State :=
  let tb := rdF s (penCfg p k) 23 21
  let t := stampAt s p k tb false
  let c := replicaTb s (engineDie p) tb
  let st := if f.oneStep then
      (match t with
       | some v => stampOneStep f.data (parseFrame f.data s.tu.ens.ether) (c.origin + v / 256) (v % 256)
       | none => none)
    else some f.data
  let s1 := if st.isNone then cnt s (portCnt p k 9) else s
  let d := st.getD f.data
  let pad := d ++ List.replicate (60 - d.length) 0
  let ticks := (lineBits f.data.length + 2 * speedRate (portSpeed s p k) - 1) / (2 * speedRate (portSpeed s p k))
  let s2 := { s1 with lan := { s1.lan with
    txq := s1.lan.txq.erase f,
    wire := sset [] s1.lan.wire (8 * p + k) (pad ++ toBytes 4 (crc32 pad)),
    leaving := sset none s1.lan.leaving (8 * p + k) (some (f.cls, s1.tu.tick + ticks)) } }
  let s3 := if f.tsReq then ringRecord p k tb f.tag false t 0 0 s2 else s2
  cnt s3 (portCnt p k 4)

/-- The next queued frame of a port starts, or a raw port sends its next block. -/
def execFrameTransmit (pe port : Nat) (s : State) : Host.Outcome State Fault Refusal :=
  Next (if !engineRuns s pe ∨ 8 ≤ port then s
    else if portState s pe port = 0xBA then
      (match nextFrame s pe port with
       | some f => sendFrame pe port f s
       | none => s)
    else if portState s pe port = 0xBB then
      (match s.lan.txq.find? (fun f => f.pe = pe && f.port = port) with
       | some f =>
         let rest := f.data.drop 256
         let q := if rest = [] then s.lan.txq.erase f else s.lan.txq.map (fun g => if g = f then { g with data := rest } else g)
         { s with lan := { s.lan with txq := q, wire := sset [] s.lan.wire (8 * pe + port) (f.data.take 256) } }
       | none => s)
    else s)

/-- A frame at the head of a DOWN port's queue is discarded and counted (R434). -/
def execTxDownDrop (pe port : Nat) (s : State) : Host.Outcome State Fault Refusal :=
  Next (if !engineRuns s pe ∨ 8 ≤ port ∨ portState s pe port ≠ 0xB9 then s
    else match s.lan.txq.find? (fun f => f.pe = pe && f.port = port) with
      | some f => cnt { s with lan := { s.lan with txq := s.lan.txq.erase f } } (portCnt pe port 6)
      | none => s)

/-- A raw port out of blocks sends its IDLE word for a block time (R451). -/
def execRawUnderrun (pe port : Nat) (s : State) : Host.Outcome State Fault Refusal :=
  Next (if !engineRuns s pe ∨ 8 ≤ port ∨ portState s pe port ≠ 0xBB ∨ rawBytes s pe port ≠ 0 then s
    else
      let idle := (List.replicate 64 (toBytes 4 (rd s (penDef pe port + 4)).toNat)).flatten
      cnt { s with lan := { s.lan with wire := sset [] s.lan.wire (8 * pe + port) idle } } (portCnt pe port 7))

/-- An entry's duration ends: the status shows the entry in force (R446, R449). -/
def execGateEntryEnd (pe : Nat) (s : State) : Host.Outcome State Fault Refusal :=
  Next (if !engineRuns s pe then s else showGate pe s)

/-- A frame already started on a gated port whose class the new list closes is counted (R448). -/
def gateOverruns (p gates : Nat) (s : State) : State :=
  (upto 8).foldl (fun t k =>
    match sget none t.lan.leaving (8 * p + k) with
    | some (c, e) =>
      if rdB t (penCfg p k) 20 ∧ t.tu.tick < e ∧ !gates.testBit c then cnt t (portCnt p k 8) else t
    | none => t) s

/-- At its BASE the shadow list becomes active (R448). -/
def execGateListSwitch (pe : Nat) (s : State) : Host.Outcome State Fault Refusal :=
  Next (match sget none s.lan.shadow pe with
    | none => s
    | some g =>
      let c := replicaTb s (engineDie pe) g.tb
      if !engineRuns s pe ∨ !c.run ∨ c.cnt % 2 ^ 80 < g.base * 2 ^ 40 then s
      else
        let s1 := gateOverruns pe (gateMask (g.entries.headD 0)) (switchGate pe g s)
        raise 0x0C05 0 (engineStation pe) [word pe, lo32 g.base, hi32 g.base] s1)

/-! ### Settings kept (R453, R454) -/

/-- The entries of one map put into another. -/
def putAll {α : Type} [DecidableEq α] (d : α) (l m : List (Nat × α)) : List (Nat × α) :=
  l.foldl (fun m e => sset d m e.1 e.2) m

/-- A kept gate list made active when its BASE has passed, else put into the shadow bank. -/
def restoreGate (l p : Nat) (g : GateList) (s : State) : State :=
  let c := replicaTb s (1 + l) g.tb
  if c.run ∧ g.base * 2 ^ 40 ≤ c.cnt % 2 ^ 80 then switchGate p g s else loadShadow p g s

/-- A die's settings as the Warden keeps them, written again. -/
def reapply (l : Nat) (s : State) : State :=
  let lo := laneWin l
  let mine (i size : Nat) : Bool := decide (i / size = l)
  let s1 := (s.lan.kept.filter (fun (e : Nat × Option Word) => decide (lo ≤ e.1 ∧ e.1 < lo + 0x01000000))).foldl
    (fun t (e : Nat × Option Word) => match e.2 with
      | some v => wr t e.1 (if (e.1 - lo) % 0x1000 = 0xC ∧ e.1 < lo + 0x400000 then setFld v 2 0 3 else v)
      | none => t) s
  let q (e : Nat × List Nat) : Nat × Option Policer :=
    (e.1, some { newPolicer (e.2.getD 0 0) (e.2.getD 1 0) (e.2.getD 2 0) (e.2.getD 3 0) s.tu.tick with tc := 0, tp := 0 })
  let s2 := { s1 with lan := { s1.lan with
    cls := putAll [] (s1.lan.clsKept.filter (fun (e : Nat × List Word) => mine e.1 65536)) (sdrop s1.lan.cls (fun i => mine i 65536)),
    pol := putAll none ((s1.lan.polKept.filter (fun (e : Nat × List Nat) => mine e.1 4096)).map q) (sdrop s1.lan.pol (fun i => mine i 4096)),
    trim := match sget none s1.lan.trial l with
      | some v => sset 0 s1.lan.trim l v
      | none => s1.lan.trim } }
  (s2.lan.gateKept.filter (fun (e : Nat × Option GateList) => mine e.1 16)).foldl
    (fun t (e : Nat × Option GateList) => match e.2 with
      | some g => restoreGate l e.1 g t
      | none => t) s2

/-- A lane die in REJOIN takes its settings again and enters RUN (R453). -/
def execLaneSettingsReapply (l : Nat) (s : State) : Host.Outcome State Fault Refusal :=
  Next (if 4 ≤ l ∨ dieState s (1 + l) ≠ 0x34 then s else bootAdvance (setDieState (1 + l) 0x30 (reapply l s)))

end Sys2Proof.Machine
end

