-- ==== Sys2Proof/Machine/Cfg.lean ====
section
/-!
DEFINITION. Meanings of the CFG command group and of what loads, releases, swaps and sweeps configuration (04
R98-R127; 07 R217).
-/
namespace Sys2Proof.Machine

/-! ### Commands (R127) -/

/-- CFG_INFO. -/
def execCfgInfo (b : Nat) (s : State) : Host.Outcome State Fault Refusal :=
  .next (serve 0x0301 allServed (fun r s =>
    let g := r.w 0
    if 8 ≤ g then badArg 0
    else .ok (rd s cfgBase :: rd s (regionReg g 16) :: (upto 16).map (fun c => rd s (regionReg g c))) s) b s)

/-- BOOT_SRC as the device takes it: a reserved strap acts as 00 (01 R23, R24). -/
def bootSrc (s : State) : Nat := let v := rdF s (wdnBase + 0x10) 8 7; if v = 3 then 0 else v

/-- CFG_HEADER (R101, R103). -/
def execCfgHeader (b : Nat) (s : State) : Host.Outcome State Fault Refusal :=
  .next (serve 0x0302 [0x11] (fun r s =>
    if s.cfg.header.isSome then refused 0x030E
    else if bootSrc s = 1 then refused 0x030F
    else match hdrCheck s r.args with
      | some (st, d) => .fail st d [] (authFail d s)
      | none => .ok [] (wrB (adoptHeader r.args s) cfgBase 2 true)) b s)

/-- The stream load that is open. -/
def streamLoad (s : State) : Option Load := s.cfg.loads.find? (fun l => l.source = 2)

/-- CFG_LOAD (R105, R114, R119, R122). `hdr` and `desc` are what the controller reads from the source, `outcome` how
that reading ends: OK, POISON, ABSENT. A stream's header arrives by STREAM_PORT_WRITE. -/
def execCfgLoad (b : Nat) (hdr desc : List Word) (outcome : Nat) (s : State) : Host.Outcome State Fault Refusal :=
  .next (serve 0x0303 [0x40, 0x46, 0x43] (fun r s =>
    let t := cfgTarget r
    let st := regionState s t.1 t.2
    let src := r.f 4 1 0
    if t.2 = 16 ∧ st = 0x43 then .no stWrongState 0
    else if t.2 = 16 ∧ r.f 0 3 0 ≠ 0 then badArg 0
    else if src = 3 then badArg 4
    else if !dieAlive s (8 + t.1) then .no stAbsent 0
    else if 8 ≤ s.cfg.loads.length then .no stExhausted 0x0316
    else
      let l : Load := { grove := t.1, region := t.2, shadow := st = 0x43, source := src, auto := (r.w 0).testBit 8,
                        station := sget 0 s.ward.poster r.booth }
      if src = 2 ∧ (streamLoad s).isSome then .no stBusy 0x0315
      else if src = 2 ∧ !r.flags.testBit 1 then
        .run { s with cfg := { s.cfg with loads := s.cfg.loads ++ [{ l with header := some r.booth }] } }
      else if outcome = stPoison ∨ outcome = stAbsent then .no outcome 0
      else match imageCheck s t.1 t.2 l.shadow hdr desc with
        | some (e, d) => .fail e d [] (authFail d s)
        | none => .ok [word (if l.shadow then 0x44 else 0x41)] (beginLoad l hdr desc s)) b s)

/-- The edge that a timed command names: its time base, and the time if it lies ahead; `none` when its payload is
refused (R121). -/
def timedEdge (r : Req) (s : State) : Reply ⊕ (Nat × Option Nat × Bool) :=
  let tb := r.f 4 2 0
  let c := (tbAt s tb).core
  if !(r.w 4).testBit 3 then .inr (tb, none, false)
  else if !c.run then .inl (.no stNotReady 0x0311)
  else
    let t := r.w 8 + r.f 12 7 0 * 2 ^ 32
    let ahead := (t + 2 ^ 40 - c.now40) % 2 ^ 40
    if ahead = 0 ∨ 2 ^ 39 ≤ ahead then .inr (tb, none, true)
    else if 1000000000 < ahead then .inl (badArg 8)
    else .inr (tb, some t, false)

/-- An edge waits; its step answers the command. -/
def awaitEdge (op kind : Nat) (r : Req) (s : State) : Reply :=
  match timedEdge r s with
  | .inl e => e
  | .inr (tb, due, late) =>
    let t := cfgTarget r
    .run { s with cfg := { s.cfg with edges := s.cfg.edges ++
      [{ booth := some r.booth, op := op, grove := t.1, region := t.2, kind := kind, tb := tb, due := due, late := late }] } }

/-- CFG_RELEASE (R117). -/
def execCfgRelease (b : Nat) (s : State) : Host.Outcome State Fault Refusal :=
  .next (serve 0x0304 [0x42] (fun r s =>
    let t := cfgTarget r
    if t.2 = 16 ∧ r.f 0 3 0 ≠ 0 then badArg 0
    else if !dieAlive s (8 + t.1) then .no stAbsent 0
    else if t.2 ≠ 16 ∧ regionState s t.1 16 ≠ 0x43 then refused 0x0309
    else awaitEdge 0x0304 0 r s) b s)

/-- CFG_SWAP (R118). -/
def execCfgSwap (b : Nat) (s : State) : Host.Outcome State Fault Refusal :=
  .next (serve 0x0305 [0x45] (fun r s =>
    if (cfgTarget r).2 = 16 then badArg 0
    else if !dieAlive s (8 + (cfgTarget r).1) then .no stAbsent 0
    else awaitEdge 0x0305 1 r s) b s)

/-- CFG_ROLLBACK (R118). -/
def execCfgRollback (b : Nat) (s : State) : Host.Outcome State Fault Refusal :=
  .next (serve 0x0306 [0x43] (fun r s =>
    let t := cfgTarget r
    if t.2 = 16 then badArg 0
    else if !dieAlive s (8 + t.1) then .no stAbsent 0
    else if !rdB s (regionReg t.1 t.2) 9 then refused 0x030D
    else awaitEdge 0x0306 2 r s) b s)

/-- The serial ports of a region reset, their FIFOs emptied (05 R162). -/
def resetSerial (g r : Nat) (s : State) : State :=
  { s with fab := { s.fab with serial := sdrop s.fab.serial (fun k =>
      k / 8 = g && ownerOf s g 1 (20 * (3 + k % 8) + 3) = r) } }

/-- CFG_CLEAR (R115, R120): refused while an OPEN contract has an endpoint at a stop of the clearing. -/
def execCfgClear (b : Nat) (s : State) : Host.Outcome State Fault Refusal :=
  .next (serve 0x0307 [0x42, 0x43, 0x45, 0x46] (fun r s =>
    let t := cfgTarget r
    if t.2 = 16 then badArg 0
    else if regionTouched s t.1 t.2 then refused 0x030A
    else .ok [] (setPrev t.1 t.2 false (setRegionState t.1 t.2 0x40 (resetSerial t.1 t.2
      (voidBrams t.1 t.2 (erasePlane t.1 t.2 true (erasePlane t.1 t.2 false
        { s with cfg := { s.cfg with auto := s.cfg.auto.filter (· ≠ t.1 * 17 + t.2) } }))))))) b s)

/-! ### Frames (R108, R115, R123) -/

/-- A crossing port configured in a group that LNK_NEED of the unit does not hold (07 R217). -/
def portsOutside (s : State) (g : Nat) (ports : List (Nat × Nat)) : Bool :=
  ports.any (fun p => !rdB s (lnkBlk (8 + g) p.1 + 0x18) p.2)

/-- Needed groups recorded at both ends of a crossing as a static image loads (07 R217). -/
def recordNeed (g : Nat) (ports : List (Nat × Nat)) (s : State) : State :=
  ports.foldl (fun t p =>
    if p.1 < 2 ∨ 4 < p.1 ∨ 8 ≤ p.2 then t
    else match linkPeer (8 + g) p.1 with
      | some (d, u) => wrB (wrB t (lnkBlk (8 + g) p.1 + 0x18) p.2 true) (lnkBlk d u + 0x18) p.2 true
      | none => t) s

/-- What is wrong with a frame: its detail (R108, R119; 05 R142). `pl` is its decrypted payload, none when its tag
fails; `ports` the crossing ports it configures, unit and group. -/
def frameCheck (s : State) (l : Load) (f : List Word) (pl : Option (List Word)) (ports : List (Nat × Nat)) :
    Option Nat :=
  let zero := (wordAt f 2).testBit 0
  let type := nfld (wordAt f 0) 27 24
  let idx := nfld (wordAt f 0) 15 0
  if wordAt f 1 ≠ l.next then some 0x0305
  else if f.length ≠ frameLen l.enc zero ∨ crc32 (wordsToBytes f.dropLast) ≠ wordAt f (f.length - 1) then some 0x0303
  else match pl with
    | none => some 0x0313
    | some p =>
      if nfld (wordAt f 0) 31 28 ≠ 8 + l.grove ∨ !frameListed type idx ∨ ownerOf s l.grove type idx ≠ l.region
          ∨ (type = 2 ∧ !l.bramInit) ∨ (l.region ≠ 16 ∧ portsOutside s l.grove ports)
          ∨ (type = 1 ∧ (claimsOf idx p).any (fun c => claimOutside s l.grove l.region c.1)) then some 0x0304
      else if l.shadow ∧ type = 4 ∧ 128 ≤ idx
          ∧ (if p.all (· = 0) then [] else p) ≠ liveFrame s l.grove 4 idx then some 0x030B
      else none

/-- A frame taken by its load: written after its checks, or the load fails. -/
def takeFrame (l : Load) (f : List Word) (ports : List (Nat × Nat)) (s : State) : State :=
  let zero := (wordAt f 2).testBit 0
  let pl : Option (List Word) :=
    if zero then some []
    else if l.enc then Config.gcmOpen l.epoch l.nonce (wordAt f 1) (f.take 4) ((f.drop 4).take 1024) ((f.drop 1028).take 4)
    else some ((f.drop 4).take 1024)
  match frameCheck s l f pl ports with
  | some d => loadFailed l stFailed d (wordAt f 1) s
  | none =>
    let s1 := writeFrame l (nfld (wordAt f 0) 27 24) (nfld (wordAt f 0) 15 0) (pl.getD []) s
    let s2 := if l.region = 16 then recordNeed l.grove ports s1 else s1
    putLoad { l with next := l.next + 1, body := l.body ++ f } s2

/-- A frame arrives (R108). A stream load takes its frame from the words it has received. `outcome` is how a device
address answers: OK, or POISON or ABSENT, which fail the load (R122). -/
def execLoadFrame (g region : Nat) (frame : List Word) (ports : List (Nat × Nat)) (outcome : Nat) (s : State) :
    Host.Outcome State Fault Refusal :=
  .next (match loadOf s g region with
    | none => s
    | some l =>
      if l.header.isSome ∨ l.frames ≤ l.next then s
      else if l.source = 2 then
        let n := frameLen l.enc ((wordAt l.buffer 2).testBit 0)
        if l.buffer.length < n then s
        else takeFrame { l with buffer := l.buffer.drop n } (l.buffer.take n) ports s
      else if l.source = 1 ∧ (outcome = stPoison ∨ outcome = stAbsent) then loadFailed l outcome 0 l.next s
      else takeFrame l frame ports s)

/-- An edge without a command: an AUTO_RELEASE. -/
def autoEdge (g r : Nat) : Edge :=
  { booth := none, op := 0, grove := g, region := r, kind := 0, tb := 0, due := none, late := false }

/-- After the last frame the running SHA-384 is compared with DIGEST (R108, R115). A region with AUTO_RELEASE is
released under R117; those of the image table at boot wait for step 9. -/
def execLoadDigestCheck (g region : Nat) (s : State) : Host.Outcome State Fault Refusal :=
  .next (match loadOf s g region with
    | none => s
    | some l =>
      if l.header.isSome ∨ l.next < l.frames then s
      else if Config.sha384 (wordsToBytes l.body) ≠ l.digest then loadFailed l stFailed 0x0302 l.next s
      else
        let st := if l.shadow then 0x45 else 0x42
        let s1 := setRegionState g region st (dropLoad g region s)
        let s2 := raise 0x0301 0 0 [word (regionId g region), word l.next, word st] s1
        let key := g * 17 + region
        let s3 := if l.auto ∧ !l.shadow then
            { s2 with cfg := { s2.cfg with auto := s2.cfg.auto.filter (· ≠ key) ++ [key] } } else s2
        let s4 := if l.auto ∧ !l.shadow ∧ !(l.table ∧ bootStep s3 ≤ 9) ∧ (region = 16 ∨ regionState s3 g 16 = 0x43) then
            { s3 with cfg := { s3.cfg with edges := s3.cfg.edges ++ [autoEdge g region] } } else s3
        if l.table then tableEnd true s4 else s4)

/-- The header and descriptor of a stream have arrived: its CFG_LOAD is answered (R123). -/
def streamHeader (l : Load) (b : Nat) (s : State) : State :=
  let h := l.buffer.take 64
  let n := wordAt h 3 / 4
  if l.buffer.length < 64 + n then putLoad l s
  else
    let desc := (l.buffer.drop 64).take n
    match imageCheck s l.grove l.region l.shadow h desc with
    | some (e, d) => answer b e (regionState s l.grove l.region) d [] (authFail d (dropLoad l.grove l.region s))
    | none =>
      let a := { armLoad l h desc with buffer := l.buffer.drop (64 + n) }
      let s1 := beginPlane a desc (putLoad a s)
      let st := regionState s1 l.grove l.region
      answer b stOk st 0 [word st] s1

/-- A 32-bit write to the stream port: consumed in order by the open stream load from the station that posted its
CFG_LOAD, held back while 64 KiB wait, else ignored and counted (R123). -/
def execStreamPortWrite (station : Nat) (value : Word) (s : State) : Host.Outcome State Fault Refusal :=
  .next (match streamLoad s with
    | none => cnt s (cfgBase + 8)
    | some l =>
      if l.station ≠ station then cnt s (cfgBase + 8)
      else if 16384 ≤ l.buffer.length then s
      else
        let l' := { l with buffer := l.buffer ++ [value] }
        match l.header with
        | some b => streamHeader l' b s
        | none => putLoad l' s)

/-- A stream with no write for 100 ms fails its load with STREAM_IDLE (R123). -/
def execStreamIdle (s : State) : Host.Outcome State Fault Refusal :=
  .next (match streamLoad s with
    | none => s
    | some l =>
      match l.header with
      | some b => answer b stTimeout (regionState s l.grove l.region) 0x0310 [] (dropLoad l.grove l.region s)
      | none => loadFailed l stTimeout 0x0310 l.next s)

/-! ### Edges (R117, R118, R121) -/

/-- The oldest edge that waits for a region, of a release or of a swap or rollback. -/
def edgeOf (s : State) (g r : Nat) (release : Bool) : Option Edge :=
  s.cfg.edges.find? (fun e => e.grove = g && e.region = r && (e.kind = 0) = release)
/-- The edge's named time has come. -/
def edgeDue (s : State) (e : Edge) : Bool :=
  match e.due with
  | none => true
  | some t => (((tbAt s e.tb).core.now40 + 2 ^ 40 - t) % 2 ^ 40) < 2 ^ 39

/-- CFG_RELEASED, and the timed answer of the edge's command. -/
def edgeDone (e : Edge) (s : State) : State :=
  let c := (tbAt s e.tb).core
  let ns := if c.run then c.ns else 0
  let wr_ := if c.run then c.wraps else 0
  let s1 := raise 0x0303 0 0 [word (regionId e.grove e.region), word e.kind, word ns, word wr_]
    { s with cfg := { s.cfg with edges := s.cfg.edges.erase e } }
  match e.booth with
  | some b => answer b stOk (regionState s1 e.grove e.region) 0 [word (b2n e.late), word ns, word wr_] s1
  | none => s1

/-- Key of a link unit: its lower-numbered end. -/
def linkKey (d u : Nat) : Nat :=
  match linkPeer d u with
  | some (p, v) => min (d * 16 + u) (p * 16 + v)
  | none => d * 16 + u
def linkAt (s : State) (d u : Nat) : LinkUnit := sget {} s.links.units (linkKey d u)
def setLink (d u : Nat) (x : LinkUnit) (s : State) : State :=
  { s with links := { s.links with units := sset {} s.links.units (linkKey d u) x } }
/-- STATE of both ends of a unit. -/
def setUnit (d u st : Nat) (s : State) : State :=
  let one (t : State) (p v : Nat) : State := if p = 0 then t else wrF t (lnkBlk p v) 23 16 st
  match linkPeer d u with
  | some (p, v) => one (one s d u) p v
  | none => s

/-- CROSSING_CHECK (07 R217): the crossing passes its signals when every needed group is trained, else it is FENCED.
-/
def crossingCheck (g u : Nat) (s : State) : State :=
  match linkPeer (8 + g) u with
  | none => s
  | some (p, _) =>
    if regionState s g 16 ≠ 0x43 ∨ regionState s (p - 8) 16 ≠ 0x43 ∨ !unitRuns s (8 + g) u then s
    else
      let need := rdF s (lnkBlk (8 + g) u + 0x18) 7 0
      let have_ := unitWidth s (8 + g) u % 256
      if need &&& have_ = need then setLink (8 + g) u { linkAt s (8 + g) u with passing := true } s
      else raise 0x0884 2 0 [word (8 + g + u * 2 ^ 8), word (have_ + need * 2 ^ 8)] (setUnit (8 + g) u 0x64 s)

/-- The design stations of a region in reserve mode (06 R190). -/
def reserveMode (g r : Nat) (s : State) : State :=
  (upto 32).foldl (fun t k =>
    if stopOwner s g (0x80 + k) = r then wrB t (stnCfg ((8 + g) * 256 + 0x80 + k)) 1 false else t) s

/-- A LOADED region is released. With its static region a grove enters RUN, and its crossings are checked. -/
def releaseRegion (e : Edge) (s : State) : State :=
  let s1 := edgeDone e (reserveMode e.grove e.region (setRegionState e.grove e.region 0x43
    { s with cfg := { s.cfg with auto := s.cfg.auto.filter (· ≠ e.grove * 17 + e.region) } }))
  if e.region = 16 then
    let s2 := if dieState s1 (8 + e.grove) = 0x34 then setDieState (8 + e.grove) 0x30 s1 else s1
    [2, 3, 4].foldl (fun t u => crossingCheck e.grove u t) s2
  else s1

/-- The LOADED clearings with AUTO_RELEASE go with their static region, on the same edge (R117). -/
def releaseAutos (g : Nat) (s : State) : State :=
  (upto 16).foldl (fun t c =>
    if t.cfg.auto.contains (g * 17 + c) ∧ regionState t g c = 0x42 then releaseRegion (autoEdge g c) t else t) s

/-- A release edge (R117). -/
def execReleaseEdge (g region : Nat) (s : State) : Host.Outcome State Fault Refusal :=
  .next (match edgeOf s g region true with
    | none => s
    | some e =>
      if !edgeDue s e ∨ regionState s g region ≠ 0x42 then s
      else if region = 16 then releaseAutos g (releaseRegion e s) else releaseRegion e s)

/-- A swap or rollback edge, with its four gated cycles (R118; 05 R162). -/
def execSwapEdge (g region : Nat) (s : State) : Host.Outcome State Fault Refusal :=
  .next (match edgeOf s g region false with
    | none => s
    | some e =>
      if !edgeDue s e ∨ !(regionState s g region = 0x45 ∨ regionState s g region = 0x43) then s
      else
        let s1 := resetSerial g region (exchangePlanes g region s)
        edgeDone e (setPrev g region true (setRegionState g region 0x43 s1)))

/-! ### Sweep, reload, end of boot -/

/-- The sweep reads a frame of a plane, its frame address FAR: `finding` 0 no error, 1 corrected, 2 uncorrectable. An
armed point 0x01 alters the stored bits (R124; 19 R560). -/
def execConfigSweepRead (g far : Nat) (shadow : Bool) (finding : Nat) (s : State) : Host.Outcome State Fault Refusal :=
  .next (if 8 ≤ g ∨ far / 2 ^ 28 ≠ 8 + g ∨ !frameListed (nfld far 27 24) (nfld far 15 0) ∨ !dieAlive s (8 + g) then s
    else
      let d := 8 + g
      let hit := injTarget s d 1 = far ∧ (injPattern s d 1).testBit 16 = shadow
      let r := if hit then inject d 1 s else (false, s)
      let f := if r.1 then max finding (if (injPattern s d 1).testBit 15 then 2 else 1) else finding
      let s1 := if r.1 then injSeen d 1 far r.2 else findingAt d 1 far r.2
      if f = 0 then r.2
      else if f = 1 then countCorr d (cnt s1 (cfgGrv g + 0x4C))
      else
        raise 0x0305 3 0 [word far, word (b2n shadow)]
          (countUncorr d (wr (cnt s1 (cfgGrv g + 0x50)) (cfgGrv g + 0x54) (word far))))

/-- The Warden loads entry `entry` of the header's image table into grove `g`: at boot step 8, and after the grove
has come back to REJOIN when REJOIN_RELOAD = 1 (R98, R125). -/
def execRejoinReload (g entry : Nat) (hdr desc : List Word) (outcome : Nat) (s : State) :
    Host.Outcome State Fault Refusal :=
  .next (match s.cfg.header with
    | none => s
    | some h =>
      let t := hdrTarget h entry
      let r := if t.testBit 7 then 16 else t % 16
      let st := regionState s g r
      let boot := bootStep s = 8
      if 8 ≤ g ∨ hdrCount h ≤ entry ∨ nfld t 6 4 ≠ g ∨ !(st = 0x40 ∨ st = 0x46) ∨ 8 ≤ s.cfg.loads.length
          ∨ !(dieState s (8 + g) = 0x34 ∨ dieState s (8 + g) = 0x30)
          ∨ !(boot ∨ (bootStep s = 0xA ∧ (wordAt h 4).testBit 8)) then s
      else
        let l : Load := { grove := g, region := r, shadow := false, source := 0, auto := t.testBit 8, table := boot }
        let bad (e d : Nat) (x : State) : State :=
          let y := raise 0x0302 2 0 [word (regionId g r), word (e + d * 2 ^ 16), 0] x
          if boot then tableEnd false y else y
        if outcome ≠ 0 then bad outcome 0 s
        else match imageCheck s g r false hdr desc with
          | some (e, d) => bad e d (authFail d s)
          | none => beginLoad l hdr desc s)

/-- The groves in RUN, as a mask. -/
def runMask (s : State) : Nat := (upto 8).foldl (fun n g => n + b2n (dieState s (8 + g) = 0x30) * 2 ^ g) 0

/-- Boot step 9: the regions flagged AUTO_RELEASE are released, CFG_BOOT_DONE is raised (R98). -/
def execAutoRelease (s : State) : Host.Outcome State Fault Refusal :=
  .next (if bootStep s ≠ 9 then s
    else
      let s1 := (upto 8).foldl (fun t g =>
        let u := if t.cfg.auto.contains (g * 17 + 16) ∧ regionState t g 16 = 0x42 then releaseRegion (autoEdge g 16) t
                 else t
        if regionState u g 16 = 0x43 then releaseAutos g u else u) s
      raise 0x0304 0 0 [word (runMask s1), word s1.cfg.tableFailed] (setBootStep 0xA s1))

end Sys2Proof.Machine
end

