-- ==== Sys2Proof/Machine/CacheOps.lean ====
section
/-!
DEFINITION. Remote caches as operations: ways, victims, fills, vestiges, and the loss of a home (07 R220-R224, R231,
R232, R237).
-/
namespace Sys2Proof.Machine

/-! ### Ways -/

def wayBase (g line : Nat) : Nat := (g * 16384 + line % 16384) * 16
def wayAt (s : State) (k : Nat) : CacheLine := sget {} s.rmc.lines k
def setWay (k : Nat) (x : CacheLine) (s : State) : State := { s with rmc := { s.rmc with lines := sset {} s.rmc.lines k x } }
def setWays (g line : Nat) : List Nat := (upto 16).map (wayBase g line + ·)
/-- Key of the way that holds a line in S, M or V. -/
def findWay (s : State) (g h line : Nat) : Option Nat :=
  (setWays g line).find? (fun k => (wayAt s k).st ≠ 0 && (wayAt s k).home = h && (wayAt s k).line = line)
/-- Vestiges are made and used. -/
def vestEn (s : State) (g : Nat) : Bool := rdB s (rmcBlk g) 1
/-- Device address of a line of grove `h`. -/
def homeAddr (h line : Nat) : Nat := h * 0x4000000000 + line * 64
/-- The way marked as just used. -/
def touchWay (k : Nat) (s : State) : State :=
  let u := s.rmc.clockUse + 1
  setWay k { wayAt s k with used := u } { s with rmc := { s.rmc with clockUse := u } }

/-- The line's copy given up: a surrender notice for S, a write-back for M (R223). -/
def giveUp (g : Nat) (x : CacheLine) (s : State) : State :=
  if x.st = 1 then
    launch3 { op := 6, vc := 3, dst := rmcStation x.home, src := rmcStation g, addr := homeAddr x.home x.line, len := 0 } s
  else if x.st = 2 then
    sendUnit { op := 2, vc := 2, dst := rmcStation x.home, src := rmcStation g, addr := homeAddr x.home x.line, len := 64,
               data := x.data, poison := x.poison } s
  else s

/-- Part of a request that its cache serves next: line, first byte in it, bytes. -/
def partOf (r : CacheReq) : Nat × Nat × Nat :=
  let a := r.pkt.addr + r.pos
  (lineOf a, a % 64, min (64 - a % 64) (r.pkt.len - r.pos))
def reqHome (r : CacheReq) : Nat := r.pkt.addr / 0x4000000000
/-- A request waits on a line. -/
def waitsOn (s : State) (g h line : Nat) : Bool :=
  s.rmc.reqs.any (fun r => r.grove = g && reqHome r = h && (partOf r).1 = line)
def fillOf (s : State) (g h line : Nat) : Option Fill :=
  s.rmc.fills.find? (fun f => f.grove = g && f.home = h && f.line = line)

/-- The least recently used of some ways. -/
def lruOf (s : State) (l : List Nat) : Option Nat :=
  l.foldl (fun a k => match a with
    | none => some k
    | some m => if (wayAt s k).used < (wayAt s m).used then some k else some m) none

/-- The way that a fill takes: an I way, then the least recently used V way with no check pending, then the least
recently used S or M way that no request waits on (R224). -/
def victim (s : State) (g line : Nat) : Option Nat :=
  let free := (setWays g line).filter (fun k => !s.rmc.fills.any (fun f => f.way = k))
  match free.find? (fun k => (wayAt s k).st = 0) with
  | some k => some k
  | none =>
    (lruOf s (free.filter (fun k => (wayAt s k).st = 3 && !(wayAt s k).check))).orElse (fun _ =>
      lruOf s (free.filter (fun k => (1 ≤ (wayAt s k).st && (wayAt s k).st ≤ 2)
        && !waitsOn s g (wayAt s k).home (wayAt s k).line)))

/-- A fill asked of the home, into a way. -/
def askFill (g h line way : Nat) (excl : Bool) (s : State) : State :=
  let s1 := cnt { s with rmc := { s.rmc with fills := s.rmc.fills ++ [{ grove := g, home := h, line := line, excl := excl, way := way }] } }
    (rmcBlk g + 0x14)
  sendUnit { op := 1, vc := 2, dst := rmcStation h, src := rmcStation g, addr := homeAddr h line + b2n excl, len := 64 } s1

/-- After a fill that leaves its set with no I and no V way, the least recently used S or M way is demoted (R224). -/
def demote (g line : Nat) (s : State) : State :=
  let ws := setWays g line
  if ws.any (fun k => (wayAt s k).st = 0 || (wayAt s k).st = 3) then s
  else match lruOf s (ws.filter (fun k => !s.rmc.fills.any (fun f => f.way = k))) with
    | none => s
    | some k =>
      let x := wayAt s k
      giveUp g x (setWay k (if vestEn s g ∧ !x.poison then { x with st := 3 } else {}) s)

/-- A message of a cache to the station of a request that it serves. -/
def toRequester (p : Packet) (op vc : Nat) (data : List Byte) (status : Nat) (prov : Bool) : Packet :=
  { op := op, vc := vc, dst := p.src, src := p.dst, tag := p.tag, addr := p.addr, len := if op = 4 then p.len else data.length,
    data := data, status := status, prov := prov, poison := status = stPoison, tdir := 1 - p.tdir, hops := p.hops, altOk := p.altOk }

/-! ### Serving a request (R222, R223, R231) -/

/-- A part served: bytes read, or merged. -/
def partDone (r : CacheReq) (d : List Byte) (status : Nat) : CacheReq :=
  { r with pos := r.pos + (partOf r).2.2, data := r.data ++ d, status := if r.status = 0 then status else r.status }

/-- The answer of a request whose parts are all served. -/
def cacheAnswer (r : CacheReq) (s : State) : State :=
  let s1 := if r.missed then s else cnt s (rmcBlk r.grove + 0x10)
  respond r.pkt r.status (if r.status = 0 ∧ r.pkt.op = 1 then r.data else []) s1

/-- The request may be answered from a vestige (R231). -/
def takesVestige (s : State) (r : CacheReq) : Bool :=
  r.pkt.prov && r.pkt.op = 1 && r.pos = 0 && decide (r.pkt.addr % 64 + r.pkt.len ≤ 64) && vestEn s r.grove

/-- A provisional answer, and a vestige check unless one is pending (R231). -/
def vestigeHit (r : CacheReq) (k : Nat) (s : State) : State :=
  let x := wayAt s k
  let p := partOf r
  let s1 := cnt (touchWay k s) (rmcBlk r.grove + 0x18)
  let s2 := launch (toRequester r.pkt 4 1 ((x.data.drop p.2.1).take p.2.2) 0 true) s1
  if x.check then
    { s2 with rmc := { s2.rmc with checks := s2.rmc.checks.map (fun c =>
        if c.grove = r.grove ∧ c.home = x.home ∧ c.line = x.line then { c with requesters := c.requesters ++ [r.pkt] } else c) } }
  else
    let s3 := setWay k { wayAt s2 k with check := true } s2
    let e := (routeOf s3 (rmcStation r.grove) (rmcStation x.home)).toNat
    launch { op := 1, vc := 2, dst := rmcStation x.home, src := rmcStation r.grove, addr := homeAddr x.home x.line + 2, len := 64,
             data := x.data, prov := true, tdir := nfld e 29 29, altOk := e.testBit 28, hops := nfld e 15 8 }
      { s3 with rmc := { s3.rmc with checks := s3.rmc.checks ++ [{ grove := r.grove, home := x.home, line := x.line, data := x.data,
                                                                   requesters := [r.pkt] }] } }

/-- What serving a request comes to. -/
inductive Served where
  | answered
  | waits (r : CacheReq)

/-- Lines of the request served in turn while they can be; `blocked`, lines that earlier requests wait on. -/
def serveReq (blocked : List (Nat × Nat × Nat)) : Nat → CacheReq → State → Served × State
  | 0, r, s => (.waits r, s)
  | fuel + 1, r, s =>
    let g := r.grove
    let h := reqHome r
    let q := partOf r
    if r.pkt.len ≤ r.pos then (.answered, cacheAnswer r s)
    else if blocked.contains (g, h, q.1) ∨ (fillOf s g h q.1).isSome then (.waits r, s)
    else
      let read := r.pkt.op = 1
      let miss (s : State) (way : Option Nat) : Served × State :=
        match way with
        | none => (.waits r, s)
        | some k =>
          let x := wayAt s k
          let own := x.st ≠ 0 && x.home = h && x.line = q.1
          let s1 := if own then s else giveUp g x (setWay k {} s)
          (.waits { r with missed := true }, askFill g h q.1 k (!read) s1)
      match findWay s g h q.1 with
      | none => miss s (victim s g q.1)
      | some k =>
        let x := wayAt s k
        if x.st = 3 then
          (if takesVestige s r then (.answered, vestigeHit r k s)
           else if x.check then (.waits r, s)
           else miss (setWay k {} s) (some k))
        else if read then
          serveReq blocked fuel (partDone r ((x.data.drop q.2.1).take q.2.2) (if x.poison then stPoison else 0)) (touchWay k s)
        else if x.st = 2 then
          serveReq blocked fuel (partDone r [] 0)
            (touchWay k (setWay k { x with data := overlay x.data q.2.1 ((r.pkt.data.drop r.pos).take q.2.2),
                                           poison := x.poison || r.pkt.poison } s))
        else miss s (some k)

/-- Every request of the caches served as far as it can be, in the order of arrival; those of a gated block wait
(R574). -/
def pumpReqs (s : State) : State :=
  (s.rmc.reqs.foldl (fun (a : List (Nat × Nat × Nat) × State) r =>
    let cur : List CacheReq := a.2.rmc.reqs
    let x := if rmcWaits a.2 r.grove then (Served.waits r, a.2) else serveReq a.1 6 r { a.2 with rmc := { a.2.rmc with reqs := cur } }
    match x.1 with
    | .answered => (a.1, x.2)
    | .waits r' =>
      (a.1 ++ [(r'.grove, reqHome r', (partOf r').1)], { x.2 with rmc := { x.2.rmc with reqs := x.2.rmc.reqs ++ [r'] } }))
    (([] : List (Nat × Nat × Nat)), { s with rmc := { s.rmc with reqs := [] } })).2

/-! ### Checks (R232) -/

/-- A check's line in its way, if the way still holds the vestige. -/
def checkWay (s : State) (c : VCheck) : Option Nat :=
  (findWay s c.grove c.home c.line).filter (fun k => (wayAt s k).st = 3 && (wayAt s k).check)

/-- The line after a check: S with the given bytes, or I. A line dropped meanwhile is surrendered again. -/
def settle (c : VCheck) (data : Option (List Byte)) (s : State) : State :=
  match checkWay s c, data with
  | some k, some d => setWay k { wayAt s k with st := 1, data := d, check := false } s
  | some k, none => setWay k {} s
  | none, some _ => giveUp c.grove { st := 1, home := c.home, line := c.line } s
  | none, none => s

/-- The bytes of a requester within the line. -/
def sliceFor (p : Packet) (d : List Byte) : List Byte := (d.drop (p.addr % 64)).take p.len

/-- A check resolved: `data` none for CONFIRM, the home's bytes for RETRACT, or a status. -/
def resolveCheck (c : VCheck) (confirm : Bool) (home : List Byte) (status : Nat) (s : State) : State :=
  let good := if confirm then c.data else home
  let s0 := { s with rmc := { s.rmc with checks := s.rmc.checks.erase c } }
  let s1 := settle c (if status = 0 then some good else none) s0
  let each (f : Packet → State → State) (t : State) : State := c.requesters.foldl (fun u p => f p u) t
  if c.expired then
    each (fun p u => launch (toRequester p 4 1 (if status = 0 then sliceFor p good else []) status false) u) s1
  else if status ≠ 0 then
    cnt (each (fun p u => launch (toRequester p 4 1 [] status false)
      (launch3 (toRequester p 7 3 [] status false) u)) s1) (rmcBlk c.grove + 0x20)
  else if confirm then
    cnt (each (fun p u => launch3 (toRequester p 6 3 [] 0 false) u) s1) (rmcBlk c.grove + 0x1C)
  else cnt (each (fun p u => launch3 (toRequester p 7 3 (sliceFor p good) 0 false) u) s1) (rmcBlk c.grove + 0x20)

/-! ### Losses (R220, R575) -/

/-- Every line that grove `g`'s cache holds goes to I; each pending check is answered ABSENT. -/
def ownCacheDrop (g : Nat) (s : State) : State :=
  let s1 := { s with rmc := { s.rmc with lines := sdrop s.rmc.lines (fun k => k / 262144 = g) } }
  (s1.rmc.checks.filter (fun c => c.grove = g)).foldl (fun t c => resolveCheck c false [] stAbsent t) s1

/-- Cache `k` loses the home `g`: M lines are discarded and counted, checks in flight are answered ABSENT. -/
def homeLostAt (k g : Nat) (s : State) : State :=
  let mine (e : Nat × CacheLine) : Bool := e.1 / 262144 = k && e.2.home = g && e.2.st ≠ 0
  let n := (s.rmc.lines.filter (fun (e : Nat × CacheLine) => mine e && e.2.st = 2)).length
  let s1 := { s with rmc := { s.rmc with lines := s.rmc.lines.filter (fun (e : Nat × CacheLine) => !mine e) } }
  let s2 := (s1.rmc.checks.filter (fun c => c.grove = k && c.home = g)).foldl (fun t c => resolveCheck c false [] stAbsent t) s1
  if n = 0 then s2
  else raise 0x0886 2 (rmcStation k) [word k, word g, word n] (cntBy s2 (rmcBlk k + 0x30) n)

/-- Every other grove's cache loses the home of grove `g`. -/
def homeLost (g : Nat) (s : State) : State := ((upto 8).filter (· ≠ g)).foldl (fun t k => homeLostAt k g t) s

/-- Every V line of a grove's cache with no check pending dropped (R237). -/
def dropVestiges (g : Nat) (s : State) : State :=
  let l := s.rmc.lines.filter (fun (e : Nat × CacheLine) => !(e.1 / 262144 = g && e.2.st = 3 && !e.2.check))
  { s with rmc := { s.rmc with lines := l } }

end Sys2Proof.Machine
end

