-- ==== Sys2Proof/Machine/Cache.lean ====
section
/-!
DEFINITION. Meanings of the remote cache's events (07 R222-R224, R231, R232, R237, R575).
-/
namespace Sys2Proof.Machine

/-- Packet `i` of the inbox removed. -/
def dropInbox (i : Nat) (s : State) : State := { s with bough := { s.bough with inbox := s.bough.inbox.eraseIdx i } }

/-- A cacheable request reaches its grove's remote cache (R222). With the cache not in use it goes on to its home. -/
def execCacheableRequest (i : Nat) (s : State) : Host.Outcome State Fault Refusal :=
  Next (match inboxAt s i with
    | none => s
    | some p =>
      let g := p.dst / 256 - 8
      if !(isGroveDie (p.dst / 256) && p.dst % 256 = 3 && (1 ≤ p.op && p.op ≤ 3) && p.src / 256 = p.dst / 256 && p.src % 256 ≠ 3
          && decide (p.addr < 0x020000000000)) ∨ rmcWaits s g then s
      else if !rdB s (rmcBlk g) 0 then
        let home := stationOf s p.addr
        let e := (routeOf s p.src home).toNat
        launch { p with dst := home, tdir := nfld e 29 29, altOk := e.testBit 28, hops := nfld e 15 8, turned := false } (dropInbox i s)
      else
        let s1 := dropInbox i s
        pumpReqs { s1 with rmc := { s1.rmc with reqs := s1.rmc.reqs ++ [{ grove := g, pkt := p }] } })

/-- Requests that wait on a line whose fill was not answered OK take its status (R230). -/
def failWaiting (g h line status : Nat) (s : State) : State :=
  { s with rmc := { s.rmc with reqs := s.rmc.reqs.map (fun r =>
      if r.grove = g ∧ reqHome r = h ∧ (partOf r).1 = line then partDone r [] status else r) } }

/-- The answer of a fill arrives: the line is installed and the requests that wait are served (R223, R230). -/
def execCacheFillArrival (i : Nat) (s : State) : Host.Outcome State Fault Refusal :=
  Next (match inboxAt s i with
    | none => s
    | some p =>
      let g := p.dst / 256 - 8
      let h := p.addr / 0x4000000000
      let l := lineOf p.addr
      if !(isGroveDie (p.dst / 256) && p.dst % 256 = 3 && p.op = 4) ∨ rmcWaits s g then s
      else match fillOf s g h l with
        | none => dropInbox i s
        | some f =>
          let s1 := dropInbox i s
          let s2 := { s1 with rmc := { s1.rmc with fills := s1.rmc.fills.erase f } }
          let st := if p.poison then stPoison else p.status
          if st ≠ 0 then
            pumpReqs (failWaiting g h l st (match findWay s2 g h l with
              | some k => setWay k {} s2
              | none => s2))
          else
            let s3 := touchWay f.way (setWay f.way { st := if f.excl then 2 else 1, home := h, line := l, data := p.data } s2)
            pumpReqs (demote g l s3))

/-- The answer of a line's fill is on its way to a cache. -/
def fillInFlight (s : State) (g line h : Nat) : Bool :=
  (s.net ++ s.bough.inbox).any (fun p => p.op = 4 && p.dst = rmcStation g && p.addr / 0x4000000000 = h && lineOf p.addr = line)

/-- A withdrawal arrives at a cache, which answers it (R223, R226). One that has overtaken the line's fill waits for
it. -/
def execWithdrawalArrival (i : Nat) (s : State) : Host.Outcome State Fault Refusal :=
  Next (match inboxAt s i with
    | none => s
    | some p =>
      let g := p.dst / 256 - 8
      let h := p.addr / 0x4000000000
      let l := lineOf p.addr
      let kind := p.addr % 64
      if !(isGroveDie (p.dst / 256) && p.dst % 256 = 3 && p.op = 7 && p.len = 0 && p.status = 0) ∨ rmcWaits s g
          ∨ fillInFlight s g l h then s
      else
        let s1 := dropInbox i s
        let ans (x : CacheLine) (data : Bool) (t : State) : State :=
          launch3 { op := 6, vc := 3, dst := p.src, src := p.dst, addr := homeAddr h l, len := if data then 64 else 0,
                    data := if data then x.data else [], poison := data && x.poison } t
        match findWay s1 g h l with
        | none => ans {} false s1
        | some k =>
          let x := wayAt s1 k
          let gone : CacheLine := if kind = wdRelease ∧ vestEn s1 g ∧ !x.poison then { x with st := 3 } else {}
          if x.st = 3 then ans x false s1
          else if x.st = 1 then ans x false (if kind = wdShare then s1 else setWay k gone s1)
          else ans x true (setWay k (if kind = wdShare then { x with st := 1 } else gone) s1))

/-- A CONFIRM or RETRACT answers a vestige check (R232). -/
def execCheckAnswerArrival (i : Nat) (s : State) : Host.Outcome State Fault Refusal :=
  Next (match inboxAt s i with
    | none => s
    | some p =>
      let g := p.dst / 256 - 8
      let h := p.addr / 0x4000000000
      let ok := isGroveDie (p.dst / 256) && p.dst % 256 = 3 && h ≠ g
        && (p.op = 6 || (p.op = 7 && (p.len = 64 || p.status ≠ 0)))
      if !ok ∨ rmcWaits s g then s
      else match s.rmc.checks.find? (fun c => c.grove = g && c.home = h && c.line = lineOf p.addr) with
        | none => s
        | some c => pumpReqs (resolveCheck c (p.op = 6) p.data (if p.poison then stPoison else p.status) (dropInbox i s)))

/-- The confirm window of check `i` ends first: every requester gets a RETRACT of LEN 0 (R232). -/
def execConfirmWindowExpiry (i : Nat) (s : State) : Host.Outcome State Fault Refusal :=
  Next (match s.rmc.checks[i]? with
    | none => s
    | some c =>
      if c.expired then s
      else
        let s1 := { s with rmc := { s.rmc with checks := s.rmc.checks.set i { c with expired := true } } }
        let s2 := c.requesters.foldl (fun t p => launch3 (toRequester p 7 3 [] 0 false) t) s1
        cnt (cnt s2 (rmcBlk c.grove + 0x24)) (rmcBlk c.grove + 0x20))

/-- While FLUSHING the cache writes back every M line, surrenders every S line and drops every line (R237). -/
def execRmcFlush (g : Nat) (s : State) : Host.Outcome State Fault Refusal :=
  Next (if 8 ≤ g ∨ !rdB s (rmcBlk g + 4) 0 ∨ rmcWaits s g then s
    else
      let mine (e : Nat × CacheLine) : Bool := e.1 / 262144 = g && !e.2.check
      (s.rmc.lines.filter mine).foldl (fun t (e : Nat × CacheLine) => giveUp g e.2 t)
        { s with rmc := { s.rmc with lines := s.rmc.lines.filter (fun (e : Nat × CacheLine) => !mine e) } })

/-- The flush ends once no line, fill or check of the cache is left. -/
def execRmcFlushDone (g : Nat) (s : State) : Host.Outcome State Fault Refusal :=
  Next (if 8 ≤ g ∨ !rdB s (rmcBlk g + 4) 0 ∨ s.rmc.lines.any (fun (e : Nat × CacheLine) => e.1 / 262144 = g)
      ∨ s.rmc.fills.any (fun f => f.grove = g) ∨ s.rmc.checks.any (fun c => c.grove = g) then s
    else wrB s (rmcBlk g + 4) 0 false)

/-- A block reset of a grove's remote cache and home directory, while RST_BLOCK bit 6 reads 1 (R575). -/
def execRmcBlockReset (g : Nat) (s : State) : Host.Outcome State Fault Refusal :=
  Next (if 8 ≤ g ∨ !rdB s (clkBlk (8 + g) + 0x108) 6 then s
    else
      let s1 := homeLost g (dirEmpty g (cacheLost g (ownCacheDrop g s)))
      wrB (dropRegs s1 (rmcBlk g + 0x10) (rmcBlk g + 0x40)) (rmcBlk g + 4) 0 false)

end Sys2Proof.Machine
end

