-- ==== Sys2Proof/Machine/Flags.lean ====
section
/-!
DEFINITION. How tile arithmetic brings an exact result into its destination and when it sets OVF (08 R254, R255;
09 R282).
-/
namespace Sys2Proof.Machine

/-- fit n: the exact result clamped to `n` signed bits with SAT = 1, its low `n` bits with SAT = 0. -/
def fitN (n : Nat) (sat : Bool) (x : Int) : Nat := uint n (if sat then clampS n x else x)

/-- OVF: the exact result lies outside the range of `n` signed bits. -/
def ovfN (n : Nat) (x : Int) : Bool :=
  decide (x < -(2 ^ (n - 1) : Nat)) || decide ((2 ^ (n - 1) : Nat) ≤ x)

/-- An arithmetic right shift rounds toward minus infinity (R255). -/
def sraI (x : Int) (sh : Nat) : Int := x / (2 ^ sh : Nat)

end Sys2Proof.Machine
end

