-- ==== Sys2Proof/Machine/Operands.lean ====
section
/-!
DEFINITION. Words of tile instructions: the formats, the words that are listed, and the operand forms of addresses,
branches and vectors (08 R241, R246; 09 R279-R281, R287, R294, R301).
-/
namespace Sys2Proof.Machine

/-! ### Formats (09 R279, R281) -/

/-- A class-C word: PAIR, OP and the operand bits. -/
def wordC (pair : Bool) (op x : Nat) : Nat := b2n pair * 2 ^ 31 + op * 2 ^ 24 + x
/-- A class-M word. -/
def wordM (op x : Nat) : Nat := 2 ^ 30 + op * 2 ^ 24 + x

/-- What a format gives for operands out of their fields: no word of program memory is as large. -/
def noWord : Nat := 2 ^ 33
/-- The operand bits where every operand lies in its field: pairs of value and bound. -/
def fields (l : List (Nat × Nat)) (x : Nat) : Nat := if l.all (fun p => p.1 < p.2) then x else noWord

def fmtCR (d a b : Nat) : Nat := fields [(d, 16), (a, 16), (b, 16)] (d * 2 ^ 20 + a * 2 ^ 16 + b * 2 ^ 12)
def fmtCI (d a imm : Nat) : Nat := fields [(d, 16), (a, 16), (imm, 65536)] (d * 2 ^ 20 + a * 2 ^ 16 + imm)
def fmtCV (d a b x : Nat) : Nat := fields [(d, 16), (a, 16), (b, 16), (x, 16)] (d * 2 ^ 20 + a * 2 ^ 16 + b * 2 ^ 12 + x)
def fmtCM (k x w lane : Nat) : Nat :=
  fields [(k, 4), (x, 16), (w, 16), (lane, 16)] (k * 2 ^ 22 + x * 2 ^ 18 + w * 2 ^ 14 + lane * 2 ^ 10)
def fmtCN (d k sh a : Nat) : Nat :=
  fields [(d, 16), (k, 4), (sh, 32), (a, 16)] (d * 2 ^ 20 + k * 2 ^ 18 + sh * 2 ^ 13 + a)
def fmtML (t n am imm : Nat) : Nat :=
  fields [(t, 16), (n, 8), (am, 3), (imm, 32768)] (t * 2 ^ 20 + n * 2 ^ 17 + am * 2 ^ 15 + imm)
def fmtMA (kind n imm : Nat) : Nat := fields [(kind, 3), (n, 8), (imm, 65536)] (kind * 2 ^ 22 + n * 2 ^ 19 + imm)
def fmtMB (cond a b target : Nat) : Nat :=
  fields [(cond, 9), (a, 16), (b, 16), (target, 4096)] (cond * 2 ^ 20 + a * 2 ^ 16 + b * 2 ^ 12 + target)

/-! ### Which words are listed (09 R280, R284-R298, R301) -/

/-- Bits [hi:lo] are zero. -/
def zeroF (w hi lo : Nat) : Bool := nfld w hi lo = 0

/-- A class-C word is listed. -/
def legalC (w : Nat) : Bool :=
  let op := nfld w 29 24
  if op = 0 then zeroF w 23 0
  else if op ≤ 0x0D then zeroF w 11 0
  else if 0x10 ≤ op ∧ op ≤ 0x13 then true
  else if 0x14 ≤ op ∧ op ≤ 0x16 then zeroF w 15 5
  else if op = 0x17 ∨ op = 0x18 then zeroF w 19 16
  else if op = 0x1C then zeroF w 23 20 && zeroF w 15 0
  else if op = 0x1D then zeroF w 19 16 && decide (nfld w 15 0 ≤ 1)
  else if op = 0x20 ∨ op = 0x21 ∨ (0x24 ≤ op ∧ op ≤ 0x26) then zeroF w 11 0
  else if op = 0x22 ∨ op = 0x23 ∨ op = 0x28 ∨ op = 0x29 then zeroF w 15 0
  else if op = 0x27 then zeroF w 15 3
  else if op = 0x2A ∨ op = 0x2B then zeroF w 15 4
  else if 0x30 ≤ op ∧ op ≤ 0x33 then zeroF w 9 0
  else if op = 0x34 ∨ op = 0x35 then zeroF w 13 0
  else if op = 0x38 then zeroF w 12 0
  else if op = 0x39 then zeroF w 17 4
  else false

/-- A class-M word is listed; PAIR set on one is not (08 R247). -/
def legalM (w : Nat) : Bool :=
  let op := nfld w 29 24
  !w.testBit 31 &&
  (if 1 ≤ op ∧ op ≤ 4 then nfld w 16 15 ≠ 3 && (nfld w 16 15 ≠ 2 || zeroF w 14 4)
   else if op = 0x08 ∨ op = 0x0B then nfld w 23 22 ≠ 3 && zeroF w 18 4
   else if op = 0x09 then nfld w 23 22 ≠ 3 && zeroF w 18 16
   else if op = 0x0A then zeroF w 23 22 && zeroF w 18 16
   else if op = 0x10 then
     (if nfld w 23 20 = 0 then zeroF w 19 12 else if nfld w 23 20 ≤ 6 then true
      else nfld w 23 20 ≤ 8 && zeroF w 15 12)
   else if op = 0x11 ∨ op = 0x13 then zeroF w 23 20 && zeroF w 15 12
   else if op = 0x12 then zeroF w 23 20 && zeroF w 15 0
   else if op = 0x18 then zeroF w 23 16
   else if op = 0x19 then zeroF w 23 4
   else if op = 0x1A then zeroF w 23 3 && decide (1 ≤ nfld w 2 0) && decide (nfld w 2 0 ≤ 4)
   else if op = 0x20 then zeroF w 23 1
   else if op = 0x21 then zeroF w 23 8
   else if op = 0x22 then (if w.testBit 23 then zeroF w 22 4 else zeroF w 22 20)
   else if op = 0x23 ∨ op = 0x24 then zeroF w 23 0
   else false)

/-- The word is of class M (bit 30). -/
def classM (w : Nat) : Bool := w.testBit 30
/-- The word is listed in the opcode map. -/
def legalWord (w : Nat) : Bool := if classM w then legalM w else legalC w

/-! ### Addresses (08 R246; 09 R286, R287) -/

/-- The step of an address register: a + inc, or round the buffer at `b` of `l` bytes when l ≠ 0. -/
def stepAddr (a b l : Nat) (inc : Int) : Nat :=
  if l = 0 then uint 32 ((a : Int) + inc) else (b + (((a : Int) - (b : Int) + inc) % (l : Int)).toNat) % 2 ^ 32

/-! ### Branch conditions (09 R294) -/

/-- The condition COND of two scalars holds. -/
def condHolds (cond x y : Nat) : Bool :=
  match cond with
  | 0 => true
  | 1 => x = y
  | 2 => x ≠ y
  | 3 => sint 32 x < sint 32 y
  | 4 => sint 32 y ≤ sint 32 x
  | 5 => x < y
  | 6 => y ≤ x
  | 7 => x = 0
  | 8 => x ≠ 0
  | _ => false

/-! ### Vectors and accumulators (08 R241) -/

/-- Byte `k` of a vector as a signed number: I of lane k/2 for even `k`, Q for odd. -/
def vByte (v k : Nat) : Int := sint 8 (v / 2 ^ (8 * k))
/-- Component `k` of an accumulator: I of lane k/2 for even `k`, Q for odd. -/
def accComp (v k : Nat) : Int := sint 32 (v / 2 ^ (32 * k))
/-- Numbers of `bits` bits put side by side, the first lowest. -/
def packN (bits : Nat) : List Nat → Nat
  | [] => 0
  | a :: r => a % 2 ^ bits + 2 ^ bits * packN bits r

end Sys2Proof.Machine
end

