-- ==== Sys2Proof/Machine/XltOps.lean ====
section
/-!
DEFINITION. Address translation as operations: the TLB, table walks, the fault log and the failures of a translation
(11 R350-R355, R359, R360).
-/
namespace Sys2Proof.Machine

def xltBlk (g : Nat) : Nat := groveWin g + 0xA0000
def porterAt (s : State) (id : Nat) : Porter := sget {} s.porters id
def setPorter (id : Nat) (x : Porter) (s : State) : State := { s with porters := sset {} s.porters id x }
def tileAt (s : State) (t : Nat) : Tile := sget {} s.tiles t
def setTile (t : Nat) (x : Tile) (s : State) : State := { s with tiles := sset {} s.tiles t x }
/-- Station of a tile's group (06 R172). -/
def tileStation (t : Nat) : Nat := (8 + t / 512) * 256 + 0x30 + t % 512 / 16

/-- XCAUSE of R352. -/
def xNoAsid : Nat := 1
def xNotMapped : Nat := 2
def xReadOnly : Nat := 3
def xRange : Nat := 4

/-- What a translation request comes to. -/
inductive XRes where
  | ok (addr : Nat)
  | fault (cause : Nat)
  /-- A walk has begun or the unit is gated. -/
  | wait

/-- The TLB entry that maps an address (R353). -/
def tlbFind (s : State) (g asid va : Nat) : Option TlbEntry :=
  (sget [] s.xlt.tlb g).find? (fun e => e.asid = asid && e.page = va / 2 ^ e.k * 2 ^ e.k)
def setTlb (g : Nat) (l : List TlbEntry) (s : State) : State := { s with xlt := { s.xlt with tlb := sset [] s.xlt.tlb g l } }
/-- Set of an entry. -/
def TlbEntry.set (e : TlbEntry) : Nat := e.page / 2 ^ e.k % 1024
/-- An entry made the most recently used of its set, whose least recently used one leaves when it is full. -/
def tlbPut (g : Nat) (e : TlbEntry) (s : State) : State :=
  let l := (sget [] s.xlt.tlb g).filter (fun x => !(x.asid = e.asid && x.page = e.page && x.k = e.k))
  let mine := l.filter (fun x => x.set = e.set)
  let l' := if 4 ≤ mine.length then (match mine.getLast? with
    | some o => l.erase o
    | none => l) else l
  setTlb g (e :: l') s

/-- Root register of an ASID: table address, none while VALID = 0. -/
def rootOf (s : State) (g asid : Nat) : Option Nat :=
  let lo := rd s (xltBlk g + 0x1000 + 8 * asid)
  if bit lo 0 then some (fld lo 31 12 * 4096 + rdF s (xltBlk g + 0x1004 + 8 * asid) 15 0 * 2 ^ 32) else none

/-- The read of a walk, as station 0x00 of its grove (R353). -/
def sendWalk (w : Walk) (addr : Nat) (s : State) : State :=
  sendReq { op := 1, vc := 2, dst := 0, src := (8 + w.grove) * 256, tag := w.id % 2 ^ 16, addr := addr % 2 ^ 48, len := 8 } s

/-- Address of a walk's level-1 entry. -/
def walkRoot (s : State) (w : Walk) : Nat := (rootOf s w.grove w.asid).getD 0 + 8 * nfld w.va 38 30

/-- Walks that wait sent while fewer than 16 are in flight (R353, R357). -/
def pumpWalks (g : Nat) (s : State) : State :=
  let flight := (s.xlt.walks.filter (fun w => w.grove = g && w.sent)).length
  match s.xlt.walks.find? (fun w => w.grove = g && !w.sent) with
  | some w =>
    if flight < 16 then
      sendWalk w (walkRoot s w) { s with xlt := { s.xlt with walks := s.xlt.walks.map (fun x =>
        if x.id = w.id then { x with sent := true } else x) } }
    else s
  | none => s

/-- A translation failure logged, counted and reported (R355, R359, R360). `who` is the requester's station, `tile`
its tile ID or zero. -/
def logFault (g asid va cause : Nat) (write : Bool) (who tile : Nat) (s : State) : State :=
  let b := xltBlk g
  let p := rdF s (b + 0xC) 15 0
  let e := b + 0x100 + 16 * (p % 16)
  let s1 := wr (wr (wr (wr s e (lo32 va)) (e + 4)
    (word (nfld va 38 32 + asid * 2 ^ 8 + cause * 2 ^ 16 + b2n write * 2 ^ 20))) (e + 8) (word (who + tile * 2 ^ 16))) (e + 12) 0
  let s2 := cnt (wrF s1 (b + 0xC) 15 0 (p + 1)) (b + 0x18)
  let n := sget 0 s2.xlt.faultSince g + 1
  let soon : Bool := match sget none s2.xlt.faultLast g with
    | some t => decide (s2.tu.tick < t + tickMs)
    | none => false
  if soon ∨ !generated s2 0x08A1 1 then { s2 with xlt := { s2.xlt with faultSince := sset 0 s2.xlt.faultSince g n } }
  else
    let s3 := raise 0x08A1 1 ((8 + g) * 256) [word g, word n, rd s2 (b + 0xC)] s2
    { s3 with xlt := { s3.xlt with faultSince := sset 0 s3.xlt.faultSince g 0, faultLast := sset none s3.xlt.faultLast g (some s3.tu.tick) } }

/-- Station and tile ID of a requester (R359). -/
def XUser.station : XUser → Nat
  | .tile t => tileStation t
  | .porter p _ => p
def XUser.tileId : XUser → Nat
  | .tile t => t
  | .porter _ _ => 0

/-- A virtual address translated under an ASID, causes in the order of R352; a miss begins a walk. -/
def translate (g asid va : Nat) (write : Bool) (user : XUser) (s : State) : XRes × State :=
  let b := xltBlk g
  if gated s (8 + g) 2 ∨ rdB s (clkBlk (8 + g) + 0x108) 2 then (.wait, s)
  else if 2 ^ 39 ≤ va then (.fault xRange, logFault g asid va xRange write user.station user.tileId s)
  else match tlbFind s g asid va with
    | some e =>
      let s1 := cnt (tlbPut g e s) (b + 0x10)
      if write ∧ !e.w then (.fault xReadOnly, logFault g asid va xReadOnly write user.station user.tileId s1)
      else (.ok (e.base + va % 2 ^ e.k), s1)
    | none =>
      if (rootOf s g asid).isNone then (.fault xNoAsid, logFault g asid va xNoAsid write user.station user.tileId s)
      else
        let w : Walk := { id := s.xlt.walkId, grove := g, asid := asid, va := va, write := write, user := user }
        let s1 := cnt { s with xlt := { s.xlt with walks := s.xlt.walks ++ [w], walkId := s.xlt.walkId + 1 } } (b + 0x14)
        (.wait, pumpWalks g s1)

/-! ### Table entries (R350, R351) -/

/-- What a table entry of a level says. -/
inductive TableEntry where
  | invalid
  | page (k base : Nat) (w : Bool)
  | table (k base : Nat)
  deriving DecidableEq

/-- A level-1 entry. An entry with a nonzero zero-field, or KIND 00, counts as V = 0 (R352). -/
def level1 (e : Nat) : TableEntry :=
  if !e.testBit 0 ∨ nfld e 11 4 ≠ 0 ∨ nfld e 63 48 ≠ 0 then .invalid
  else match nfld e 3 2 with
    | 1 => if nfld e 29 12 = 0 then .page 30 (nfld e 47 12 * 4096) (e.testBit 1) else .invalid
    | 2 => if e.testBit 1 then .invalid else .table 21 (nfld e 47 12 * 4096)
    | 3 => if e.testBit 1 ∨ nfld e 20 12 ≠ 0 then .invalid else .table 12 (nfld e 47 12 * 4096)
    | _ => .invalid
/-- A level-2 entry of a page of 2^k bytes. -/
def level2 (k e : Nat) : TableEntry :=
  if !e.testBit 0 ∨ nfld e 11 2 ≠ 0 ∨ nfld e 63 48 ≠ 0 ∨ (k = 21 ∧ nfld e 20 12 ≠ 0) then .invalid
  else .page k (nfld e 47 12 * 4096) (e.testBit 1)
/-- Address of the level-2 entry of a walk. -/
def level2At (k base va : Nat) : Nat := base + 8 * (va % 2 ^ 30 / 2 ^ k)

end Sys2Proof.Machine
end

