-- ==== Sys2Proof/Machine/TileOps.lean ====
section
/-!
DEFINITION. Signal tiles as operations: registers and results, the issue of a unit, faults and aborts, the end of an
item, stops, the commit buffer, provisional data (08 R240-R277).
-/
namespace Sys2Proof.Machine

/-! ### Places -/

def tilBlk (t : Nat) : Nat := groveWin (t / 512) + 0x200000 + 0x1000 * (t % 512)
/-- Device address of a tile's data memory; program memory lies 0x10000 above it (01 R32). -/
def tileMem (t : Nat) : Nat := 0x020000000000 + t / 512 * 0x40000000 + t % 512 * 0x20000
/-- Tile and address of a device address in a tile's memories. -/
def tileOf (a : Nat) : Nat := (a - 0x020000000000) / 0x40000000 * 512 + (a - 0x020000000000) % 0x40000000 / 0x20000
/-- Word `i` of program memory; word 0 follows word 4,095 (09 R280). -/
def progWord (s : State) (t i : Nat) : Nat := ofBytes (memGet s (tileMem t + 0x10000 + 4 * (i % 4096)) 4)

/-! ### Descriptor fields (10 R304) -/

def Item.entry (i : Item) : Nat := nfld (wordAt i.desc 4) 11 0
def Item.queue (i : Item) : Nat := nfld (wordAt i.desc 4) 19 12
def Item.asid (i : Item) : Nat := nfld (wordAt i.desc 4) 27 20
def Item.tset (i : Item) : Nat := nfld (wordAt i.desc 4) 31 28
def Item.flow (i : Item) : Nat := nfld (wordAt i.desc 5) 23 0
def Item.flowValid (i : Item) : Bool := (wordAt i.desc 5).testBit 24
def Item.specOk (i : Item) : Bool := (wordAt i.desc 5).testBit 25
def Item.timed (i : Item) : Bool := (wordAt i.desc 5).testBit 26
def Item.dlist (i : Item) : Nat := nfld (wordAt i.desc 5) 29 27
def Item.preemptible (i : Item) : Bool := (wordAt i.desc 5).testBit 30
def Item.wdog (i : Item) : Nat := nfld (wordAt i.desc 6) 19 0
def Item.releaseTime (i : Item) : Nat := nfld (wordAt i.desc 6) 27 20 * 2 ^ 32 + wordAt i.desc 7

/-! ### Registers and results (R240, R249, R250; 09 R282, R283) -/

def TRegs.get (x : TRegs) (r : Nat) : Nat := sget 0 x.vals r
def TRegs.tnt (x : TRegs) (r : Nat) : Bool := sget false x.taints r
def TRegs.put (x : TRegs) (r v : Nat) (t : Bool) : TRegs :=
  { vals := sset 0 x.vals r v, taints := sset false x.taints r t }

/-- Register numbers. -/
def rS (n : Nat) : Nat := n
def rA (n : Nat) : Nat := 16 + n
def rB (n : Nat) : Nat := 24 + n
def rL (n : Nat) : Nat := 32 + n
def rV (n : Nat) : Nat := 40 + n
def rAcc (k : Nat) : Nat := 56 + k
def rSt : Nat := 60

def Tile.get (x : Tile) (r : Nat) : Nat := x.regs.get r
def Tile.tnt (x : Tile) (r : Nat) : Bool := x.regs.tnt r
/-- SAT as the unit issued sees it. -/
def Tile.sat (x : Tile) : Bool := (x.get rSt).testBit 0
/-- ST, every field. -/
def Tile.st (x : Tile) : Nat :=
  x.get rSt % 4 + b2n x.ctaint * 4 + b2n x.spec * 8 + b2n x.restarted * 16 + b2n x.stBroken * 32

/-- A result that becomes visible after `delay` delay cycles. -/
def Tile.put (x : Tile) (reg val : Nat) (taint : Bool) (delay : Nat) : Tile :=
  { x with results := x.results ++ [{ reg := reg, val := val, taint := taint, due := x.cyc + 1 + delay }] }
/-- OVF set in the cycle the result becomes visible. -/
def Tile.putOvf (x : Tile) (ovf taint : Bool) (delay : Nat) : Tile :=
  if ovf then { x with results := x.results ++ [{ reg := rSt, val := 0, taint := taint, due := x.cyc + 1 + delay, ovf := true }] } else x

/-- One result in its register. -/
def applyResult (r : TRegs) (x : Result) : TRegs :=
  if x.ovf then r.put rSt (r.get rSt ||| 2) (r.tnt rSt || x.taint) else r.put x.reg x.val x.taint
/-- The results of one cycle: registers first, in issue order, then OVF. -/
def commitCycle (c : Nat) (l : List Result) (r : TRegs) : TRegs :=
  let due := l.filter (fun x => x.due ≤ c)
  (due.filter (·.ovf)).foldl applyResult ((due.filter (fun x => !x.ovf)).foldl applyResult r)
/-- Every result visible, in the order of its cycle (R259). -/
def Tile.settle (x : Tile) : Tile :=
  let r := (upto 4).foldl (fun r i =>
    commitCycle (x.cyc + 1 + i) (x.results.filter (fun y => y.due = x.cyc + 1 + i)) r) x.regs
  { x with regs := r, old := r, older := r, results := [] }

/-- The value that a CMAC into the same accumulator sees: the latest in flight (R249). -/
def Tile.accNow (x : Tile) (k : Nat) : Nat × Bool :=
  match (x.results.filter (fun y => y.reg = rAcc k && !y.ovf)).getLast? with
  | some y => (y.val, y.taint)
  | none => (x.get (rAcc k), x.tnt (rAcc k))

/-! ### Cycles (R273, R275; 10 R322) -/

/-- DSP_CLS_CYC of an energy class raised. -/
def classCycles (g c n : Nat) (s : State) : State :=
  let a := dspBlk g + 0x80 + 8 * c
  let v := ((rd s a).toNat + (rd s (a + 4)).toNat * 2 ^ 32 + n) % 2 ^ 64
  wr (wr s a (lo32 v)) (a + 4) (hi32 v)

/-- The watchdog counts: in RUN, WAIT and EXITING, and in HALTED with FREEZE = 0. -/
def wdogCounts (s : State) (t : Nat) (x : Tile) : Bool :=
  [0x71, 0x72, 0x73].contains x.state || (x.state = 0x75 && !rdB s (tilBlk t + 0xC) 31)

/-- `n` CK_TILE cycles pass for a tile in its state. -/
def passCycles (t n : Nat) (s : State) : State :=
  let x := tileAt s t
  let tmr := if [0x74, 0x76, 0x77].contains x.state then x.tmr else x.tmr - n
  let run : Bool := decide (x.wdLoad ≠ 0) && x.item.isSome && wdogCounts s t x
  let sub := if run then x.wdSub + n else x.wdSub
  let counted := [0x71, 0x72, 0x73, 0x76].contains x.state
  let s1 := setTile t { x with tmr := tmr, wdSub := sub % 1024, wd := x.wd - sub / 1024,
                               item := if counted then x.item.map (fun i => { i with cycles := min (2 ^ 32 - 1) (i.cycles + n) }) else x.item } s
  match x.item with
  | some i => if counted then classCycles (t / 512) i.eclass n s1 else s1
  | none => s1

/-! ### Boundaries and stops (R258) -/

/-- The tile is at an issue boundary at which stops are taken. -/
def Tile.boundary (x : Tile) : Bool :=
  !x.begun && x.slots = 0 && x.rep = 0 && !x.locked && x.stall.isNone
/-- The watchdog has reached zero for the item. -/
def Tile.expired (x : Tile) : Bool := decide (x.wdLoad ≠ 0) && decide (x.wd = 0) && x.item.isSome
/-- The halt request of a tile stands (18 R541). -/
def haltReq (s : State) (t : Nat) : Bool := rdB s (dbgBlk (t / 512) + 0x200 + 4 * (t % 512 / 32)) (t % 32)
def setHaltReq (t : Nat) (v : Bool) (s : State) : State :=
  wrB s (dbgBlk (t / 512) + 0x200 + 4 * (t % 512 / 32)) (t % 32) v
/-- The tile array is gated, or its grove is in DEEP (R277). An attached grove's tiles keep their clock (18 R551). -/
def arrayOff (s : State) (t : Nat) : Bool := gated s (8 + t / 512) 8 || dieState s (8 + t / 512) = 0x32
/-- A pre-emption may be taken (R258). -/
def mayPreempt (x : Tile) : Bool :=
  x.preempt.isSome && x.boundary && x.provPend = 0 && x.cbuf.isEmpty && x.saved.isNone
    && [0x71, 0x72, 0x74].contains x.state
/-- A stop is due, so that the tile issues nothing more. -/
def stopDue (s : State) (t : Nat) : Bool :=
  let x := tileAt s t
  (!x.begun && x.werr.isSome) || (x.boundary && (x.kill || x.expired || (haltReq s t && x.stepping ≠ 1) || arrayOff s t || mayPreempt x))

/-- Blocks of a grove do nothing while its die is stopped or frozen (18 R549, R550). -/
def frozen (s : State) (g blk : Nat) : Bool :=
  rdB s (dbgBlk g + 0x308) blk || s.dbg.stoppedDies.contains (8 + g)
/-- A tile's clock is stopped: its die is, or the array is frozen and the tile HALTED (18 R549). -/
def tileFrozen (s : State) (t : Nat) : Bool :=
  (rdB s (dbgBlk (t / 512) + 0x308) 8 && (tileAt s t).state = 0x75) || s.dbg.stoppedDies.contains (8 + t / 512)

/-- The tile's next word may issue. -/
def mayIssue (s : State) (t : Nat) : Bool :=
  let x := tileAt s t
  decide (t < 4096) && x.state = 0x71 && x.item.isSome && x.stall.isNone && !stopDue s t && !tileFrozen s t

/-! ### Starting and ending a unit (R247-R253, R256) -/

/-- The unit's issue cycle begins: time passes, results become visible, PC is recorded. -/
def beginUnit (t : Nat) (s : State) : State :=
  if (tileAt s t).begun then s
  else
    let s1 := passCycles t 1 s
    let x := tileAt s1 t
    let c := x.cyc + 1
    setTile t { x with cyc := c, older := x.old, old := x.regs, regs := commitCycle c x.results x.regs,
                       results := x.results.filter (fun r => c < r.due), begun := true, paired := false, lastPc := x.pc } s1

/-- Local stores of the lock buffer written together; taint of their units under R264. -/
def storeLocal (t : Nat) (w : TileStore) (s : State) : State :=
  let x := tileAt s t
  let u := w.addr / 32
  let units := if w.taint then sset false x.units u true else if w.data.length = 32 then sset false x.units u false else x.units
  setTile t { x with units := units } (memPut (tileMem t + w.addr) w.data s)

/-- An external store presented to the network interface: WRP under a GUAR entry, else WR (R245). -/
def sendStore (t : Nat) (w : TileStore) (s : State) : State :=
  let x := tileAt s t
  let st := tileStation t
  let guar := (routeOf s st (stationOf s w.addr)).toNat.testBit 30
  let s1 := if guar then s else setTile t { x with wrOut := x.wrOut ++ [(w.addr, w.va)] } s
  sendReq { op := if guar then 3 else 2, vc := 2, dst := 0, src := st, tag := t % 16 + 16 * (x.wrGen % 4096),
            addr := w.addr, len := w.data.length, data := w.data } s1

/-- An external store leaves, or enters the commit buffer behind the ones there (R265). -/
def extStore (t : Nat) (w : TileStore) (s : State) : State :=
  let x := tileAt s t
  if w.taint ∨ !x.cbuf.isEmpty then setTile t { x with cbuf := x.cbuf ++ [w] } s else sendStore t w s

/-- The end of a locked sequence: its local stores together, then its external stores in order (R256). -/
def endLock (t : Nat) (s : State) : State :=
  let x := tileAt s t
  let s1 := setTile t { x with locked := false, lockBuf := [] } s
  let s2 := (x.lockBuf.filter (fun w => !w.ext)).foldl (fun u w => storeLocal t w u) s1
  let s3 := (x.lockBuf.filter (·.ext)).foldl (fun u w => extStore t w u) s2
  if (tileAt s3 t).cbuf.length ≤ 64 then s3 else setTile t { tileAt s3 t with stall := some (.buffer 64) } s3

/-- A word of the unit is done, `last` when it ends the unit: PC, delay slots, repetitions, locked sequence. -/
def endWord (t : Nat) (last : Bool) (s : State) : State :=
  let x := tileAt s t
  let x1 := { x with pc := (x.pc + 1) % 4096, lock := x.lock - 1, xaddr := none }
  if !last then setTile t { x1 with paired := true } s
  else
    let x2 := { x1 with begun := false, paired := false }
    let x3 := if x2.rep = 0 then x2 else { x2 with rep := x2.rep - 1, pc := if x2.rep = 1 then x2.pc else x2.repPc }
    let x4 := if x3.slots = 0 then x3
      else if x3.slots = 1 then { x3 with slots := 0, pc := x3.target.getD x3.pc, target := none } else { x3 with slots := x3.slots - 1 }
    let s1 := setTile t { x4 with stepping := min 2 (2 * x4.stepping) } s
    if x4.locked ∧ x4.lock = 0 then endLock t s1 else s1

/-! ### The end of an item (R261, R270) -/

/-- Taint, counts and buffers of the item cleared; discarded external stores counted (R257, R267, R270). -/
def discardAll (t : Nat) (s : State) : State :=
  let x := tileAt s t
  let n := x.cbuf.length + (x.lockBuf.filter (·.ext)).length
  let clr (r : TRegs) : TRegs := { r with taints := [] }
  let s1 := if n = 0 then s else cntBy s (tilBlk t + 0x30) n
  setTile t { x with cbuf := [], lockBuf := [], locked := false, lock := 0, provPend := 0, ctaint := false, units := [],
                     regs := clr x.regs, old := clr x.old, older := clr x.older,
                     results := x.results.map (fun r => { r with taint := false }),
                     stall := none, xaddr := none, slots := 0, target := none, rep := 0, begun := false, paired := false } s1

/-- A tile is HALTED (18 R541): DBG_TILE_HALTED is raised at most once per millisecond per grove. -/
def tileHalted (t : Nat) (s : State) : State :=
  let g := t / 512
  let s1 := setHaltReq t false s
  let n := sget 0 s1.dbg.haltsSince g + 1
  let soon : Bool := match sget none s1.dbg.haltLast g with
    | some k => decide (s1.tu.tick < k + tickMs)
    | none => false
  if soon ∨ !generated s1 0x0A02 0 then { s1 with dbg := { s1.dbg with haltsSince := sset 0 s1.dbg.haltsSince g n } }
  else
    let s2 := raise 0x0A02 0 (tileStation t) [word t, word n] s1
    { s2 with dbg := { s2.dbg with haltsSince := sset 0 s2.dbg.haltsSince g 0, haltLast := sset none s2.dbg.haltLast g (some s2.tu.tick) } }

/-- The item leaves the tile, which restores its slot or goes IDLE; a halted or stepping tile stays HALTED (18 R544,
R545). -/
def leaveItem (t : Nat) (s : State) : State :=
  let x := tileAt s t
  let x1 := { x with item := none, kill := false, werr := none, wd := 0, wdLoad := 0, wrOut := [], wrGen := x.wrGen + 1,
                     rdGen := x.rdGen + 1, units := [], provPend := 0 }
  if x.state = 0x75 then setTile t { x1 with halted := 0x70 } s
  else if x.stepping ≠ 0 then tileHalted t (setTile t { x1 with state := 0x75, halted := 0x70, stepping := 0 } s)
  else if x.saved.isSome then setTile t { x1 with state := 0x76, restoring := true } s
  else setTile t { x1 with state := 0x70 } s

/-- The item reported to the dispatcher with its cause or EXIT code; the tile goes on (R261, R270). -/
def endItem (t cause code : Nat) (s : State) : State :=
  let s1 := match (tileAt s t).item with
    | some i => { s with dsp := { s.dsp with reports := s.dsp.reports ++ [{ tile := t, item := i, cause := cause, code := code }] } }
    | none => s
  leaveItem t s1

/-- TIL_FAULT and TIL_FAULT_VA loaded, TIL_FAULTS counted. -/
def recordFault (t cause pc va : Nat) (store : Bool) (s : State) : State :=
  let w := cause * 2 ^ 16 + b2n (cause = 1) * 2 ^ 15 + b2n (cause = 0xB) * 2 ^ 14 + b2n store * 2 ^ 13 + pc % 4096
  cnt (wr (wr s (tilBlk t + 0x14) (word w)) (tilBlk t + 0x18) (word va)) (tilBlk t + 0x2C)

/-- An abort (R270). A precise fault inside a locked sequence aborts it: LOCK_BROKEN, and the PC of the LOCK (R257,
R269). -/
def abortItem (t cause va : Nat) (store precise : Bool) (s : State) : State :=
  let x := (tileAt s t).settle
  let inLock := precise && x.locked
  let pc := if inLock then x.lockPc else x.pc
  let s1 := setTile t { x with pc := pc, lastPc := pc, broken := x.broken || inLock, stBroken := x.stBroken || inLock } s
  endItem t cause 0 (discardAll t (recordFault t cause pc va store s1))

/-- A TRANSLATION fault: the tile is FAULTED with its state live (R271). -/
def translationFault (t va : Nat) (store : Bool) (s : State) : State :=
  let x := (tileAt s t).settle
  let pc := if x.locked then x.lockPc else x.pc
  let n := (x.lockBuf.filter (·.ext)).length
  let s1 := if n = 0 then s else cntBy s (tilBlk t + 0x30) n
  recordFault t 1 pc va store (setTile t { x with
    state := 0x74, stepping := 0, pc := pc, lastPc := pc, broken := x.broken || x.locked, stBroken := x.stBroken || x.locked, locked := false,
    lock := 0, lockBuf := [], begun := false, paired := false, stall := none, xaddr := none } s1)

def fIllegal : Nat := 2
def fAlign : Nat := 3
def fBadAddr : Nat := 4
def fPoison : Nat := 5
def fAbsent : Nat := 6
def fNoRoute : Nat := 7
def fRepLimit : Nat := 8
def fWatchdog : Nat := 9
def fKilled : Nat := 10
def fWriteErr : Nat := 11

/-! ### Issue of words (R247, R252, R253, R256; 09 R279, R280) -/

/-- A class-C word at PC issues: `f` gives its results. A class-C word with PAIR must be followed by a class-M word,
and a locked sequence must not end between them (R247, R256). -/
def issueC (t : Nat) (pair : Bool) (w : Nat) (f : Tile → Tile) (s : State) : State :=
  if !mayIssue s t ∨ (tileAt s t).paired ∨ progWord s t (tileAt s t).pc ≠ w then s
  else
    let s1 := beginUnit t s
    let x := tileAt s1 t
    if pair ∧ (x.pc = 4095 ∨ !classM (progWord s1 t (x.pc + 1)) ∨ (x.locked ∧ x.lock = 1)) then
      abortItem t fIllegal 0 false true s1
    else endWord t (!pair) (setTile t (f x) s1)

/-- Where a class-M word may not stand. -/
inductive Placing where
  | free
  /-- Not in a REP (KICK). -/
  | noRep
  /-- Not in a delay slot, a REP or a locked sequence (branches). -/
  | branch
  /-- As a branch, nor in a pair (REP, LOCK, WAIT, EXIT). -/
  | alone
  deriving DecidableEq

/-- The placement is forbidden. -/
def misplaced (x : Tile) : Placing → Bool
  | .free => false
  | .noRep => x.rep ≠ 0
  | .branch => x.slots ≠ 0 || x.rep ≠ 0 || x.locked
  | .alone => x.slots ≠ 0 || x.rep ≠ 0 || x.locked || x.paired

/-- A class-M word at PC issues: `f` acts on the state in its issue cycle. -/
def issueM (t w : Nat) (p : Placing) (f : State → State) (s : State) : State :=
  if !mayIssue s t ∨ progWord s t (tileAt s t).pc ≠ w then s
  else
    let s1 := beginUnit t s
    if misplaced (tileAt s1 t) p then abortItem t fIllegal 0 false true s1 else f s1

/-- The tile changed and the unit ended. -/
def endM (t : Nat) (f : Tile → Tile) (s : State) : State := endWord t true (setTile t (f (tileAt s t)) s)

/-- A tile's stall ends: every result in flight is visible by then, the results of the stalled unit in the next
cycle (R251). -/
def Tile.unstall (x : Tile) : Tile := { x.settle with stall := none }

/-! ### Items (R260, R267) -/

/-- Registers and status as an item enters (R260). -/
def enterItem (t : Nat) (i : Item) (again : Bool) (s : State) : State :=
  let x := tileAt s t
  let regs0 : TRegs := {}
  let flow := if i.flowValid then i.flow else 0xFFFFFFFF
  let r := ([(0, wordAt i.desc 0), (1, wordAt i.desc 1), (2, wordAt i.desc 2), (3, wordAt i.desc 3), (4, flow),
             (5, i.release), (6, t)] : List (Nat × Nat)).foldl (fun (r : TRegs) p => r.put p.1 p.2 false) regs0
  setTile t { x with state := if x.state = 0x75 then 0x75 else 0x71, halted := 0x71, item := some i, regs := r, old := r, older := r,
                     results := [], pc := i.entry, lastPc := i.entry, tmr := 0, ctaint := false, spec := i.specOk,
                     restarted := again, stBroken := false, stall := none, slots := 0, target := none, rep := 0, lock := 0,
                     locked := false, lockBuf := [], begun := false, paired := false, xaddr := none } s

/-- A new item enters: its watchdog is loaded under R275. -/
def startItem (t : Nat) (i : Item) (s : State) : State :=
  let x := tileAt s t
  let wd := if i.wdog ≠ 0 then i.wdog else rdF s (tilBlk t + 0x10) 19 0
  enterItem t i false (setTile t { x with wd := wd, wdLoad := wd, wdSub := 0, wrOut := [], wrGen := x.wrGen + 1,
                                          rdGen := x.rdGen + 1, werr := none, incoming := none, preempt := none,
                                          provPend := 0, units := [] } s)

/-- A restart (R267). -/
def restartItem (t : Nat) (s : State) : State :=
  match (tileAt s t).item with
  | none => s
  | some i =>
    let s1 := cnt (discardAll t s) (tilBlk t + 0x24)
    let x := tileAt s1 t
    let s2 := { setTile t { x with rdGen := x.rdGen + 1 } s1 with dsp := { s1.dsp with restarts := s1.dsp.restarts ++ [t] } }
    enterItem t i true s2

/-- The last provisional read is confirmed: every taint clears in one cycle (R266). -/
def clearTaint (t : Nat) (s : State) : State :=
  let x := tileAt s t
  let clr (r : TRegs) : TRegs := { r with taints := [] }
  setTile t { x with regs := clr x.regs, old := clr x.old, older := clr x.older, ctaint := false, units := [],
                     results := x.results.map (fun r => { r with taint := false }),
                     cbuf := x.cbuf.map (fun w => { w with taint := false }),
                     lockBuf := x.lockBuf.map (fun w => { w with taint := false }),
                     stall := if x.stall = some .addrTaint then none else x.stall } s

/-- A FENCE's conditions hold (09 R298). -/
def Tile.drained (x : Tile) : Bool := x.cbuf.isEmpty && x.wrOut.isEmpty
/-- A stall for room in the commit buffer ends when there is room, one in a FENCE when its conditions hold. -/
def endStalls (t : Nat) (s : State) : State :=
  let x := tileAt s t
  match x.stall with
  | some .fence => if x.drained then endWord t true (setTile t x.unstall s) else s
  | some (.buffer n) => if x.cbuf.length ≤ n then setTile t { x with stall := none } s else s
  | _ => s

/-! ### The grove (R277) -/

/-- Tiles that have gone OFF continue from where they stopped. -/
def tilesBack (g : Nat) (s : State) : State :=
  { s with tiles := smapAll {} s.tiles (fun t x => if t / 512 = g ∧ x.state = 0x77 then { x with state := x.before } else x) }
/-- A die reset of the grove clears tiles and memories; nothing is reported for lost items. -/
def tilesReset (g : Nat) (s : State) : State :=
  let base := 0x020000000000 + g * 0x40000000
  let s1 := dropRegs s (groveWin g + 0x200000) (groveWin g + 0x400000)
  { s1 with tiles := sdrop s1.tiles (fun t => t / 512 = g),
            mem := sdrop s1.mem (fun a => decide (base ≤ a ∧ a < base + 0x4000000)),
            dsp := { s1.dsp with reports := s1.dsp.reports.filter (fun r => r.tile / 512 ≠ g),
                                 restarts := s1.dsp.restarts.filter (fun t => t / 512 ≠ g) } }

end Sys2Proof.Machine
end

