-- ==== Sys2Proof/Machine/DspOps.lean ====
section
/-!
DEFINITION. The dispatchers as operations: ready slots, posts, flows and their contexts, the choice of tile, starts,
records (10 R302-R330).
-/
namespace Sys2Proof.Machine

def dspStation (g : Nat) : Nat := (8 + g) * 256 + 4
/-- The dispatcher does nothing while it is gated or frozen, or its grove is in DEEP (R329). -/
def dspOff (s : State) (g : Nat) : Bool :=
  decide (8 ≤ g) || gated s (8 + g) 0 || frozen s g 0 || !(dieState s (8 + g) = 0x30 || dieState s (8 + g) = 0x31 || dieState s (8 + g) = 0x34)

/-- Counters of R331: 0 posted, 1 refused, 2 started, 3 failed, 4 late, 5 restarts, 6 pre-emptions, 7 flow misses,
8 poisoned contexts, 9 backlog entries. -/
def dspCnt (g i : Nat) (s : State) : State := cnt s (dspBlk g + 0x40 + 4 * i)

/-! ### Queues (R307, R309) -/

def qCfg (g q : Nat) : Nat := dspBlk g + 0x1000 + 0x10 * q
def qEn (s : State) (g q : Nat) : Bool := rdB s (qCfg g q) 31
def qPreempts (s : State) (g q : Nat) : Bool := rdB s (qCfg g q) 30
def qClass (s : State) (g q : Nat) : Nat := rdF s (qCfg g q) 22 20
/-- Priority: P0 for an E0 queue. -/
def qPrio (s : State) (g q : Nat) : Nat := if qClass s g q = 0 then 0 else rdF s (qCfg g q) 26 24
def qMax (s : State) (g q : Nat) : Nat := rdF s (qCfg g q) 16 0
def qMin (s : State) (g q : Nat) : Nat := rdF s (qCfg g q + 4) 16 0
def qCount (s : State) (g q : Nat) : Nat := rdF s (qCfg g q + 8) 16 0
/-- No slot is free outside the reservations (R307). -/
def poolFull (s : State) (g : Nat) : Bool :=
  decide (65536 ≤ (upto 256).foldl (fun n q => n + max (qCount s g q) (qMin s g q)) 0)

/-! ### Ready slots (R305, R307) -/

def heldAt (s : State) (g n : Nat) : Option Held := sget none s.dsp.slots (g * 65536 + n)
def setHeld (g n : Nat) (h : Option Held) (s : State) : State :=
  { s with dsp := { s.dsp with slots := sset none s.dsp.slots (g * 65536 + n) h } }
/-- The items a grove holds, with their slots. -/
def heldItems (s : State) (g : Nat) : List (Nat × Held) :=
  s.dsp.slots.filterMap (fun (e : Nat × Option Held) => if e.1 / 65536 = g then e.2.map (fun h => (e.1 % 65536, h)) else none)
/-- The lowest free ready slot. -/
def freeReady (s : State) (g : Nat) : Nat :=
  let l := (heldItems s g).map (·.1)
  ((upto (l.length + 1)).find? (fun n => !l.contains n)).getD 0
def nextSeqD (s : State) : State := { s with dsp := { s.dsp with seq := s.dsp.seq + 1 } }

/-- A slot's item in a stage, at the end of its order. -/
def toStage (g n : Nat) (st : Stage) (s : State) : State :=
  match heldAt s g n with
  | some h => nextSeqD (setHeld g n (some { h with stage := st, order := s.dsp.seq }) s)
  | none => s

/-- Entries of delay list `k` of a grove. -/
def listCount (s : State) (g k : Nat) : Nat :=
  ((heldItems s g).filter (fun p => p.2.stage = .delay && p.2.item.dlist = k)).length
def dlCfg (g k : Nat) : Nat := dspBlk g + 0x100 + 8 * k
/-- DSP_DL_STAT shows the entries. -/
def showList (g k : Nat) (s : State) : State := wrF s (dlCfg g k + 4) 14 0 (listCount s g k)
def dlEn (s : State) (g k : Nat) : Bool := rdB s (dlCfg g k) 31
/-- The list's time base as the grove's replica counts it. -/
def dlCore (s : State) (g k : Nat) : TbCore := replicaTb s (8 + g) (rdF s (dlCfg g k) 26 24)

/-- A ready slot released (R326). -/
def freeSlotD (g n : Nat) (s : State) : State :=
  match heldAt s g n with
  | none => s
  | some h =>
    let q := qCfg g h.item.queue + 8
    let s1 := setHeld g n none s
    let s2 := wrF (wrF s1 q 16 0 (rdF s1 q 16 0 - 1)) (dspBlk g + 0x20) 16 0 (rdF s1 (dspBlk g + 0x20) 16 0 + 1)
    if h.stage = .delay then showList g h.item.dlist s2 else s2

/-! ### Completion records (R326) -/

/-- A completion record of an item, written when its queue's ring is enabled. -/
def writeRecordD (g : Nat) (i : Item) (cause code : Nat) (tile : Nat) (s : State) : State :=
  let c := dspBlk g + 0x2000 + 0x10 * i.queue
  if !rdB s (c + 4) 31 then s
  else
    let p := (rd s (c + 8)).toNat
    let a := rdF s c 31 4 * 16 + rdF s (c + 4) 15 0 * 2 ^ 32 + 16 * (p % 2 ^ rdF s (c + 4) 20 16)
    let w : List Word :=
      [ word (i.slot + i.gen * 2 ^ 16 + (if cause = 0 then code else 0) * 2 ^ 24),
        word (cause + b2n i.late * 2 ^ 4 + b2n i.limit * 2 ^ 5 + min 255 i.restarts * 2 ^ 8 + tile * 2 ^ 16),
        word (i.flow + b2n i.flowValid * 2 ^ 24), word i.cycles ]
    wr (postWrite (dspStation g) a (wordsToBytes w) s) (c + 8) (rd s (c + 8) + 1)

/-! ### Flow contexts (R315-R318) -/

def ctxKey (g flow : Nat) : Nat := g * 2 ^ 21 + flow % 2 ^ 21
def ctxOf (s : State) (k : Nat) : Option (List Word) := (s.dsp.ctxs.find? (fun (e : Nat × List Word) => e.1 = k)).map (·.2)
def setCtx (k : Nat) (w : List Word) (s : State) : State :=
  { s with dsp := { s.dsp with ctxs := s.dsp.ctxs.map (fun (e : Nat × List Word) => if e.1 = k then (k, w) else e) } }
def flowBase (s : State) (g : Nat) : Nat := rdF s (dspBlk g + 8) 31 27 * 2 ^ 27 + rdF s (dspBlk g + 0xC) 15 0 * 2 ^ 32
def ctxAddr (s : State) (k : Nat) : Nat := flowBase s (k / 2 ^ 21) + 64 * (k % 2 ^ 21)
/-- HELD: the context is pinned. -/
def pinned (w : List Word) : Bool := (wordAt w 0).testBit 0
/-- A field of a context word replaced. -/
def ctxSet (w : List Word) (i hi lo v : Nat) : List Word := w.set i (setFld (w.getD i 0) hi lo v)
def ctxAdd (w : List Word) (i : Nat) : List Word := w.set i (w.getD i 0 + 1)
/-- The whole line of a context written back. -/
def writeCtx (k : Nat) (w : List Word) (s : State) : State :=
  postWrite (dspStation (k / 2 ^ 21)) (ctxAddr s k) (wordsToBytes w) s

/-- Contexts of a grove cached or being read. -/
def ctxLoad (s : State) (g : Nat) : Nat :=
  (s.dsp.ctxs.filter (fun (e : Nat × List Word) => e.1 / 2 ^ 21 = g)).length + (s.dsp.reads.filter (fun k => k / 2 ^ 21 = g)).length
/-- The oldest unpinned context of a grove. -/
def evictable (s : State) (g : Nat) : Option (Nat × List Word) :=
  s.dsp.ctxs.find? (fun (e : Nat × List Word) => e.1 / 2 ^ 21 = g && !pinned e.2)
def hasRoom (s : State) (g : Nat) : Bool := decide (ctxLoad s g < 16384) || (evictable s g).isSome

/-- Room made by the eviction of an unpinned context. -/
def makeRoom (g : Nat) (s : State) : State :=
  if ctxLoad s g < 16384 then s
  else match evictable s g with
    | some e => writeCtx e.1 e.2 { s with dsp := { s.dsp with ctxs := s.dsp.ctxs.erase e } }
    | none => s

/-- The context of a slot's flow is here: the item enters its queue, or the flow's chain (R315). -/
def applyCtx (g n : Nat) (s : State) : State :=
  match heldAt s g n with
  | none => s
  | some h =>
    let k := ctxKey g h.item.flow
    match ctxOf s k with
    | none => s
    | some w =>
      if !pinned w then toStage g n .ready (setCtx k (ctxSet w 0 0 0 1) s)
      else
        let waiting := nfld (wordAt w 0) 31 16
        let tail := nfld (wordAt w 1) 31 16
        let w1 := ctxSet (ctxSet w 0 31 16 (waiting + 1)) 1 31 16 n
        let w2 := if waiting = 0 then ctxSet w1 1 15 0 n else w1
        let s1 := toStage g n .chain (setCtx k w2 s)
        if waiting = 0 then s1
        else match heldAt s1 g tail with
          | some p => if p.stage = .chain then setHeld g tail (some { p with next := some n }) s1 else s1
          | none => s1

/-- The read of a context as one 64-byte line (R317). -/
def readCtx (k : Nat) (s : State) : State :=
  let g := k / 2 ^ 21
  let s1 := dspCnt g 7 (makeRoom g s)
  sendReq { op := 1, vc := 2, dst := 0, src := dspStation g, tag := 0, addr := ctxAddr s1 k, len := 64 }
    { s1 with dsp := { s1.dsp with reads := s1.dsp.reads ++ [k] } }

/-- An item enters a ready queue, by post or by release: with FLOW_VALID the context is consulted (R315, R317). -/
def enterReady (g n : Nat) (s : State) : State :=
  match heldAt s g n with
  | none => s
  | some h =>
    if !h.item.flowValid then toStage g n .ready s
    else
      let k := ctxKey g h.item.flow
      if (ctxOf s k).isSome then applyCtx g n s
      else if s.dsp.reads.contains k then toStage g n .lookup s
      else if hasRoom s g ∧ !(heldItems s g).any (fun p => p.2.stage = .backlog && ctxKey g p.2.item.flow = k) then
        readCtx k (toStage g n .lookup s)
      else dspCnt g 9 (toStage g n .backlog s)

/-- The held item of a flow has ended: the chain's head enters its queue, or the flow is IDLE (R315). -/
def flowAdvance (g : Nat) (i : Item) (f : List Word → List Word) (s : State) : State :=
  let k := ctxKey g i.flow
  match ctxOf s k with
  | none => s
  | some w0 =>
    let w := f w0
    let waiting := nfld (wordAt w 0) 31 16
    let head := nfld (wordAt w 1) 15 0
    if waiting = 0 then setCtx k (ctxSet w 0 0 0 0) s
    else match heldAt s g head with
      | some h =>
        if h.stage ≠ .chain then setCtx k w s
        else
          let w1 := ctxSet (ctxSet w 0 31 16 (waiting - 1)) 1 15 0 (h.next.getD 0)
          let w2 := if waiting = 1 then w1.set 1 0 else w1
          toStage g head .ready (setHeld g head (some { h with next := none }) (setCtx k w2 s))
      | none => setCtx k w s

/-- Counts of a context at the end of an item: DONE and LAST_CODE, or FAILED, and LAST_CAUSE (R316). -/
def ctxEnd (cause code : Nat) (w : List Word) : List Word :=
  let w1 := ctxSet w 5 11 8 cause
  if cause = 0 then ctxSet (ctxAdd w1 3) 5 7 0 code else ctxAdd w1 4

/-- An item that never started ends: its record, its count, its slot (R308, R320, R326). -/
def dropUnstarted (g n cause : Nat) (s : State) : State :=
  match heldAt s g n with
  | none => s
  | some h => freeSlotD g n (dspCnt g 3 (writeRecordD g h.item cause 0 0 s))

/-- A waiting item taken out of its flow's chain (R308, R315). -/
def unchain (g n : Nat) (h : Held) (s : State) : State :=
  let k := ctxKey g h.item.flow
  match ctxOf s k with
  | none => s
  | some w =>
    let pred := (heldItems s g).find? (fun p => p.2.stage = .chain && p.2.next = some n)
    let waiting := nfld (wordAt w 0) 31 16
    let w1 := ctxEnd 0xF 0 (ctxSet w 0 31 16 (waiting - 1))
    let w2 := if waiting ≤ 1 then w1.set 1 0
      else match pred with
        | none => ctxSet w1 1 15 0 (h.next.getD 0)
        | some p => if h.next.isNone then ctxSet w1 1 31 16 p.1 else w1
    let s1 := setCtx k w2 s
    match pred with
    | some p => setHeld g p.1 (some { p.2 with next := h.next }) s1
    | none => s1

/-! ### Posts (R302-R306, R313) -/

/-- 40-bit distance from now to a release time. -/
def distance (release now : Nat) : Nat := (release + 2 ^ 40 - now % 2 ^ 40) % 2 ^ 40

/-- The tiles of a tile set. -/
def inSet (s : State) (g set j : Nat) : Bool := rdB s (dspBlk g + 0x200 + 0x40 * set + 4 * (j / 32)) (j % 32)
def setEmpty (s : State) (g set : Nat) : Bool := (upto 16).all (fun w => rd s (dspBlk g + 0x200 + 0x40 * set + 4 * w) = 0)

/-- The first failing check of a post, or none (R305, R306). -/
def postCheck (s : State) (g : Nat) (d : List Word) : Option Nat :=
  let i : Item := { desc := d }
  let dist := distance i.releaseTime (dlCore s g i.dlist).now40
  if !rdB s (dspBlk g) 31 then some 0x10
  else if nfld (wordAt d 5) 31 31 ≠ 0 ∨ nfld (wordAt d 6) 31 28 ≠ 0 ∨ (!i.timed ∧ nfld (wordAt d 6) 27 20 ≠ 0)
      ∨ setEmpty s g i.tset then some 0x11
  else if i.flowValid ∧ i.flow / 2 ^ 21 ≠ g then some 0x12
  else if !qEn s g i.queue then some 0x13
  else if i.timed ∧ (!dlEn s g i.dlist ∨ !(dlCore s g i.dlist).run) then some 0x14
  else if i.timed ∧ 2 ^ 32 < dist ∧ dist < 2 ^ 39 then some 0x15
  else if qMax s g i.queue ≤ qCount s g i.queue then some 0x16
  else if qMin s g i.queue ≤ qCount s g i.queue ∧ poolFull s g then some 0x17
  else if i.timed ∧ 16384 ≤ listCount s g i.dlist then some 0x18
  else none

/-- A post decided: refused and counted, or its item held (R306, R313). -/
def decidePost (g p : Nat) (d : List Word) (s : State) : State :=
  let put (w : Word) (s : State) : State := { s with dsp := { s.dsp with results := sset 0 s.dsp.results (g * 2048 + p) w } }
  match postCheck s g d with
  | some c => dspCnt g 1 (put (word (c * 2 ^ 24)) s)
  | none =>
    let n := freeReady s g
    let gen := (sget 0 s.dsp.gens (g * 65536 + n) + 1) % 256
    let i0 : Item := { desc := if (wordAt d 5).testBit 26 then d else d.set 7 0, slot := n, gen := gen }
    let dist := distance i0.releaseTime (dlCore s g i0.dlist).now40
    let late : Bool := i0.timed && decide (2 ^ 39 ≤ dist)
    let i := { i0 with late := late, eclass := qClass s g i0.queue }
    let wait : Bool := i.timed && decide (dist ≠ 0) && !late
    let q := qCfg g i.queue + 8
    let s1 := { s with dsp := { s.dsp with gens := sset 0 s.dsp.gens (g * 65536 + n) gen } }
    let s2 := setHeld g n (some { item := i, stage := if wait then .delay else .lookup, order := s.dsp.seq, due := i.releaseTime }) (nextSeqD s1)
    let s3 := wrF (wrF s2 q 16 0 (rdF s2 q 16 0 + 1)) (dspBlk g + 0x20) 16 0 (rdF s2 (dspBlk g + 0x20) 16 0 - 1)
    let s4 := dspCnt g 0 (put (word ((if late then 2 else 1) * 2 ^ 24 + gen * 2 ^ 16 + n)) s3)
    if wait then showList g i.dlist s4 else enterReady g n (if late then dspCnt g 4 s4 else s4)

/-! ### The choice of tile (R309, R310, R321) -/

/-- Tiles of a grove in service with items of classes E1-E7. -/
def classTiles (s : State) (g : Nat) : Nat :=
  (((heldItems s g).filterMap (fun p => match p.2.stage with
    | .service t => if p.2.item.eclass = 0 then none else some t
    | _ => none)).eraseDups).length
/-- The class of a queue is enabled and not withheld by the tile cap. -/
def classMay (s : State) (g q : Nat) : Bool :=
  qClass s g q = 0 || (rdB s (dspBlk g + 0x10) (qClass s g q) && decide (classTiles s g < rdF s (dspBlk g + 0x14) 9 0))
def classEnabled (s : State) (g q : Nat) : Bool := qClass s g q = 0 || rdB s (dspBlk g + 0x10) (qClass s g q)

/-- The tile is IDLE and free for an item. -/
def tileIdle (s : State) (t : Nat) : Bool :=
  (tileAt s t).state = 0x70 && (tileAt s t).incoming.isNone && !arrayOff s t
/-- The idle tile of a set that follows the one last chosen for it. -/
def nextTile (s : State) (g set : Nat) : Option Nat :=
  let last := sget 511 s.dsp.lastTile (g * 16 + set)
  ((upto 512).map (fun k => (last + 1 + k) % 512)).find? (fun j => inSet s g set j && tileIdle s (g * 512 + j))

/-- The item of `l` that comes first: lowest priority number, round robin by queue, order of entry (R309). -/
def firstItem (s : State) (g : Nat) (l : List (Nat × Held)) : Option (Nat × Held) :=
  let key (p : Nat × Held) : Nat :=
    let q := p.2.item.queue
    let pr := qPrio s g q
    let last := sget 255 s.dsp.lastQueue (g * 8 + pr)
    (pr * 256 + (q + 255 - last) % 256) * 2 ^ 64 + p.2.order
  l.foldl (fun a p => match a with
    | none => some p
    | some b => if key p < key b then some p else some b) none

/-- Ready items that may start but for a tile. -/
def startable (s : State) (g : Nat) : List (Nat × Held) :=
  (heldItems s g).filter (fun p => p.2.stage = .ready && qEn s g p.2.item.queue && classMay s g p.2.item.queue)

/-- An item is started on a tile: counted, and in its flow's context (R316, R326). -/
def noteStart (g n t : Nat) (s : State) : State :=
  match heldAt s g n with
  | none => s
  | some h =>
    let q := h.item.queue
    let i := { h.item with eclass := qClass s g q }
    let s1 := nextSeqD (setHeld g n (some { h with item := i, stage := .service t, started := s.dsp.seq }) s)
    let s2 := dspCnt g 2 { s1 with dsp := { s1.dsp with lastQueue := sset 255 s1.dsp.lastQueue (g * 8 + qPrio s g q) q } }
    let k := ctxKey g i.flow
    let s3 := match (if i.flowValid then ctxOf s2 k else none) with
      | some w => setCtx k (ctxAdd w 2) s2
      | none => s2
    setTile t { tileAt s3 t with incoming := some i } s3

/-- Pre-emption requests for a ready slot withdrawn (R324). -/
def withdrawPreempt (g n : Nat) (s : State) : State :=
  { s with tiles := smapAll {} s.tiles (fun t x => if t / 512 = g ∧ x.preempt = some n then { x with preempt := none } else x) }

/-! ### The grove (R329) -/

/-- A die reset of the grove: everything held is lost, nothing is reported. -/
def dspReset (g : Nat) (s : State) : State :=
  let mine (w : Nat) (k : Nat) : Bool := k / w = g
  let d := s.dsp
  dropRegs { s with dsp := { d with
    slots := sdrop d.slots (mine 65536), gens := sdrop d.gens (mine 65536), posted := sdrop d.posted (mine 2048),
    results := sdrop d.results (mine 2048), ctxs := d.ctxs.filter (fun (e : Nat × List Word) => e.1 / 2 ^ 21 ≠ g),
    reads := d.reads.filter (fun k => k / 2 ^ 21 ≠ g), ghosts := sdrop d.ghosts (mine (2 ^ 21)),
    poisonSince := sdel d.poisonSince g, poisonLast := sdel d.poisonLast g, lastTile := sdrop d.lastTile (mine 16),
    lastQueue := sdrop d.lastQueue (mine 8), reports := d.reports.filter (fun r => r.tile / 512 ≠ g),
    restarts := d.restarts.filter (fun t => t / 512 ≠ g), flush := sdel d.flush g } } (dspBlk g) (dspBlk g + 0x20000)

end Sys2Proof.Machine
end

