-- ==== Sys2Proof/Machine/TileScalar.lean ====
section
/-!
DEFINITION. Meanings of the tiles' scalar instructions, status and timer moves (09 R284, R285). Every command names
its tile, PAIR where the word is of class C, and its operand fields; it acts when that word stands at the tile's PC
and the tile can issue it.
-/
namespace Sys2Proof.Machine

/-! ### Shared forms -/

/-- Signed and unsigned value of a scalar as the unit issued sees it. -/
def Tile.sS (x : Tile) (n : Nat) : Int := sint 32 (x.get (rS n))
def Tile.uS (x : Tile) (n : Nat) : Nat := x.get (rS n)

/-- A scalar result under SAT (R282, R283). -/
def scalarSat (d : Nat) (srcs : List Nat) (v : Int) (x : Tile) : Tile :=
  let t := srcs.any (fun r => x.tnt r) || x.ctaint || x.tnt rSt
  (x.put (rS d) (fitN 32 x.sat v) t 0).putOvf (ovfN 32 v) t 0
/-- A scalar result that neither reads SAT nor touches OVF. -/
def scalarPlain (d : Nat) (srcs : List Nat) (v : Nat) (x : Tile) : Tile :=
  x.put (rS d) (v % 2 ^ 32) (srcs.any (fun r => x.tnt r) || x.ctaint) 0

/-- ADD, SUB, MUL: format CR, signed, under SAT. -/
def rrSat (op : Nat) (f : Int → Int → Int) (t : Nat) (pair : Bool) (d a b : Nat) (s : State) : State :=
  issueC t pair (wordC pair op (fmtCR d a b)) (fun x => scalarSat d [rS a, rS b] (f (x.sS a) (x.sS b)) x) s
/-- The other operations of format CR. -/
def rrPlain (op : Nat) (f : Nat → Nat → Nat) (t : Nat) (pair : Bool) (d a b : Nat) (s : State) : State :=
  issueC t pair (wordC pair op (fmtCR d a b)) (fun x => scalarPlain d [rS a, rS b] (f (x.uS a) (x.uS b)) x) s
/-- The operations of format CI that do not read SAT; `lim` bounds IMM. -/
def riPlain (op lim : Nat) (f : Nat → Nat → Nat) (t : Nat) (pair : Bool) (d a imm : Nat) (s : State) : State :=
  issueC t pair (wordC pair op (fields [(imm, lim)] (fmtCI d a imm))) (fun x => scalarPlain d [rS a] (f (x.uS a) imm) x) s

/-! ### NOP and the operations of two scalars (R284) -/

/-- NOP: its word is zero, or PAIR alone. -/
def execNop (t : Nat) (pair : Bool) (s : State) : Host.Outcome State Fault Refusal :=
  Next (issueC t pair (wordC pair 0 0) (fun x => x) s)

/-- s[D] := fit32(s[A] + s[B]). -/
def execAdd (t : Nat) (pair : Bool) (d a b : Nat) (s : State) : Host.Outcome State Fault Refusal :=
  Next (rrSat 0x01 (· + ·) t pair d a b s)

/-- s[D] := fit32(s[A] - s[B]). -/
def execSub (t : Nat) (pair : Bool) (d a b : Nat) (s : State) : Host.Outcome State Fault Refusal :=
  Next (rrSat 0x02 (· - ·) t pair d a b s)

/-- s[D] := fit32(s[A] * s[B]), signed. -/
def execMul (t : Nat) (pair : Bool) (d a b : Nat) (s : State) : Host.Outcome State Fault Refusal :=
  Next (rrSat 0x03 (· * ·) t pair d a b s)

/-- Signed minimum. -/
def execMin (t : Nat) (pair : Bool) (d a b : Nat) (s : State) : Host.Outcome State Fault Refusal :=
  Next (rrPlain 0x04 (fun x y => if sint 32 x ≤ sint 32 y then x else y) t pair d a b s)

/-- Signed maximum. -/
def execMax (t : Nat) (pair : Bool) (d a b : Nat) (s : State) : Host.Outcome State Fault Refusal :=
  Next (rrPlain 0x05 (fun x y => if sint 32 x ≤ sint 32 y then y else x) t pair d a b s)

/-- s[D] := s[A] AND s[B]. -/
def execAnd (t : Nat) (pair : Bool) (d a b : Nat) (s : State) : Host.Outcome State Fault Refusal :=
  Next (rrPlain 0x06 (· &&& ·) t pair d a b s)

/-- s[D] := s[A] OR s[B]. -/
def execOr (t : Nat) (pair : Bool) (d a b : Nat) (s : State) : Host.Outcome State Fault Refusal :=
  Next (rrPlain 0x07 (· ||| ·) t pair d a b s)

/-- s[D] := s[A] XOR s[B]. -/
def execXor (t : Nat) (pair : Bool) (d a b : Nat) (s : State) : Host.Outcome State Fault Refusal :=
  Next (rrPlain 0x08 (· ^^^ ·) t pair d a b s)

/-- s[D] := s[A] << s[B][4:0]. -/
def execSll (t : Nat) (pair : Bool) (d a b : Nat) (s : State) : Host.Outcome State Fault Refusal :=
  Next (rrPlain 0x09 (fun x y => x <<< (y % 32)) t pair d a b s)

/-- s[D] := s[A] >> s[B][4:0], zeros in. -/
def execSrl (t : Nat) (pair : Bool) (d a b : Nat) (s : State) : Host.Outcome State Fault Refusal :=
  Next (rrPlain 0x0A (fun x y => x >>> (y % 32)) t pair d a b s)

/-- s[D] := s[A] >> s[B][4:0], sign in. -/
def execSra (t : Nat) (pair : Bool) (d a b : Nat) (s : State) : Host.Outcome State Fault Refusal :=
  Next (rrPlain 0x0B (fun x y => uint 32 (sraI (sint 32 x) (y % 32))) t pair d a b s)

/-- 1 if s[A] < s[B] signed, else 0. -/
def execSlt (t : Nat) (pair : Bool) (d a b : Nat) (s : State) : Host.Outcome State Fault Refusal :=
  Next (rrPlain 0x0C (fun x y => b2n (sint 32 x < sint 32 y)) t pair d a b s)

/-- 1 if s[A] < s[B] unsigned, else 0. -/
def execSltu (t : Nat) (pair : Bool) (d a b : Nat) (s : State) : Host.Outcome State Fault Refusal :=
  Next (rrPlain 0x0D (fun x y => b2n (x < y)) t pair d a b s)

/-! ### Immediate forms (R284) -/

/-- s[D] := fit32(s[A] + sext(IMM)). -/
def execAddi (t : Nat) (pair : Bool) (d a imm : Nat) (s : State) : Host.Outcome State Fault Refusal :=
  Next (issueC t pair (wordC pair 0x10 (fmtCI d a imm))
    (fun x => scalarSat d [rS a] (x.sS a + sint 16 imm) x) s)

/-- s[D] := s[A] AND zext(IMM). -/
def execAndi (t : Nat) (pair : Bool) (d a imm : Nat) (s : State) : Host.Outcome State Fault Refusal :=
  Next (riPlain 0x11 65536 (· &&& ·) t pair d a imm s)

/-- s[D] := s[A] OR zext(IMM). -/
def execOri (t : Nat) (pair : Bool) (d a imm : Nat) (s : State) : Host.Outcome State Fault Refusal :=
  Next (riPlain 0x12 65536 (· ||| ·) t pair d a imm s)

/-- s[D] := s[A] XOR zext(IMM). -/
def execXori (t : Nat) (pair : Bool) (d a imm : Nat) (s : State) : Host.Outcome State Fault Refusal :=
  Next (riPlain 0x13 65536 (· ^^^ ·) t pair d a imm s)

/-- s[D] := s[A] << IMM[4:0]. -/
def execSlli (t : Nat) (pair : Bool) (d a imm : Nat) (s : State) : Host.Outcome State Fault Refusal :=
  Next (riPlain 0x14 32 (fun x n => x <<< n) t pair d a imm s)

/-- s[D] := s[A] >> IMM[4:0], zeros in. -/
def execSrli (t : Nat) (pair : Bool) (d a imm : Nat) (s : State) : Host.Outcome State Fault Refusal :=
  Next (riPlain 0x15 32 (fun x n => x >>> n) t pair d a imm s)

/-- s[D] := s[A] >> IMM[4:0], sign in. -/
def execSrai (t : Nat) (pair : Bool) (d a imm : Nat) (s : State) : Host.Outcome State Fault Refusal :=
  Next (riPlain 0x16 32 (fun x n => uint 32 (sraI (sint 32 x) n)) t pair d a imm s)

/-- s[D] := sext(IMM). -/
def execLi (t : Nat) (pair : Bool) (d imm : Nat) (s : State) : Host.Outcome State Fault Refusal :=
  Next (issueC t pair (wordC pair 0x17 (fmtCI d 0 imm)) (fun x => scalarPlain d [] (uint 32 (sint 16 imm)) x) s)

/-- s[D] := IMM << 16. -/
def execLui (t : Nat) (pair : Bool) (d imm : Nat) (s : State) : Host.Outcome State Fault Refusal :=
  Next (issueC t pair (wordC pair 0x18 (fmtCI d 0 imm)) (fun x => scalarPlain d [] (imm * 65536) x) s)

/-! ### Status and timer moves (R285) -/

/-- ST.SAT and ST.OVF from s[A][0] and s[A][1]; ST is tainted with s[A] or under CTAINT (R283). -/
def execMts (t : Nat) (pair : Bool) (a : Nat) (s : State) : Host.Outcome State Fault Refusal :=
  Next (issueC t pair (wordC pair 0x1C (fmtCI 0 a 0))
    (fun x => x.put rSt (x.uS a % 4) (x.tnt (rS a) || x.ctaint) 0) s)

/-- Selector 0: s[D] := ST; 1: TMR as it stood at the issue cycle. -/
def execMfs (t : Nat) (pair : Bool) (d sel : Nat) (s : State) : Host.Outcome State Fault Refusal :=
  Next (issueC t pair (wordC pair 0x1D (fields [(sel, 2)] (fmtCI d 0 sel)))
    (fun x => if sel = 0 then scalarPlain d [rSt] x.st x else scalarPlain d [] x.tmr x) s)

end Sys2Proof.Machine
end

