-- ==== Sys2Proof/Machine/TileMemory.lean ====
section
/-!
DEFINITION. Meanings of the tiles' address instructions, loads and stores (08 R242-R246, R251, R263-R265; 09 R286-R289).
-/
namespace Sys2Proof.Machine

/-! ### Address instructions (09 R286) -/

/-- Register that KIND and N name. -/
def maReg (kind n : Nat) : Nat := if kind = 0 then rA n else if kind = 1 then rB n else rL n

/-- A class-M result with 0 delay cycles. -/
def mResult (t : Nat) (reg : Nat) (srcs : List Nat) (v : Tile → Nat) (s : State) : State :=
  endM t (fun x => x.put reg (v x % 2 ^ 32) (srcs.any (fun r => x.tnt r) || x.ctaint) 0) s

/-- a[N], b[N] or l[N] := s[S]. -/
def execAmov (t kind n sc : Nat) (s : State) : Host.Outcome State Fault Refusal :=
  Next (issueM t (wordM 0x08 (fields [(sc, 16)] (fmtMA kind n sc))) .free
    (mResult t (maReg kind n) [rS sc] (fun x => x.uS sc)) s)

/-- a[N], b[N] or l[N] := zext(IMM). -/
def execAseti (t kind n imm : Nat) (s : State) : Host.Outcome State Fault Refusal :=
  Next (issueM t (wordM 0x09 (fmtMA kind n imm)) .free (mResult t (maReg kind n) [] (fun _ => imm)) s)

/-- The step of a[N] by an increment (08 R246). -/
def Tile.step (x : Tile) (n : Nat) (inc : Int) : Nat := stepAddr (x.get (rA n)) (x.get (rB n)) (x.get (rL n)) inc

/-- a[N] := step(N, sext(IMM)). -/
def execAstep (t n imm : Nat) (s : State) : Host.Outcome State Fault Refusal :=
  Next (issueM t (wordM 0x0A (fmtMA 0 n imm)) .free
    (mResult t (rA n) [rA n, rB n, rL n] (fun x => x.step n (sint 16 imm))) s)

/-- s[S] := a[N], b[N] or l[N]. -/
def execMfa (t kind n sc : Nat) (s : State) : Host.Outcome State Fault Refusal :=
  Next (issueM t (wordM 0x0B (fields [(sc, 16)] (fmtMA kind n sc))) .free
    (mResult t (rS sc) [maReg kind n] (fun x => x.get (maReg kind n))) s)

/-! ### Loads and stores (09 R287-R289) -/

/-- The access address of an addressing mode. -/
def Tile.ea (x : Tile) (n am imm : Nat) : Nat :=
  if am = 1 then uint 32 ((x.get (rA n) : Int) + sint 15 imm) else x.get (rA n)
/-- The post-modify of an addressing mode: register, value, taint. -/
def Tile.post (x : Tile) (n am imm : Nat) : Option (Nat × Nat × Bool) :=
  let t := x.tnt (rA n) || x.tnt (rB n) || x.tnt (rL n) || x.ctaint
  if am = 0 then some (rA n, x.step n (sint 15 imm), t)
  else if am = 2 then some (rA n, x.step n (sint 32 (x.get (rS imm))), t || x.tnt (rS imm))
  else none
/-- A register in the Reads column is tainted, or the unit issued under CTAINT. -/
def Tile.memTaint (x : Tile) (n am imm : Nat) : Bool :=
  x.tnt (rA n) || x.ctaint || (x.post n am imm).any (fun p => p.2.2)
def Tile.postMod (x : Tile) (p : Option (Nat × Nat × Bool)) : Tile :=
  match p with
  | some (r, v, t) => x.put r v t 0
  | none => x

/-- Bytes of a range covered by a buffered store laid over them. -/
def overlayAt (a : Nat) (l : List Byte) (w : TileStore) : List Byte :=
  (l.zip (upto l.length)).map (fun (p : Byte × Nat) =>
    if w.addr ≤ a + p.2 ∧ a + p.2 < w.addr + w.data.length then w.data.getD (a + p.2 - w.addr) p.1 else p.1)
def overlapsStore (a n : Nat) (w : TileStore) : Bool := decide (w.addr < a + n) && decide (a < w.addr + w.data.length)

/-- A local load: bytes and taint, the lock buffer's own stores seen (08 R256, R264). -/
def loadLocal (s : State) (t a n : Nat) : List Byte × Bool :=
  let x := tileAt s t
  let own := x.lockBuf.filter (fun w => !w.ext && overlapsStore a n w)
  (own.foldl (fun l w => overlayAt a l w) (memGet s (tileMem t + a) n),
   (decide (a < 0x10000) && sget false x.units (a / 32)) || own.any (·.taint))

/-- The device address of the external access at PC: translated, waited for, or refused. `k` goes on with it. -/
def withDevice (t va : Nat) (write : Bool) (k : Nat → State → State) (s : State) : State :=
  let x := tileAt s t
  match x.xaddr with
  | some a => k a s
  | none =>
    match translate (t / 512) (x.item.getD {}).asid (va - 2 ^ 31) write (.tile t) s with
    | (.ok a, s1) => k a s1
    | (.fault _, s1) => translationFault t va write s1
    | (.wait, s1) =>
      if s1.xlt.walkId = s.xlt.walkId then s1
      else setTile t { tileAt s1 t with stall := some (.xlate s.xlt.walkId) } s1

/-- An access checked in the order of R289: placement of an external one, alignment, range. -/
def checkAccess (x : Tile) (ea size : Nat) (store : Bool) : Option Nat :=
  if 2 ^ 31 ≤ ea ∧ (x.slots ≠ 0 ∨ x.rep ≠ 0) then some fIllegal
  else if ea % size ≠ 0 then some fAlign
  else if ea < 0x10000 ∨ 2 ^ 31 ≤ ea ∨ (!store ∧ ea < 0x14000) then none
  else some fBadAddr

/-- LW and VLD, the data into register `reg`. -/
def loadOp (op size : Nat) (reg : Nat) (t r n am imm : Nat) (s : State) : State :=
  issueM t (wordM op (fields [(imm, if am = 2 then 16 else 32768)] (fmtML r n am imm))) .free (fun s1 =>
    let x := tileAt s1 t
    let ea := x.ea n am imm
    let post := x.post n am imm
    let taint := x.memTaint n am imm
    match checkAccess x ea size false with
    | some c => abortItem t c ea false true s1
    | none =>
      if ea < 2 ^ 31 then
        let d := loadLocal s1 t ea size
        endM t (fun y => (y.put reg (ofBytes d.1) (taint || d.2) 2).postMod post) s1
      else if x.tnt (rA n) then setTile t { x with stall := some .addrTaint } s1
      else withDevice t ea false (fun a s2 =>
        let y := tileAt s2 t
        sendReq { op := 1, vc := 2, dst := 0, src := tileStation t, tag := t % 16 + 16 * (y.rdGen % 4096), addr := a, len := size,
                  prov := y.spec && decide (y.provPend < 255) }
          (setTile t { y with xaddr := some a, stall := some (.load reg size ea taint post) } s2)) s1) s

/-- SW and VST, the data from register `reg`. -/
def storeOp (op size : Nat) (reg : Nat) (t r n am imm : Nat) (s : State) : State :=
  issueM t (wordM op (fields [(imm, if am = 2 then 16 else 32768)] (fmtML r n am imm))) .free (fun s1 =>
    let x := tileAt s1 t
    let ea := x.ea n am imm
    let post := x.post n am imm
    let w : TileStore := { ext := decide (2 ^ 31 ≤ ea), addr := ea, va := ea, data := toBytes size (x.get reg),
                           taint := x.tnt reg || x.tnt (rA n) || x.ctaint }
    match checkAccess x ea size true with
    | some c => abortItem t c ea true true s1
    | none =>
      let buffered (w : TileStore) (s2 : State) : State :=
        let y := tileAt s2 t
        setTile t { y with lockBuf := y.lockBuf ++ [w] } s2
      if ea < 2 ^ 31 then
        endM t (fun y => y.postMod post) (if x.locked then buffered w s1 else storeLocal t w s1)
      else withDevice t ea true (fun a s2 =>
        let y := tileAt s2 t
        let w' := { w with addr := a }
        let fin (s3 : State) : State := endM t (fun z => (if y.xaddr.isSome then z.settle else z).postMod post) s3
        if y.locked then fin (buffered w' s2)
        else if (w.taint ∨ !y.cbuf.isEmpty) ∧ 64 ≤ y.cbuf.length then
          setTile t { y with xaddr := some a, stall := some (.buffer 63) } s2
        else fin (extStore t w' s2)) s1) s

/-- s[T] := 4 bytes at ea. -/
def execLw (t r n am imm : Nat) (s : State) : Host.Outcome State Fault Refusal := Next (loadOp 1 4 (rS r) t r n am imm s)
/-- 4 bytes at ea := s[T]. -/
def execSw (t r n am imm : Nat) (s : State) : Host.Outcome State Fault Refusal := Next (storeOp 2 4 (rS r) t r n am imm s)
/-- v[T] := 32 bytes at ea. -/
def execVld (t r n am imm : Nat) (s : State) : Host.Outcome State Fault Refusal := Next (loadOp 3 32 (rV r) t r n am imm s)
/-- 32 bytes at ea := v[T]. -/
def execVst (t r n am imm : Nat) (s : State) : Host.Outcome State Fault Refusal := Next (storeOp 4 32 (rV r) t r n am imm s)

end Sys2Proof.Machine
end

