-- ==== Sys2Proof/Machine/TileEvents.lean ====
section
/-!
DEFINITION. Meanings of the tiles' events: items, answers from outside, provisional data, aborts, pre-emption, control
writes, WAIT, watchdog and OFF (08 R251, R258-R278).
-/
namespace Sys2Proof.Machine

/-! ### Answers to a tile group (R245, R251, R263-R267) -/

/-- The packet is for a tile group; the tile its tag names, and the tag's generation. -/
def tileAnswer (p : Packet) : Option (Nat × Nat) :=
  if kindOf p.dst = .tiles then some ((p.dst / 256 - 8) * 512 + (p.dst % 256 - 0x30) * 16 + p.tag % 16, p.tag / 16) else none

/-- The cause of an external load answered other than OK (R269). -/
def loadCause (status : Nat) : Nat := if status = stPoison then fPoison else if status = 6 then fNoRoute else fAbsent

/-- An external load's answer: the result is visible to the next unit, tainted on PROV = 1; or a precise fault. An
answer of an abandoned request is dropped (R267). -/
def execExternalLoadAnswer (i : Nat) (s : State) : Host.Outcome State Fault Refusal :=
  Next (match inboxAt s i with
    | none => s
    | some p =>
      match (if p.op = 4 then tileAnswer p else none) with
      | none => s
      | some (t, gen) =>
        let x := tileAt s t
        if tileFrozen s t ∨ x.state = 0x77 then s
        else if gen ≠ x.rdGen % 4096 then dropInbox i s
        else match x.stall with
          | some (.load reg len va taint post) =>
            let s1 := dropInbox i s
            let st := if p.poison then stPoison else p.status
            if st ≠ 0 then abortItem t (loadCause st) va false true s1
            else
              let own := x.lockBuf.filter (fun w => w.ext && overlapsStore p.addr len w)
              let d := own.foldl (fun l w => overlayAt p.addr l w) ((p.data ++ List.replicate len 0).take len)
              let y := { x.unstall with provPend := if p.prov then min 255 (x.provPend + 1) else x.provPend }
              endWord t true (setTile t ((y.put reg (ofBytes d) (taint || p.prov || own.any (·.taint)) 0).postMod post) s1)
          | _ => dropInbox i s)

/-- The tile address of an outstanding WR, and the WRs without it. -/
def takeWrite (l : List (Nat × Nat)) (addr : Nat) : Option (Nat × List (Nat × Nat)) :=
  (l.find? (fun e => e.1 = addr)).map (fun e => (e.2, l.erase e))

/-- An external WR is acknowledged, or answered other than OK: WRITE_ERR at the next issue boundary (R261, R269). -/
def execExternalWriteAnswer (i : Nat) (s : State) : Host.Outcome State Fault Refusal :=
  Next (match inboxAt s i with
    | none => s
    | some p =>
      match (if p.op = 5 then tileAnswer p else none) with
      | none => s
      | some (t, gen) =>
        let x := tileAt s t
        let s1 := dropInbox i s
        let bad := p.poison || p.status ≠ 0
        if gen = x.wrGen % 4096 then
          (match takeWrite x.wrOut p.addr with
           | some (va, l) =>
             endStalls t (setTile t { x with wrOut := l, werr := if bad then (x.werr.orElse (fun _ => some va)) else x.werr } s1)
           | none => s1)
        else match x.saved with
          | some c =>
            if gen = c.wrGen % 4096 then
              (match takeWrite c.wrOut p.addr with
               | some (va, l) =>
                 setTile t { x with saved := some { c with wrOut := l, werr := if bad then (c.werr.orElse (fun _ => some va)) else c.werr } } s1
               | none => s1)
            else s1
          | none => s1)

/-- With no tainted entry left, the commit buffer's head leaves (R265). -/
def execCommitBufferDrain (t : Nat) (s : State) : Host.Outcome State Fault Refusal :=
  Next (let x := tileAt s t
    match x.cbuf with
    | [] => s
    | w :: r =>
      if (w :: r).any (·.taint) ∨ x.state = 0x77 ∨ tileFrozen s t then s
      else endStalls t (sendStore t w (setTile t { x with cbuf := r } s)))

/-- A CONFIRM reduces PROV_PEND; at zero every taint clears in one cycle (R266). -/
def execProvisionalConfirm (i : Nat) (s : State) : Host.Outcome State Fault Refusal :=
  Next (match inboxAt s i with
    | none => s
    | some p =>
      match (if p.op = 6 then tileAnswer p else none) with
      | none => s
      | some (t, gen) =>
        let x := tileAt s t
        if gen ≠ x.rdGen % 4096 then dropInbox i s
        else if x.provPend = 0 ∨ tileFrozen s t then s
        else
          let s1 := setTile t { x with provPend := x.provPend - 1 } (dropInbox i s)
          if x.provPend = 1 then clearTaint t s1 else s1)

/-- A RETRACT for a provisional read of the item restarts it, in every state but IDLE and OFF (R267). -/
def execRetractRestart (i : Nat) (s : State) : Host.Outcome State Fault Refusal :=
  Next (match inboxAt s i with
    | none => s
    | some p =>
      match (if p.op = 7 then tileAnswer p else none) with
      | none => s
      | some (t, gen) =>
        let x := tileAt s t
        if gen ≠ x.rdGen % 4096 ∨ x.state = 0x70 then dropInbox i s
        else if x.state = 0x77 ∨ x.state = 0x76 ∨ tileFrozen s t then s
        else restartItem t (dropInbox i s))

/-! ### Items (R260, R261, R270) -/

/-- A tile enters the item that its dispatcher gave it. -/
def execTileItemEntry (t : Nat) (s : State) : Host.Outcome State Fault Refusal :=
  Next (let x := tileAt s t
    match x.incoming with
    | some i => if x.state = 0x70 ∧ !arrayOff s t ∧ !tileFrozen s t then startItem t i s else s
    | none => s)

/-- An EXITING tile whose conditions are met reports completion and goes on. -/
def execItemCompletionReport (t : Nat) (s : State) : Host.Outcome State Fault Refusal :=
  Next (let x := tileAt s t
    if x.state = 0x73 ∧ x.provPend = 0 ∧ x.drained ∧ x.werr.isNone ∧ !tileFrozen s t then
      endItem t 0 x.exitCode (cnt s (tilBlk t + 0x20))
    else s)

/-- A state in which aborts are taken at once. -/
def abortable (x : Tile) : Bool := (x.state = 0x71 && x.boundary) || [0x72, 0x73, 0x74, 0x75].contains x.state

/-- The pending abort of a tile taken: WRITE_ERR, WATCHDOG, KILLED, or ILLEGAL at an unlisted word (R269, R270). -/
def execTileAbort (t : Nat) (s : State) : Host.Outcome State Fault Refusal :=
  Next (let x := tileAt s t
    if x.item.isNone ∨ tileFrozen s t then s
    else match x.werr with
      | some va => if (x.state = 0x71 ∧ !x.begun ∧ x.stall.isNone) ∨ [0x72, 0x73, 0x74, 0x75].contains x.state then abortItem t fWriteErr va true false s else s
      | none =>
        if x.expired ∧ abortable x then abortItem t fWatchdog 0 false false s
        else if x.kill ∧ abortable x then abortItem t fKilled 0 false false s
        else if mayIssue s t ∧ (!legalWord (progWord s t x.pc) ∨ (x.paired ∧ !classM (progWord s t x.pc))) then
          abortItem t fIllegal 0 false true (beginUnit t s)
        else s)

/-! ### Pre-emption (R258, R272) -/

/-- A pre-emption stop is taken: the pre-empting item is in service, the context is being saved. One that finds the
slot full is refused. -/
def execPreemptionStop (t : Nat) (s : State) : Host.Outcome State Fault Refusal :=
  Next (let x := tileAt s t
    let g := t / 512
    match x.preempt with
    | none => s
    | some n =>
      if x.saved.isSome then setTile t { x with preempt := none } s
      else if !mayPreempt x ∨ arrayOff s t ∨ tileFrozen s t then s
      else
        let s1 := setTile t { x.settle with preempt := none, before := x.state, state := 0x76, restoring := false } s
        noteStart g n t (dspCnt g 6 (cnt s1 (tilBlk t + 0x28))))

/-- The 40-cycle save ends and the pre-empting item enters. -/
def execContextSaveDone (t : Nat) (s : State) : Host.Outcome State Fault Refusal :=
  Next (let x0 := tileAt s t
    match x0.incoming, x0.item with
    | some i, some _ =>
      if x0.state ≠ 0x76 ∨ x0.restoring ∨ tileFrozen s t then s
      else
        let s1 := passCycles t 40 s
        let x := tileAt s1 t
        let r : TRegs := { x.regs with taints := [] }
        let c : SavedTile :=
          { regs := r, pc := x.pc, tmr := x.tmr, wd := x.wd, wdLoad := x.wdLoad, item := x.item.getD {},
            spec := x.spec, restarted := x.restarted, lockBroken := x.stBroken, state := x.before, waitT := x.waitT, wrOut := x.wrOut,
            wrGen := x.wrGen, werr := x.werr }
        startItem t i (setTile t { x with saved := some c, state := 0x70, werr := none } s1)
    | _, _ => s)

/-- The 40-cycle restore ends and the saved item continues in the state it was saved from. -/
def execContextRestoreDone (t : Nat) (s : State) : Host.Outcome State Fault Refusal :=
  Next (let x0 := tileAt s t
    match x0.saved with
    | none => s
    | some c =>
      if x0.state ≠ 0x76 ∨ !x0.restoring ∨ tileFrozen s t then s
      else
        let s1 := passCycles t 40 (setTile t { x0 with item := some c.item } s)
        let x := tileAt s1 t
        setTile t { x with state := c.state, saved := none, restoring := false, regs := c.regs, old := c.regs, older := c.regs,
                           results := [], pc := c.pc, lastPc := c.pc, tmr := c.tmr, wd := c.wd, wdLoad := c.wdLoad, ctaint := false,
                           spec := c.spec, restarted := c.restarted, stBroken := c.lockBroken, waitT := c.waitT, wrOut := c.wrOut,
                           wrGen := c.wrGen, werr := c.werr } s1)

/-! ### TIL_CTRL (R271, R278) -/

/-- Who may write TIL_CTRL: the Warden, the host, the grove's dispatcher and its design stations. -/
def tilCtrlOk (t : Nat) : Writer → Bool
  | .warden => true
  | .host _ => true
  | .station id => id / 256 = 8 + t / 512 && (id % 256 = 4 || isDesign id)
  | _ => false

/-- RESUME: a FAULTED tile executes the faulting instruction again. -/
def execTileResume (src : Writer) (t : Nat) (s : State) : Host.Outcome State Fault Refusal :=
  Next (atBlock (8 + t / 512) 8 (fun s => let x := tileAt s t
    if tilCtrlOk t src ∧ x.state = 0x74 then setTile t { x with state := 0x71 } s else s) s)

/-- KILL: the running item aborts with KILLED at a stop boundary; no effect in IDLE or OFF. -/
def killTile (t : Nat) (s : State) : State :=
  let x := tileAt s t
  if x.item.isNone ∨ x.state = 0x70 ∨ x.state = 0x77 then s
  else if abortable x then abortItem t fKilled 0 false false s
  else setTile t { x with kill := true } s
def execTileKill (src : Writer) (t : Nat) (s : State) : Host.Outcome State Fault Refusal :=
  Next (atBlock (8 + t / 512) 8 (fun s => if tilCtrlOk t src then killTile t s else s) s)

/-- WAKE: the wake latch is set. -/
def execTileWake (src : Writer) (t : Nat) (s : State) : Host.Outcome State Fault Refusal :=
  Next (atBlock (8 + t / 512) 8 (fun s => if tilCtrlOk t src ∧ t < 4096 then setTile t { tileAt s t with wake := true } s else s) s)

/-- DISCARD_SLOT: the saved context is discarded and its item reported failed with KILLED. -/
def execTileDiscardSlot (src : Writer) (t : Nat) (s : State) : Host.Outcome State Fault Refusal :=
  Next (atBlock (8 + t / 512) 8 (fun s => let x := tileAt s t
    match x.saved with
    | some c =>
      if !tilCtrlOk t src then s
      else setTile t (if x.restoring then { x with saved := none, restoring := false, state := 0x70 } else { x with saved := none })
        { s with dsp := { s.dsp with reports := s.dsp.reports ++ [{ tile := t, item := c.item, cause := fKilled, code := 0 }] } }
    | none => s) s)

/-! ### WAIT, watchdog, OFF (R274, R275, R277) -/

/-- TMR is zero with T = 1, or the wake latch is set: the WAIT ends and clears the latch. -/
def execWaitEnd (t : Nat) (s : State) : Host.Outcome State Fault Refusal :=
  Next (let x := tileAt s t
    if x.state = 0x72 ∧ (x.wake ∨ (x.waitT ∧ x.tmr = 0)) ∧ !tileFrozen s t then
      setTile t { x with state := 0x71, wake := false } s
    else s)

/-- The watchdog has reached zero: a WATCHDOG stop. -/
def execTileWatchdogExpiry (t : Nat) (s : State) : Host.Outcome State Fault Refusal :=
  Next (let x := tileAt s t
    if x.expired ∧ abortable x ∧ !tileFrozen s t then abortItem t fWatchdog 0 false false s else s)

/-- Gating or DEEP stops a tile at its next stop boundary, with its state retained. -/
def execTileOff (t : Nat) (s : State) : Host.Outcome State Fault Refusal :=
  Next (let x := tileAt s t
    if t < 4096 ∧ arrayOff s t ∧ x.state ≠ 0x76 ∧ x.state ≠ 0x77 ∧ (x.state ≠ 0x71 ∨ x.boundary) ∧ !tileFrozen s t then
      setTile t { x.settle with before := x.state, state := 0x77 } s
    else s)

end Sys2Proof.Machine
end

