-- ==== Sys2Proof/Machine/DebugOps.lean ====
section
/-!
DEFINITION. Debug as operations: run control of tiles, freezes, triggers, die stops, and the undoing of a debugger's
work (18 R535, R541-R552).
-/
namespace Sys2Proof.Machine

/-! ### Tiles (R541-R545) -/

/-- The tile may take its halt request, or the end of its step, now (R258, R541-R544). -/
def haltDue (s : State) (t : Nat) : Bool :=
  let x := tileAt s t
  let forced := x.force || rdB s (dbgBlk (t / 512) + 0x300) 0
  if x.state = 0x71 then
    haltReq s t && x.stepping ≠ 1 && (x.boundary || (forced && x.locked))
  else (x.state = 0x72 || x.state = 0x70) && haltReq s t && x.stepping = 0

/-- The tile becomes HALTED with its state complete; a locked sequence still in progress is aborted by FORCE: its
buffer is discarded, PC is left at its LOCK and the answer of an external load of it is dropped (R543). -/
def takeHalt (t : Nat) (s : State) : State :=
  let x := (tileAt s t).settle
  let n := (x.lockBuf.filter (·.ext)).length
  let s1 := if n = 0 then s else cntBy s (tilBlk t + 0x30) n
  let x1 := if x.state = 0x71 ∧ x.locked then
      { x with locked := false, lock := 0, lockBuf := [], pc := x.lockPc, lastPc := x.lockPc, broken := true, stBroken := true,
               stall := none, begun := false, paired := false, xaddr := none, rdGen := x.rdGen + 1 }
    else x
  tileHalted t (setTile t { x1 with state := 0x75, halted := x.state, stepping := 0, force := false } s1)

/-- A halt request set on a tile; FORCE as asked (R541, R543). -/
def askHalt (t : Nat) (force : Bool) (s : State) : State :=
  let s1 := setHaltReq t true s
  if force then setTile t { tileAt s1 t with force := true } s1 else s1

/-- The watchdog with FREEZE = 1 as a tile is released: raised to 1,024 ticks (R552). -/
def releaseWdog (s : State) (t : Nat) (x : Tile) : Tile :=
  if rdB s (tilBlk t + 0xC) 31 ∧ x.wdLoad ≠ 0 ∧ x.wd < 1024 then { x with wd := 1024 } else x

/-- A HALTED tile resumes the state it was halted from (R545). -/
def resumeTile (t : Nat) (s : State) : State :=
  let x := tileAt s t
  if x.state ≠ 0x75 ∨ tileFrozen s t then s
  else
    let s1 := setHaltReq t false s
    let x1 := { releaseWdog s t x with force := false, stepping := 0 }
    if x.item.isNone then
      setTile t (if x.saved.isSome then { x1 with state := 0x76, restoring := true } else { x1 with state := 0x70 }) s1
    else setTile t { x1 with state := x.halted } s1

/-- A HALTED tile with an item issues one unit, its halt request standing (R544). -/
def stepTile (t : Nat) (s : State) : State :=
  let x := tileAt s t
  if x.state ≠ 0x75 ∨ x.item.isNone ∨ tileFrozen s t then s
  else setTile t { releaseWdog s t x with state := x.halted, stepping := if x.halted = 0x71 then 1 else 2 } (setHaltReq t true s)

/-- Tiles of grove `g` whose bits are set in word `w`. -/
def bitTiles (g w : Nat) (v : Word) : List Nat := ((upto 32).filter (fun j => bit v j)).map (fun j => g * 512 + w * 32 + j)
/-- Tiles of a grove with a state other than the reset one. -/
def groveTiles (s : State) (g : Nat) : List Nat := skeys s.tiles (fun t _ => t / 512 = g)
/-- Halt requests set on every tile of a grove. -/
def haltAll (g : Nat) (s : State) : State :=
  (upto 16).foldl (fun t w => wr t (dbgBlk g + 0x200 + 4 * w) (BitVec.allOnes 32)) s

/-! ### Freeze (R549) -/

def dbgFreeze (g : Nat) : Nat := dbgBlk g + 0x308
/-- OPEN contracts that touch one of a grove's blocks. -/
def contractsTouched (s : State) (g : Nat) (m : Nat) : Nat :=
  ((openContracts s).filter (fun e => (upto 18).any (fun b => m.testBit b && touchesBlock e.2 (8 + g) b))).length
/-- DBG_FREEZE of a grove set to a mask: blocks newly frozen are reported, and freezing the tile array halts it. -/
def setFreeze (g : Nat) (m : Word) (s : State) : State :=
  let old := rd s (dbgFreeze g)
  let v := m &&& 0x3FFFF
  let s1 := wr s (dbgFreeze g) v
  let s2 := if bit v 8 ∧ !bit old 8 then haltAll g s1 else s1
  if v &&& ~~~old = 0 then s2
  else raise 0x0A04 1 0x006 [word g, v, word (contractsTouched s2 g v.toNat)] s2

/-! ### Triggers (R547, R548) -/

def prbTctrl (g : Nat) : Nat := dbgBlk g + 0x10C
def prbTriggered (s : State) (g : Nat) : Bool := rdB s (prbStatus g) 30
/-- A sample matches TVAL under TMASK; never with TMASK zero. -/
def trigMatch (s : State) (g v : Nat) : Bool :=
  let r (i : Nat) : Nat := (rd s (dbgBlk g + 0x110 + 4 * i)).toNat
  let m := r 0 + r 1 * 2 ^ 32
  m ≠ 0 && (maskSample s g v &&& m) = ((r 2 + r 3 * 2 ^ 32) &&& m)
/-- Groves that a pulse of grove `g` reaches. -/
def pulseTo (s : State) (g : Nat) : List Nat := (upto 8).filter (fun h => h ≠ g && dieState s (8 + h) = 0x30)
/-- The trigger fires: IDX and the samples still to take, then its actions. -/
def fireTrigger (g : Nat) (s : State) : State :=
  let c := rd s (prbTctrl g)
  let s1 := wrB s (prbStatus g) 30 true
  let s2 := if rdB s1 (prbCtrl g) 1 then s1
    else
      let post := rdF s1 (prbCtrl g) 31 15
      let a := wr s1 (dbgBlk g + 0x108) (word ((rdF s1 (prbStatus g) 16 0 + 131071) % 131072))
      if post = 0 then prbEnd g a else { a with fab := { a.fab with postLeft := sset none a.fab.postLeft g (some post) } }
  let s3 := if bit c 29 then
      (upto 512).foldl (fun t j => if inSet t g (fld c 27 24) j then setHaltReq (g * 512 + j) true t else t) s2
    else s2
  let s4 := if bit c 30 then setFreeze g (rd s3 (dbgFreeze g) ||| rd s3 (dbgBlk g + 0x304)) s3 else s3
  if bit c 31 then
    cnt { s4 with dbg := { s4.dbg with pulses := s4.dbg.pulses ++ (pulseTo s4 g).map (fun h => (g, h)) } } (dbgBase + 0x18)
  else s4
/-- The trigger of a grove may fire: the probes are armed and it has not fired since. -/
def trigReady (s : State) (g src : Nat) : Bool := prbArmed s g && !prbTriggered s g && rdF s (prbTctrl g) 1 0 = src
/-- DBG_PRB_TCTRL written; SRC = 2 fires the trigger (R547). -/
def writeTctrl (g : Nat) (v : Word) (s : State) : State :=
  let s1 := wr s (prbTctrl g) (v &&& word 0xEF000003)
  if trigReady s1 g 2 then fireTrigger g s1 else s1

/-! ### Dies, the Warden, and the undoing (R535, R550, R553) -/

/-- A die's clocks stopped: its DRAM enters self-refresh first. -/
def stopDie (d : Nat) (s : State) : State :=
  if s.dbg.stoppedDies.contains d then s
  else
    let s1 := (if isGroveDie d then [2 * (d - 8), 2 * (d - 8) + 1] else []).foldl (fun t c =>
      if chanState t c = 0x93 then setChanState c 0x94 (modChan c (fun x => { x with rows := [], hits := [] }) (writeBackAll (c / 2) t))
      else t) s
    raise 0x0A05 1 0x006 [word d, 1] { s1 with dbg := { s1.dbg with stoppedDies := s1.dbg.stoppedDies ++ [d] } }
def startDie (d : Nat) (s : State) : State :=
  if s.dbg.stoppedDies.contains d then
    raise 0x0A05 1 0x006 [word d, 0] { s with dbg := { s.dbg with stoppedDies := s.dbg.stoppedDies.filter (· ≠ d) } }
  else s

def dbgWardWdog : Nat := dbgBase + 0x14
/-- The active pair halted or resumed; on resume a frozen watchdog goes on from at least 1,024. -/
def haltWarden (on : Bool) (s : State) : State :=
  let s1 := wrB { s with dbg := { s.dbg with wardenHalted := on } } dbgBase 29 on
  if on ∨ !rdB s dbgWardWdog 31 ∨ 1024 ≤ rdF s dbgWardWdog 15 0 then s1 else wrF s1 dbgWardWdog 15 0 1024

/-- The attach mask set; each attached grove in its die's DBG_RUNCTL as far as the die has one (R551). -/
def setAttach (m : Nat) (s : State) : State :=
  (upto 8).foldl (fun t g => if dieAlive t (8 + g) then wrB t (dbgBlk g + 0x300) 1 (m.testBit g) else t) (wrF s dbgBase 7 0 m)

/-- The authority falls to `st`: halts, freezes, stops, attaches and trigger actions are undone first (R535). -/
def dropAuthority (st : Nat) (s : State) : State :=
  let s1 := (upto 8).foldl (fun t g =>
    let t1 := wr t (dbgFreeze g) 0
    let t2 := (upto 16).foldl (fun u w => wr u (dbgBlk g + 0x200 + 4 * w) 0) t1
    wr t2 (prbTctrl g) (rd t2 (prbTctrl g) &&& 0x0F000003)) s
  let s2 := s1.dbg.stoppedDies.foldl (fun t d => startDie d t) s1
  let s3 := (skeys s2.tiles (fun _ x => x.state = 0x75)).foldl (fun t k => resumeTile k t) s2
  let s4 := if s3.dbg.wardenHalted then haltWarden false s3 else s3
  let s5 := setAttach 0 s4
  wrF { s5 with dbg := { s5.dbg with
      ir := if [0x00, 0x03, 0x10, 0x11].contains s5.dbg.ir then 0xFF else s5.dbg.ir, extest := false } } dbgBase 23 16 st

/-! ### The access master (R539, R540) -/

/-- USER reaches the word at an address. -/
def userReach (a : Nat) : Bool :=
  let o := a % 0x800000
  pf1Reg a || pf1Aperture a || (decide (0x020000000000 ≤ a) && decide (a < 0x020200000000))
  || (decide (0x030010000000 ≤ a) && decide (a < 0x030018000000)
      && ((decide (0x200000 ≤ o) && decide (o < 0x400000)) || (decide (0x100000 ≤ o) && decide (o < 0x110000))))
/-- The address lies in the lower half of a register window. -/
def inRegWindow (a : Nat) : Bool :=
  ((decide (0x030000000000 ≤ a) && decide (a < 0x03000B000000)) || (decide (0x030010000000 ≤ a) && decide (a < 0x030018000000))
   || (decide (0x030020000000 ≤ a) && decide (a < 0x030024000000))) && winOff a < 0x800000

/-- The access ends: the command is answered with the words done. -/
def dbgDone (a : DbgAccess) (status : Nat) (s : State) : State :=
  finish (if a.write then 0x0A06 else 0x0A05) status (dbgAuth s) 0 (if a.write then [] else a.got)
    { s with dbg := { s.dbg with access := none } }
/-- A word is asked for; a request that its interface answers itself comes back with its status. -/
def dbgAsk (a : DbgAccess) (s : State) : Option Nat × State :=
  let dest := if !a.write ∧ !a.side ∧ inRegWindow a.addr then a.addr + 0x800000 else a.addr
  let s1 := sendReq { op := if a.write then 2 else 1, vc := 2, dst := 0, src := 0x006, addr := dest, len := 4,
                      data := if a.write then toBytes 4 (a.data.headD 0).toNat else [] }
              { s with dbg := { s.dbg with access := some a } }
  match s1.bough.inbox.find? (fun p => p.dst = 0x006 && (p.op = 4 || p.op = 5)) with
  | some p => (some p.status, { s1 with bough := { s1.bough with inbox := s1.bough.inbox.erase p } })
  | none => (none, s1)
/-- The next word of an access under way is asked for; its interface's own answer ends the access. -/
def dbgSend (a : DbgAccess) (s : State) : State :=
  match dbgAsk a s with
  | (some st, s1) => dbgDone a st s1
  | (none, s1) => s1
/-- An access begins. -/
def dbgStart (a : DbgAccess) (s : State) : Reply :=
  match dbgAsk a s with
  | (some st, s1) => .fail st 0 [] { s1 with dbg := { s1.dbg with access := none } }
  | (none, s1) => .run s1
/-- The word's answer: the next word, or the end. -/
def dbgAnswer (p : Packet) (s : State) : State :=
  match s.dbg.access with
  | none => s
  | some a =>
    let st := if p.cut then stAbsent else if p.poison then stPoison else p.status
    if st ≠ 0 then dbgDone a st s
    else
      let b := { a with addr := a.addr + 4, left := a.left - 1, data := a.data.drop 1,
                        got := if a.write then a.got else a.got ++ [word (ofBytes (p.data.take 4))] }
      if b.left = 0 then dbgDone b stOk s else dbgSend b s

end Sys2Proof.Machine
end

