-- ==== Sys2Proof/Machine/Enc.lean ====
section
/-!
DEFINITION. Meanings of the encryption commands and of the encryption unit's events (13 R393-R417).
-/
namespace Sys2Proof.Machine

/-- MEM_ENC_INFO. -/
def execMemEncInfo (b : Nat) (s : State) : Host.Outcome State Fault Refusal :=
  Next (serve 0x0781 allServed (fun r s =>
    let g := r.f 0 2 0
    if 8 ≤ r.w 0 then badArg 0
    else .ok (rd s (encBlk g) :: (upto 32).map (fun i => rd s (encBlk g + 0x100 + 4 * i))
      ++ (upto 9).map (fun i => rd s (encCnt g i))) s) b s)

/-- Two ranges of the window overlap. -/
def overlaps (a la b lb : Nat) : Bool := decide (a < b + lb ∧ b < a + la)
/-- A range in MiB overlaps a region or metadata area of the grove. -/
def rangeTaken (s : State) (g lo len : Nat) : Bool :=
  (upto 8).any (fun r => rgnState s g r ≠ 0xA0 &&
    (overlaps lo len (rgnBase s g r) (rgnSize s g r)
      || overlaps lo len (rgnMeta s g r) (metaMib (linesOf (rgnSize s g r)))))
/-- Every channel that a range in MiB touches is READY, and the range lies in the mapped capacity. -/
def rangeReady (s : State) (g lo len : Nat) : Bool :=
  decide ((lo + len) * mib ≤ cap0 s g + cap1 s g)
    && (rangeChannels s g (lo * mib) ((lo + len) * mib)).all (fun c => chanState s c = 0x93)

/-- Words that stand for BUILD bit `r` set or cleared. -/
def setBuild (g r : Nat) (b : Bool) (s : State) : State := wrB s (encBlk g) r b

/-- MEM_REGION_SETUP; `drbg`, the generator is seeded and healthy (R397, R415). -/
def execMemRegionSetup (b : Nat) (drbg : Bool) (s : State) : Host.Outcome State Fault Refusal :=
  Next (serve 0x0782 [0xA0] (fun q s =>
    let g := q.f 0 2 0
    let r := q.f 0 6 4
    let base := q.w 4
    let size := q.w 8
    let mta := q.w 12
    let n := linesOf size
    let d := treeDepth n
    let m := metaMib n
    let imp := (q.w 0).testBit 9
    let keys := if imp then Config.kwUnwrap (setVal s 1) g r ((q.args.drop 4).take 18)
                else some ((upto 16).map (fun i => Config.random (s.fresh + i)))
    if 2 ^ 18 ≤ base then badArg 4
    else if size = 0 ∨ 262144 < size then badArg 8
    else if 2 ^ 18 ≤ mta then badArg 12
    else if rangeTaken s g base size ∨ rangeTaken s g mta m ∨ overlaps base size mta m then refused 0x0781
    else if !rangeReady s g base size ∨ !rangeReady s g mta m then .no stNotReady 0x0782
    else if !imp ∧ !drbg then .no stNotReady 0x0787
    else match keys with
      | none => refused 0x0783
      | some k =>
        let s1 := wr (wr (wr s (rgnReg g r 0) (word base)) (rgnReg g r 1) (word size)) (rgnReg g r 2) (word mta)
        let st := d * 2 ^ 20 + (if (q.w 0).testBit 8 then 2 ^ 16 else 0) + b2n imp * 2 ^ 8 + 0xA1
        let s2 := setBuild g r true (wr s1 (rgnReg g r 3) (word st))
        .ok [word m, word d]
          { setRgn g r { dataKey := k.take 8, tagKey := k.drop 8, root := List.replicate 7 0 } s2 with
            fresh := if imp then s.fresh else s.fresh + 16 }) b (wrB s keyBase 5 drbg))

/-- Cells of a region's tree nodes that a build from node `j` of level `k` writes, no longer listed: they hold what
the build left. -/
def dropTree (g r k j : Nat) (s : State) : State :=
  let inside (l i : Nat) : Bool := decide (l ≤ k) && decide (i / 7 ^ (k - l) = j)
  let cell (key : Nat) : Bool :=
    let c := key / 2 ^ 34
    c / 2 = g && (match nodeAtOffset s g r (offsetOf s c (key / 4 % 2 ^ 32 * 64)) with
      | some (l, i) => inside l i
      | none => false)
  let line (key : Nat) : Bool :=
    key / 2 ^ 40 = g * 8 + r && decide (1 ≤ keyLevel key) && inside (keyLevel key) (keyIndex key)
  { s with dram := { s.dram with cells := sdrop s.dram.cells cell, cache := sdrop s.dram.cache line } }

/-- The root's slots after a build: the counters of the nodes of the level below, or zero where they are lines'. -/
def builtRoot (s : State) (g r : Nat) : List Nat :=
  let d := rgnDepth s g r
  let n := linesOf (rgnSize s g r)
  (upto 7).map (fun m => if d ≤ 1 ∨ levelNodes n (d - 1) ≤ m then 0 else builtCtr s g r (d - 1) m)

/-- A region's tree is written and the region becomes ACTIVE (R394). -/
def execTreeBuildDone (g r : Nat) (s : State) : Host.Outcome State Fault Refusal :=
  Next (if 8 ≤ g ∨ 8 ≤ r ∨ rgnState s g r ≠ 0xA1 ∨ !rdB s (encBlk g) r then s
    else
      let d := rgnDepth s g r
      let n := linesOf (rgnSize s g r)
      let s1 := dropTree g r d 0 (setRgn g r { rgnAt s g r with clock := nodesBelow n d, builds := [(d, 0, 0)] } s)
      let s2 := setRgn g r { rgnAt s1 g r with root := builtRoot s1 g r } s1
      raise 0x0781 0 (rmcStation g) [rgnWord g r, word (metaMib n), word d]
        (setBuild g r false (setRgnState g r 0xA2 s2)))

/-- The broken-list entries that a region's node and the nodes beneath it hold are freed. -/
def freeEntries (g r k j : Nat) (s : State) : State :=
  (upto 64).foldl (fun t i =>
    let w := rd t (brokenReg g i 0)
    if bit w 31 ∧ fld w 2 0 = r ∧ fld w 7 4 ≤ k ∧ (rd t (brokenReg g i 1)).toNat / 7 ^ (k - fld w 7 4) = j then
      wrF (wr (wr t (brokenReg g i 0) 0) (brokenReg g i 1) 0) (encBlk g) 22 16 (brokenUsed t g - 1)
    else t) s

/-- A region's registers and keys erased, its cache lines dropped, its list entries freed. -/
def freeRegion (g r : Nat) (s : State) : State :=
  let s1 := freeEntries g r 15 0 (dropCache g r (setRgn g r {} s))
  setBuild g r false (wr (wr (wr (wr s1 (rgnReg g r 0) 0) (rgnReg g r 1) 0) (rgnReg g r 2) 0) (rgnReg g r 3) (word 0xA0))

/-- MEM_REGION_CLEAR. -/
def execMemRegionClear (b : Nat) (s : State) : Host.Outcome State Fault Refusal :=
  Next (serve 0x0783 [0xA1, 0xA2, 0xA3] (fun q s => .ok [] (freeRegion (q.f 0 2 0) (q.f 0 6 4) s)) b s)

/-- MEM_REKEY_SUBTREE: a listed node of an ACTIVE region, or the root of a BROKEN one (R411). -/
def execMemRekeySubtree (b : Nat) (s : State) : Host.Outcome State Fault Refusal :=
  Next (serve 0x0784 [0xA2, 0xA3] (fun q s =>
    let g := q.f 0 2 0
    let r := q.f 0 6 4
    let k := q.f 4 3 0
    let j := q.w 8
    let listed := (upto 64).any (fun i =>
      rd s (brokenReg g i 0) = word (2 ^ 31 + k * 2 ^ 4 + r) && rd s (brokenReg g i 1) = word j)
    if k = 0 ∨ rgnDepth s g r < k then badArg 4
    else if levelNodes (linesOf (rgnSize s g r)) k ≤ j then badArg 8
    else if (rgnState s g r = 0xA3 ∧ k = rgnDepth s g r) ∨ (rgnState s g r = 0xA2 ∧ listed) then
      .ok [] (setBuild g r true (setRgn g r { rgnAt s g r with jobs := (rgnAt s g r).jobs ++ [(k, j)] } s))
    else refused 0x0784) b s)

/-- A rebuild ends (R411): every node beneath has a new counter and slots of zero, its list entries are gone, and a
rebuilt root returns the region to ACTIVE. The rebuild draws one counter for each node. -/
def execSubtreeRebuildDone (g r : Nat) (s : State) : Host.Outcome State Fault Refusal :=
  Next (if 8 ≤ g ∨ 8 ≤ r then s
    else match (rgnAt s g r).jobs with
      | [] => s
      | (k, j) :: rest =>
        let d := rgnDepth s g r
        let p := if k < d then getNode 16 g r (k + 1) (j / 7) s else (some [], s)
        let x := rgnAt p.2 g r
        let s1 := dropTree g r k j (setRgn g r { x with
          clock := x.clock + buildNodes p.2 g r k j, builds := (k, j, x.clock) :: x.builds, jobs := rest } p.2)
        let s2 := if d ≤ k then setRgn g r { rgnAt s1 g r with root := builtRoot s1 g r, flips := [] } s1
                  else if p.1.isSome then setCounter g r (k + 1) j (builtCtr s1 g r k j) s1 else s1
        let s3 := setBuild g r (rest ≠ []) (freeEntries g r k j s2)
        let s4 := if d ≤ k ∧ rgnState s3 g r = 0xA3 then setRgnState g r 0xA2 s3 else s3
        raise 0x0784 0 (rmcStation g) [rgnWord g r, word k, word j] s4)

/-- MEM_KEY_PROVISION; `verified`, the burnt slot reads back right (R396). -/
def execMemKeyProvision (b : Nat) (verified : Bool) (s : State) : Host.Outcome State Fault Refusal :=
  Next (serve 0x0785 runTrial (fun q s =>
    let e := q.f 0 3 0
    let h := (q.args.drop 1).take 12
    if 16 ≤ q.w 0 then badArg 0
    else if sget [] s.ward.keyHashes e ≠ [] then refused 0x0785
    else if e < setVal s 1 then refused 0x0786
    else
      let log (res : Nat) (t : State) : State := audit 4 0xFF q.booth res e (wordAt h 0) 0 t
      if verified then .ok [] (log 0 { s with ward := { s.ward with keyHashes := sset [] s.ward.keyHashes e h } })
      else .fail stFailed 0 [] (log 1 s)) b s)

/-! ### Accesses -/

/-- The entry lies in a region of the channel's grove and its cache lines fit (R405). -/
def regionKind (c : Nat) (k : DramEntry → Bool) (s : State) (e : DramEntry) : Bool :=
  k e && (match lineRegion s c e.line with
    | some r => cacheRoom s (c / 2) r (regionLine s (c / 2) r c e.line)
    | none => false)
/-- A region's entry given to its operation. -/
def inRegion (c : Nat) (f : Nat → DramEntry → State → State) (e : DramEntry) (s : State) : State :=
  match lineRegion s c e.line with
  | some r => f r e s
  | none => s

/-- The bank's next request, a read of a region's line, is served (R406). -/
def execEncLineRead (c bank : Nat) (s : State) : Host.Outcome State Fault Refusal :=
  Next (if 16 ≤ c then s else servePicked c bank (regionKind c (fun e => !e.write)) (inRegion c (encReadEntry c)) s)

/-- The bank's next request, a full write of a region's line or a poisoned one, is served (R407). -/
def execEncFullWrite (c bank : Nat) (s : State) : Host.Outcome State Fault Refusal :=
  Next (if 16 ≤ c then s
    else servePicked c bank (regionKind c (fun e => e.write && (e.poison || e.len = 64))) (inRegion c (encWriteEntry c)) s)

/-- The bank's next request, a partial write of a region's line, is served (R408). -/
def execEncPartialWrite (c bank : Nat) (s : State) : Host.Outcome State Fault Refusal :=
  Next (if 16 ≤ c then s
    else servePicked c bank (regionKind c (fun e => e.write && !e.poison && e.len ≠ 64)) (inRegion c (encPartEntry c)) s)

/-- The bank's next request lies in a metadata area: it reads zero or is discarded (R395). -/
def execMetaAccess (c bank : Nat) (s : State) : Host.Outcome State Fault Refusal :=
  Next (if 16 ≤ c then s
    else servePicked c bank (fun t e => (lineMeta t c e.line).isSome && (lineRegion t c e.line).isNone)
      (fun e t => encIdle e (if encGated t (c / 2) then clkBlk (chanDie c) + 0x14 else encCnt (c / 2) 4) t) s)

/-- The least recently used line of a full set that no cached line has as its parent leaves the cache (R405). -/
def execCounterCacheEvict (g set : Nat) (s : State) : Host.Outcome State Fault Refusal :=
  let keys := setKeys s g set
  let used (key : Nat) : Nat := ((sget none s.dram.cache key).map (·.used)).getD 0
  let free (key : Nat) : Bool :=
    let k := keyLevel key
    k ≤ 1 || (upto 7).all (fun m => (cached s g (keyRegion key) (k - 1) (7 * keyIndex key + m)).isNone)
  let pickLru (l : List Nat) : Option Nat :=
    l.foldl (fun a key => match a with
      | none => some key
      | some b => if used key < used b then some key else some b) none
  Next (if 8 ≤ g ∨ keys.length < 16 then s
    else match pickLru (keys.filter free) with
      | none => s
      | some key =>
        setCached g (keyRegion key) (keyLevel key) (keyIndex key) none
          (writeBackLine g (keyRegion key) (keyLevel key) (keyIndex key) s))

end Sys2Proof.Machine
end

