-- ==== Sys2Proof/Machine/PorterOps.lean ====
section
/-!
DEFINITION. Porter channels as operations: descriptors, beats, writes in order, completion, units (11 R333-R349).
-/
namespace Sys2Proof.Machine

/-! ### Channels (R333, R358) -/

/-- The station is a porter channel. -/
def isPorter (id : Nat) : Bool := kindOf id = .porter
/-- Channel number, and its register block. -/
def chanNo (c : Nat) : Nat := c % 256 - 0x10
def ptrBlk (c : Nat) : Nat :=
  if c / 256 = 0 then hubPtrBase + 0x100 * chanNo c else groveWin (c / 256 - 8) + 0x90000 + 0x100 * chanNo c
def ptrState (s : State) (c : Nat) : Nat := rdF s (ptrBlk c + 4) 7 0
def setPtrState (c st : Nat) (s : State) : State := wrF s (ptrBlk c + 4) 7 0 st
def ptrEn (s : State) (c : Nat) : Bool := rdB s (ptrBlk c) 31
/-- Guaranteed: GUAR = 1 on a transfer channel. -/
def ptrRecv (s : State) (c : Nat) : Bool := rdB s (ptrBlk c) 29
def ptrGuar (s : State) (c : Nat) : Bool := rdB s (ptrBlk c) 30 && !ptrRecv s c
def ptrOwner (s : State) (c : Nat) : Nat := rdF s (ptrBlk c) 28 28
def ptrPrio (s : State) (c : Nat) : Nat := rdF s (ptrBlk c) 25 24
def ptrAsid (s : State) (c : Nat) : Nat := rdF s (ptrBlk c) 23 16
def ptrProd (s : State) (c : Nat) : Nat := rdF s (ptrBlk c + 0x10) 15 0
def ptrCons (s : State) (c : Nat) : Nat := rdF s (ptrBlk c + 0x14) 15 0
def ringEmpty (s : State) (c : Nat) : Bool := ptrProd s c = ptrCons s c
/-- Porters of the die do nothing while gated, frozen, or in DEEP (R356). -/
def ptrOff (s : State) (c : Nat) : Bool :=
  !isPorter c || gated s (c / 256) (if c / 256 = 0 then 0 else 1) || (isGroveDie (c / 256) && frozen s (c / 256 - 8) 1)
    || (c / 256 ≠ 0 && dieState s (c / 256) = 0x32) || !dieAlive s (c / 256)
/-- Channels of a die. -/
def channelsOf (die : Nat) : List Nat := (upto (if die = 0 then 16 else 32)).map (fun i => die * 256 + 0x10 + i)
def movers (die : Nat) : Nat := if die = 0 then 4 else 8
/-- Counters of R358: 0 bytes, 1 descriptors, 2 errors, 3 pre-emptions, 4 bytes dropped. -/
def ptrCnt (c i n : Nat) (s : State) : State := if n = 0 then s else cntBy s (ptrBlk c + 0x40 + 4 * i) n

/-! ### Descriptors (R336, R337) -/

def dFlag (d : List Word) (i : Nat) : Bool := (wordAt d 0).testBit i
def dLen (d : List Word) : Nat := wordAt d 6
def dSrc (d : List Word) : Nat := word64At d 2
def dDst (d : List Word) : Nat := word64At d 4
def dSeg (d : List Word) : Nat := wordAt d 7
def dStride (d : List Word) : Nat := wordAt d 8
def dUser (d : List Word) : Nat := wordAt d 9
def dVirtSrc (d : List Word) : Bool := dFlag d 0
def dVirtDst (d : List Word) : Bool := dFlag d 1
def dUnit (d : List Word) : Bool := dFlag d 2
def dNotify (d : List Word) : Bool := dFlag d 3
def dHostSrc (d : List Word) : Bool := dFlag d 4
def dHostDst (d : List Word) : Bool := dFlag d 5

/-- A descriptor keeps the table of R337 for its channel's mode and die. -/
def ptrDescOk (s : State) (c : Nat) (d : List Word) : Bool :=
  let hub := c / 256 = 0
  let w0 := wordAt d 0
  let tail := (upto 6).all (fun i => wordAt d (10 + i) = 0)
  let sides := if hub then !dVirtSrc d && !dVirtDst d else !dHostSrc d && !dHostDst d
  if ptrRecv s c then
    nfld w0 31 4 = 0 && !w0.testBit 0 && !w0.testBit 2 && wordAt d 1 = 0 && dSrc d = 0 && decide (dDst d < 2 ^ 48)
      && dLen d ≠ 0 && tail && sides
  else
    nfld w0 31 6 = 0 && nfld (wordAt d 1) 31 12 = 0 && (dUnit d || nfld (wordAt d 1) 11 0 = 0)
      && (dHostSrc d || decide (dSrc d < 2 ^ 48)) && (dUnit d || dHostDst d || decide (dDst d < 2 ^ 48)) && dLen d ≠ 0
      && (!dUnit d || decide (dLen d ≤ 65536)) && tail && sides

/-- Destination address of transfer byte `o` (R338). -/
def dstAt (d : List Word) (o : Nat) : Nat :=
  if dSeg d = 0 then dDst d + o else dDst d + o / dSeg d * dStride d + o % dSeg d

/-- Bytes from transfer offset `o`, `n` at most, that cross no 256-byte boundary of the destination, of the offset, or
of a segment, nor of the source where there is one (R341). -/
def beatLen (d : List Word) (src dst : Bool) (o n : Nat) : Nat :=
  let l := min n (256 - o % 256)
  let l1 := if dSeg d = 0 then l else min l (dSeg d - o % dSeg d)
  let l2 := if src then min l1 (256 - (dSrc d + o) % 256) else l1
  if dst then min l2 (256 - dstAt d o % 256) else l2

/-- The read of descriptor CONS, as a station that does not accept provisional data (R336). -/
def readDesc (c : Nat) (s : State) : State :=
  let p := porterAt s c
  let a := rdF s (ptrBlk c + 8) 31 6 * 64 + rdF s (ptrBlk c + 0xC) 15 0 * 2 ^ 32 + 64 * (ptrCons s c % 2 ^ rdF s (ptrBlk c) 4 0)
  sendReq { op := 1, vc := 2, dst := 0, src := c, tag := 0xFFFF, addr := a % 2 ^ 48, len := 64 }
    (setPorter c { p with reading := true } s)

/-- A receive channel reads its next descriptor ahead as soon as it is posted (R340). -/
def readAhead (c : Nat) (s : State) : State :=
  let p := porterAt s c
  if ptrRecv s c ∧ (ptrState s c = 0x80 ∨ ptrState s c = 0x81) ∧ p.desc.isNone ∧ !p.reading ∧ !p.recording ∧ !p.noDesc
      ∧ !ringEmpty s c ∧ !ptrOff s c then readDesc c s
  else s

/-! ### Beats (R341, R345-R347) -/

/-- A beat added at the end, under a tag of its own. -/
def addBeat (p : Porter) (b : Beat) : Porter :=
  let t := (p.tag + 1) % 0xFF00
  { p with tag := t, beats := p.beats ++ [{ b with tag := t }] }

/-- Issuing stops with a status or a reason, from a transfer offset on: beats not yet writing from there are given up.
The lowest failure of a transfer stands, the first one of a unit. -/
def stopAt (c st off : Nat) (s : State) : State :=
  let p := porterAt s c
  let lower : Bool := p.stop.isNone || (!ptrRecv s c && decide (off < p.failAt))
  setPorter c { p with stop := if lower then some st else p.stop, failAt := if lower then off else p.failAt,
                       beats := p.beats.filter (fun b => decide (b.off < off) || b.st = .writing || b.st = .written) } s

/-- PTR_FAULT and PTR_FAULT_VA of a translation failure (R346). -/
def recordXfault (c cause : Nat) (dst : Bool) (va : Nat) (s : State) : State :=
  let b := ptrBlk c
  let w := setFld (setFld (setFld (rd s (b + 0x34)) 7 7 (b2n dst)) 6 6 (b2n dst)) 3 0 cause
  wr (wr (wr s (b + 0x34) w) (b + 0x38) (lo32 va)) (b + 0x3C) (word (nfld va 38 32))

/-- A beat's translation has failed: a transfer goes to FAULTED once its earlier beats are complete; a receive channel
discards the rest of the unit. -/
def beatFault (c off cause : Nat) (dst : Bool) (va : Nat) (s : State) : State :=
  if ptrRecv s c then stopAt c 0x25 off (recordXfault c cause dst va s)
  else
    let s1 := stopAt c 256 off s
    setPorter c { porterAt s1 c with xfault := some (cause, dst, va) } s1

def setBeat (c tag : Nat) (f : Beat → Beat) (s : State) : State :=
  let p := porterAt s c
  setPorter c { p with beats := p.beats.map (fun b => if b.tag = tag then f b else b) } s

/-- The host function of a hub channel may be reached (R335). -/
def hostUp (s : State) (c : Nat) : Bool :=
  s.pkg.endpointUp && (if ptrOwner s c = 0 then s.pkg.busMaster0 else s.pkg.busMaster1)

/-- A beat's read is issued, or, for a placement, its write. -/
def issueRead (c : Nat) (b : Beat) (s : State) : State :=
  let p := porterAt s c
  let d := p.desc.getD []
  let s1 := setBeat c b.tag (fun x => { x with st := .reading }) s
  if dHostSrc d then (if hostUp s c then s1 else stopAt c 0x06 b.off s)
  else sendReq { op := 1, vc := 2, dst := 0, src := c, tag := b.tag, addr := b.src % 2 ^ 48, len := b.len } s1

/-- A beat's write issued: WRP of a guaranteed channel, else WR; to a station as a packet of one unit (R339, R341,
R342). -/
def issueWrite (c : Nat) (b : Beat) (s : State) : State :=
  let p := porterAt s c
  let d := p.desc.getD []
  let g := ptrGuar s c
  let st : BeatState := if g ∧ !dHostDst d then .written else .writing
  let s1 := setBeat c b.tag (fun x => { x with st := st }) s
  let q : Packet := { op := if g then 3 else 2, vc := 2, dst := 0, src := c, tag := b.tag, addr := b.dst % 2 ^ 48, len := b.len,
                      data := b.data, poison := b.poison }
  if dHostDst d then (if hostUp s c then s1 else stopAt c 0x06 b.off s)
  else if dUnit d ∧ !ptrRecv s c then
    sendUnit { q with dst := nfld (wordAt d 1) 11 0, addr := b.off + b2n (dLen d ≤ b.off + b.len) * 65536 } s1
  else sendReq q s1

/-- Writes issued in offset order, each once its read data has arrived. -/
def issueWrites (c : Nat) (s : State) : State :=
  ((porterAt s c).beats.foldl (fun (a : Bool × State) b =>
    if !a.1 then a
    else match b.st with
      | .ready => (true, issueWrite c b a.2)
      | .writing => a
      | .written => a
      | _ => (false, a.2)) (true, s)).2

/-- Offset of the first beat not written. -/
def doneOff (p : Porter) : Nat := (p.beats.head?.map (·.off)).getD p.next

/-- Written beats leave; PTR_BYTES and PTR_DONE follow (R345). -/
def tidyBeats (c : Nat) (s : State) : State :=
  let p := porterAt s c
  let w := p.beats.filter (fun b => b.st = .written)
  let n := w.foldl (fun n b => n + b.len) 0
  let p1 := { p with beats := p.beats.filter (fun b => b.st ≠ .written), moved := p.moved + n,
                     placed := w.foldl (fun m b => max m (b.off + b.len)) p.placed }
  let s1 := ptrCnt c 0 n (setPorter c p1 s)
  if ptrRecv s c then s1 else wr s1 (ptrBlk c + 0x30) (word (if p1.stop.isSome then min p1.failAt (doneOff p1) else doneOff p1))

/-- A channel waits for a mover in a way that pre-empts this one (R344). -/
def preemptDue (s : State) (c : Nat) : Bool :=
  !ptrGuar s c && (channelsOf (c / 256)).any (fun k =>
    ptrState s k = 0x82 && k ≠ c && (ptrGuar s k || decide (ptrPrio s k < ptrPrio s c)
      || (ptrPrio s k = ptrPrio s c && decide (65536 ≤ (porterAt s c).moved))))
  && decide (movers (c / 256) ≤ ((channelsOf (c / 256)).filter (fun k => (porterAt s k).mover)).length)

/-- A side of a beat translated, or its address taken as it is. -/
def sideAddr (c : Nat) (virt dst : Bool) (a : Nat) (s : State) : XRes × State :=
  if virt then translate (c / 256 - 8) (ptrAsid s c) a dst (.porter c dst) s else (.ok a, s)

/-- The destination side of a beat, then its read, or its write for a placement. -/
def beatDst (c : Nat) (b : Beat) (s : State) : State :=
  let d := (porterAt s c).desc.getD []
  let a := dstAt d b.off
  let go (x : Nat) (t : State) : State :=
    let b1 := { b with dst := x }
    let t1 := setBeat c b.tag (fun y => { y with dst := x, st := .ready }) t
    if ptrRecv t c then issueWrite c { b1 with st := .ready } t1 else issueRead c b1 t1
  if dUnit d ∧ !ptrRecv s c then go 0 s
  else match sideAddr c (dVirtDst d) true a s with
    | (.ok x, s1) => go x s1
    | (.fault k, s1) => beatFault c b.off k true a s1
    | (.wait, s1) => setBeat c b.tag (fun y => { y with st := .xdst, walk := s.xlt.walkId }) s1

/-- The source side of a beat, then its destination. -/
def beatSrc (c : Nat) (b : Beat) (s : State) : State :=
  let d := (porterAt s c).desc.getD []
  let a := dSrc d + b.off
  match sideAddr c (dVirtSrc d) false a s with
  | (.ok x, s1) => beatDst c { b with src := x } (setBeat c b.tag (fun y => { y with src := x }) s1)
  | (.fault k, s1) => beatFault c b.off k false a s1
  | (.wait, s1) => setBeat c b.tag (fun y => { y with st := .xsrc, walk := s.xlt.walkId }) s1

/-- A translation of the channel is awaited. -/
def xlating (p : Porter) : Bool := p.beats.any (fun b => b.st = .xsrc || b.st = .xdst)

/-- One more beat of a transfer made, if it may be. -/
def makeBeat (c : Nat) (s : State) : State :=
  let p := porterAt s c
  match p.desc with
  | none => s
  | some d =>
    if ptrRecv s c ∨ ptrOff s c ∨ ptrState s c ≠ 0x81 ∨ !p.mover ∨ p.stop.isSome ∨ dLen d ≤ p.next ∨ 16 ≤ p.beats.length ∨ xlating p then s
    else if p.next ≠ 0 ∧ p.next % 4096 = 0 ∧ preemptDue s c then setPorter c { p with stop := some 257, failAt := p.next } s
    else
      let n := beatLen d true (!dUnit d) p.next (dLen d - p.next)
      let p1 := addBeat p { off := p.next, len := n, st := .xsrc }
      match p1.beats.getLast? with
      | some b => beatSrc c b (setPorter c { p1 with next := p.next + n } s)
      | none => s

/-- A transfer goes on as far as it can. -/
def pumpPorter (c : Nat) (s : State) : State := (upto 17).foldl (fun t _ => makeBeat c t) (tidyBeats c (issueWrites c s))

/-! ### Receive channels (R340) -/

/-- Placements of unit bytes [off, off + data) within the buffer made as beats. -/
def placements (d : List Word) : Nat → Nat → List Byte → List (Nat × List Byte)
  | 0, _, _ => []
  | fuel + 1, off, data =>
    if data.isEmpty then []
    else
      let n := beatLen d false true off data.length
      (off, data.take n) :: placements d fuel (off + n) (data.drop n)

/-- Placements whose translation has not been asked for are, strictly in their order. -/
def pumpPlaces (c : Nat) (s : State) : State :=
  (upto 300).foldl (fun t _ =>
    let p := porterAt t c
    if p.stop.isSome then setPorter c { p with beats := p.beats.filter (fun b => b.st = .writing || b.st = .written) } t
    else match p.beats.find? (fun b => b.st ≠ .writing && b.st ≠ .written) with
      | some b => if b.st = .reading then beatDst c b (setBeat c b.tag (fun y => { y with st := .ready }) t) else t
      | none => t) s

/-! ### Completion (R342, R347, R349) -/

/-- The reason of a unit closed before its LAST packet, its status ABORTED_PEER (R340). -/
def unitClosed : Nat := 259

/-- The descriptor in hand is at its end: status and DONE. -/
def closingOf (s : State) (c : Nat) : Option (Nat × Nat) :=
  let p := porterAt s c
  match p.desc with
  | none =>
    match p.stop with
    | some st => if st < 256 ∧ !p.reading ∧ !p.noDesc then some (st, 0) else none
    | none => none
  | some d =>
    if !p.beats.isEmpty then none
    else if ptrRecv s c then
      (if !p.last then none
       else match p.stop with
         | some st => some (if st = unitClosed then 0x20 else st, if st = unitClosed ∨ st = 0x22 then p.placed else p.failAt)
         | none => some (if p.overrun then 0x21 else 0, p.placed))
    else match p.stop with
      | some st => if st < 256 then some (st, p.failAt) else none
      | none => if dLen d ≤ p.next then some (0, dLen d) else none

/-- The notify of a completion (R349). -/
def notifyPorter (c : Nat) (s : State) : State :=
  let b := ptrBlk c
  if c / 256 = 0 then
    (if ptrOwner s c = 0 then raiseMsix 0 (17 + chanNo c) s else raiseMsix 1 (32 + chanNo c) s)
  else if rdB s (b + 0x28) 31 then
    sendReq { op := 3, vc := 2, dst := 0, src := c, tag := 0xFFFD, addr := rdF s (b + 0x24) 31 2 * 4 + rdF s (b + 0x28) 15 0 * 2 ^ 32,
              len := 4, data := toBytes 4 (rd s (b + 0x20)).toNat } s
  else s

/-- CONS advances; the channel goes on with its next descriptor, parks, idles or turns off (R336, R348). -/
def advanceCons (c : Nat) (s : State) : State :=
  let s1 := wrF s (ptrBlk c + 0x14) 15 0 (ptrCons s c + 1)
  let p := porterAt s1 c
  if p.offDue ∧ ptrState s1 c ≠ 0x85 then setPtrState c 0x85 (setPorter c { p with offDue := false, mover := false } s1)
  else if ptrState s1 c = 0x84 ∨ ptrState s1 c = 0x85 then s1
  else if ptrRecv s1 c then readAhead c (setPtrState c 0x80 s1)
  else if ringEmpty s1 c then setPtrState c 0x80 (setPorter c { p with mover := false } s1)
  else if !p.mover then setPtrState c 0x82 s1
  else if preemptDue s1 c then ptrCnt c 3 1 (setPtrState c 0x82 (setPorter c { p with mover := false } s1))
  else readDesc c s1

/-- A descriptor completes with a status: counts, its record, and the channel's state (R347, R349). -/
def completeDesc (c st done : Nat) (s : State) : State :=
  let p := porterAt s c
  let b := ptrBlk c
  let user := ((p.desc.map dUser).getD 0)
  let note := (p.desc.map dNotify).getD false
  let recv := ptrRecv s c
  let tb := replicaTb s (c / 256) (rdF s b 10 8)
  let valid := tb.run
  let s1 := ptrCnt c 1 1 s
  let s2 := if st = 0 then s1 else wrF (ptrCnt c 2 1 s1) (b + 0x34) 23 16 st
  let halt : Bool := (!recv || st = 0x22) && st ≠ 0 && st ≠ 0x24
  let s3 := if halt then setPtrState c 0x84 s2 else s2
  let s4 := if halt ∧ st ≠ 0x22 then raise 0x08A2 2 c [word c, word st, word done] s3 else s3
  let cq := rdB s4 (b + 0x1C) 31
  let x := { porterAt s4 c with desc := none, next := 0, beats := [], stop := none, failAt := 0, xfault := none, sender := none,
                                placed := 0, last := false, overrun := false, noDesc := false, recording := cq,
                                notify := cq && note, mover := p.mover && !halt }
  let s5 := wrB (setPorter c x s4) (b + 4) 8 false
  if cq then
    let k := (rd s5 (b + 0x20)).toNat
    let a := rdF s5 (b + 0x18) 31 4 * 16 + rdF s5 (b + 0x1C) 15 0 * 2 ^ 32 + 16 * (k % 2 ^ rdF s5 (b + 0x1C) 20 16)
    let w : List Word := [ word (ptrCons s5 c + st * 2 ^ 16 + chanNo c * 2 ^ 24 + b2n valid * 2 ^ 31), word done, word user,
                           word (if valid then tb.ns else 0) ]
    sendReq { op := 2, vc := 2, dst := 0, src := c, tag := 0xFFFE, addr := a % 2 ^ 48, len := 16, data := wordsToBytes w }
      (wr s5 (b + 0x20) (rd s5 (b + 0x20) + 1))
  else advanceCons c (if note then notifyPorter c s5 else s5)

/-- An open unit is closed with ABORTED_PEER, unless a failure came first (R340, R347). -/
def closeUnit (c : Nat) (s : State) : State :=
  let p := porterAt s c
  if !rdB s (ptrBlk c + 4) 8 ∨ p.last then s
  else if p.noDesc then
    readAhead c (setPtrState c 0x80 (wrB (setPorter c { p with noDesc := false, sender := none } s) (ptrBlk c + 4) 8 false))
  else
    setPorter c { p with last := true, stop := some (p.stop.getD unitClosed), failAt := if p.stop.isSome then p.failAt else p.placed,
                         beats := p.beats.filter (fun b => b.st = .writing || b.st = .written) } s

/-! ### The die (R356) -/

/-- Gating or DEEP: each channel stops at a beat boundary, recording as in R345, and enters OFF. -/
def portersOff (die : Nat) (s : State) : State :=
  (channelsOf die).foldl (fun t c =>
    let p := porterAt t c
    if ptrState t c = 0x85 ∨ p.before.isSome then t
    else setPtrState c 0x85 (setPorter c { p with before := some (ptrState t c) } t)) s
/-- Ungating, or RUN: each channel resumes from its record. -/
def portersBack (die : Nat) (s : State) : State :=
  (channelsOf die).foldl (fun t c =>
    let p := porterAt t c
    match p.before with
    | some st => pumpPorter c (setPtrState c st (setPorter c { p with before := none } t))
    | none => t) s
/-- The translation unit of a grove runs again: the translations that waited for it are asked for (R356). -/
def retryXlate (g : Nat) (s : State) : State :=
  (channelsOf (8 + g)).foldl (fun t c =>
    match (porterAt t c).beats.find? (fun b => (b.st = .xsrc || b.st = .xdst)
        && !t.xlt.walks.any (fun w => w.id = b.walk && w.user = .porter c (b.st = .xdst))) with
    | some b =>
      let t1 := if b.st = .xsrc then beatSrc c b t else beatDst c b t
      if ptrRecv t c then pumpPlaces c t1 else pumpPorter c t1
    | none => t) s
/-- A die reset: channels and rings are lost, nothing is reported. -/
def portersReset (die : Nat) (s : State) : State :=
  let lo := ptrBlk (die * 256 + 0x10)
  let s1 := dropRegs s lo (lo + (if die = 0 then 0x1000 else 0x2000))
  { s1 with porters := sdrop s1.porters (fun c => c / 256 = die) }

end Sys2Proof.Machine
end

