-- ==== Sys2Proof/Machine/DieOps.lean ====
section
/-!
DEFINITION. The power states of grove and lane dies as operations (03 R94-R96; 14 R427, R452).
-/
namespace Sys2Proof.Machine

/-- An OPEN contract touches a block that DEEP stops on a die (R95, R96). -/
def deepTouched (s : State) (d : Nat) : Bool :=
  if isLaneDie d then dieTouched s d (upto 17)
  else dieTouched s d [0, 1, 3, 4, 8] || (upto 17).any (fun r => regionTouched s (d - 8) r)

/-- Every lane of a lane die powered down, its kept settings untouched (R452). -/
def lanesDown (d : Nat) (s : State) : State :=
  let s1 := (upto 128).foldl (fun t i =>
    let n := 128 * (d - 1) + i
    if lanState t n = 0xB0 then t
    else wr t (lanStatus n) (setFld (setFld (setFld (rd t (lanStatus n)) 23 16 0xB0) 11 8 0) 2 0 3)) s
  (upto 128).foldl (fun t i =>
    let p := 16 * (d - 1) + i / 8
    if portState t p (i % 8) = 0xB8 then t else setPortState p (i % 8) 0xB9 t) s1

/-- The lanes of a lane die brought back as the Warden keeps them, with LOS and LOL set until they clear (R427). -/
def lanesBack (d : Nat) (s : State) : State :=
  let s1 := (upto 128).foldl (fun t i =>
    let n := 128 * (d - 1) + i
    match sget none t.lan.kept (lanStatus n) with
    | some v => wr t (lanStatus n) (setFld v 2 0 3)
    | none => t) s
  (upto 128).foldl (fun t i =>
    let p := 16 * (d - 1) + i / 8
    if portSpeed t p (i % 8) = 9 then wrF t (penCfg p (i % 8)) 15 14 3 else t) s1

/-- Tiles and channels of a die whose clocks run again continue from where they stopped (08 R277; 11 R356). -/
def blocksBack (d : Nat) (s : State) : State :=
  let s1 := if isGroveDie d ∧ !gated s d 8 then tilesBack (d - 8) s else s
  if (isGroveDie d ∧ !gated s1 d 1) ∨ (d = 0 ∧ !gated s1 0 0) then portersBack d s1 else s1

/-- Gate bits set or cleared together; a block whose bit is set again runs on from where it stopped (R88). -/
def setGates (die : Nat) (m : Nat) (enable : Bool) (s : State) : State :=
  let a := clkBlk die + 0x10
  let v := if enable then rd s a ||| word m else rd s a &&& ~~~(word m)
  let s1 := wr s a v
  let s2 := { s1 with clk := { s1.clk with
      stopped := s1.clk.stopped.filter (fun k => !(k / 32 = die && bit v (k % 32))) } }
  let port := if die = 0 then 0 else 1
  if enable then
    (let s3 := if isGroveDie die ∧ m.testBit 2 then retryXlate (die - 8) s2 else s2
     if dieState s2 die = 0x32 then s3 else blocksBack die s3)
  else if !isLaneDie die ∧ m.testBit port then portersOff die s2 else s2

/-- A die in RUN, SLEEP or DEEP moved to another of these states (R94). -/
def toPower (d st : Nat) (s : State) : State :=
  let old := dieState s d
  if old = st then s
  else
    let s1 := setDieState d st s
    if !isLaneDie d then (if st = 0x32 then portersOff d s1 else if old = 0x32 then blocksBack d s1 else s1)
    else if st = 0x32 then lanesDown d s1 else if old = 0x32 then lanesBack d s1 else s1


end Sys2Proof.Machine
end

