-- ==== Sys2Proof/Machine/TalOps.lean ====
section
/-!
DEFINITION. The Tally as operations: the limit, the floor, the ladder, the start enables and the thermal levels (16
R496-R508).
-/
namespace Sys2Proof.Machine

def talStatus : Nat := talBase
/-- Low word of energy counter `i`: rails 0-47, classes 48-55, overhead 56, package 57 (R510). -/
def eReg (i : Nat) : Nat := if i < 48 then talBase + 0x100 + 8 * i else talBase + 0x300 + 8 * (i - 48)
def energy (s : State) (i : Nat) : Nat := (rd s (eReg i)).toNat + (rd s (eReg i + 4)).toNat * 2 ^ 32
def setEnergy (i n : Nat) (s : State) : State := wr (wr s (eReg i) (lo32 n)) (eReg i + 4) (hi32 n)
/-- TAL_TEMP of sensor `t`; its temperature in 1/8 degree when valid. -/
def tempReg (t : Nat) : Nat := talBase + 0x400 + 4 * t
def tempOf (s : State) (t : Nat) : Option Int :=
  let w := rd s (tempReg t)
  if bit w 31 then some (sint 16 (fld w 15 0)) else none
def tempWord (t : Option Int) : Word :=
  match t with
  | some v => word (2 ^ 31 + uint 16 v)
  | none => 0

/-- Rungs in force. -/
def rungOf (s : State) : Nat := rdF s talStatus 3 0

/-! ### The limit and the floor (R498-R500) -/

/-- SUSTAIN_MW: the remaining energy over the remaining outage, 600 s once it has ended. -/
def sustainMw (s : State) : Nat :=
  let t := s.tal
  let left := t.eRem * 1000000 - t.eUsed
  let us := if t.tOut * 1000000 ≤ t.tEl then 600000000 else t.tOut * 1000000 - t.tEl
  left * 1000 / us

/-- LIMIT (R500). -/
def limitMw (s : State) : Nat :=
  let t := s.tal
  let a := if t.supplyMw = 0 then t.plan.pkgLimit else min t.plan.pkgLimit t.supplyMw
  if t.supply = 2 then min a (sustainMw s) else a

/-- The floor (R499). -/
def floorMw (s : State) : Nat := s.tal.plan.base + reservedMw s

/-- An E0 contract's power may be reserved (R498). -/
def energyFits (s : State) (mw : Nat) : Bool :=
  decide (reservedMw s + mw ≤ s.tal.plan.e0Cap ∧ reservedMw s + mw + s.tal.plan.base ≤ limitMw s)

/-- The Tally's registers brought up to its state. -/
def showTally (s : State) : State :=
  let t := s.tal
  let v := t.supply * 2 ^ 30 + b2n t.stale * 2 ^ 29 + b2n t.threat * 2 ^ 28 + b2n (t.level = 3) * 2 ^ 27
    + t.level * 2 ^ 25 + b2n t.exhausted * 2 ^ 24 + (t.heldLadder ||| t.heldAllow) % 256 * 2 ^ 16 + rungOf s
  wr (wr (wr (wr s talStatus (word v)) (talBase + 4) (word (limitMw s))) (talBase + 8) (word (floorMw s)))
    (talBase + 0xC) (word (reservedMw s))

/-! ### The rungs (R501, R503) -/

/-- A die the Tally's actions skip without count. -/
def outOfReach (s : State) (d : Nat) : Bool := [0x33, 0x34, 0x35].contains (dieState s d)

/-- DSP_ECLASS_EN of every grove within reach, from what the ladder and the allowances hold cleared (R496). -/
def writeEnables (s : State) : State :=
  (upto 8).foldl (fun t g =>
    if dieAlive t (8 + g) then wr t (dspBlk g + 0x10) (word (255 - (t.tal.heldLadder ||| t.tal.heldAllow) % 256)) else t) s

def setTileCap (n : Nat) (s : State) : State :=
  (upto 8).foldl (fun t g => if dieAlive t (8 + g) then wr t (dspBlk g + 0x14) (word n) else t) s

def setHeldLadder (m : Nat) (s : State) : State := writeEnables { s with tal := { s.tal with heldLadder := m } }

/-- What an action came to: done with an undo, refused and counted, or skipped. -/
inductive ActResult where
  | done (a : RungAct) (s : State)
  | refused
  | skipped

/-- One target of rung 3: a fabric user loop stopped (R501, R120). -/
def stopLoop (g loop : Nat) (s : State) : ActResult :=
  if outOfReach s (8 + g) ∨ !rdB s (clkBlk (8 + g)) loop then .skipped
  else if (upto 17).any (fun r => loopClocks s g loop r && regionTouched s g r) then .refused
  else .done (.ful g loop) (wrB s (clkBlk (8 + g)) loop false)

/-- One target of rung 4: a die put in DEEP. -/
def deepDie (d : Nat) (s : State) : ActResult :=
  if outOfReach s d ∨ dieState s d = 0x32 then .skipped
  else if deepTouched s d then .refused
  else .done (.deep d) (toPower d 0x32 s)

/-- One target of rung 5: a DRAM channel gated. -/
def gateChannel (c : Nat) (s : State) : ActResult :=
  let d := 8 + c / 2
  let blk := 3 + c % 2
  if outOfReach s d ∨ gated s d blk then .skipped
  else if blockTouched s d blk then .refused
  else .done (.chan c) (setGates d (2 ^ blk) false s)

/-- One target of rung 6: a port substitution. -/
def substitute (key cfg : Nat) (s : State) : ActResult :=
  let p := key / 8
  let k := key % 8
  if outOfReach s (engineDie p) then .skipped
  else if (portRefusal s p k cfg).isSome then .refused
  else
    let s1 := applyPort p k cfg s
    .done (.port key (setFld (rd s (penCfg p k)) 15 14 0) (setFld (word cfg) 15 14 0)) s1

/-- The targets of a rung under the plan. -/
def rungTargets (s : State) (n : Nat) : List (State → ActResult) :=
  let p := s.tal.plan
  match n with
  | 3 => (upto 192).filterMap (fun i =>
      if (p.fulStop.getD (i / 24) 0).testBit (i % 24) then some (stopLoop (i / 24) (i % 24)) else none)
  | 4 => (upto 12).filterMap (fun i =>
      if i < 8 then (if p.deepGroves.testBit i then some (deepDie (8 + i)) else none)
      else if p.deepLanes.testBit (i - 8) then some (deepDie (i - 7)) else none)
  | 5 => (upto 16).filterMap (fun i => if p.chanMask.testBit i then some (gateChannel i) else none)
  | 6 => p.subs.map (fun e => substitute e.1 e.2)
  | _ => []

/-- The actions of a rung, with what they changed and how many were refused. -/
def runActions (l : List (State → ActResult)) (s : State) : List RungAct × Nat × State :=
  l.foldl (fun a f =>
    match f a.2.2 with
    | .done x t => (a.1 ++ [x], a.2.1, t)
    | .refused => (a.1, a.2.1 + 1, a.2.2)
    | .skipped => a) ([], 0, s)

/-- NRG_RUNG. -/
def raiseRung (old new : Nat) (s : State) : State := raise 0x0601 0 5 [word old, word new, word s.tal.lastP] s

/-- The next rung taken (R501, R503); nothing with all six in force. -/
def takeRung (s : State) : State :=
  let n := rungOf s + 1
  if 6 < n then s
  else
    let s1 := if n = 1 then setHeldLadder (s.tal.heldLadder ||| 0xF0) s
      else if n = 2 then setTileCap s.tal.plan.tileCapMin (setHeldLadder (s.tal.heldLadder ||| 0x0E) s) else s
    let r := runActions (rungTargets s1 n) s1
    let s2 := { r.2.2 with tal := { r.2.2.tal with rungs := sset [] r.2.2.tal.rungs n r.1 } }
    let s3 := cntBy (cnt (wrF s2 talStatus 3 0 n) (talBase + 0x20)) (talBase + 0x28) r.2.1
    let s4 := raiseRung (n - 1) n s3
    if r.2.1 = 0 then s4 else raise 0x0609 1 5 [word n, word r.2.1] s4

/-- One action undone, unless a command has changed its target in between (R503). -/
def undoAct (a : RungAct) (s : State) : State :=
  match a with
  | .ful g loop => if outOfReach s (8 + g) then s else wrB s (clkBlk (8 + g)) loop true
  | .deep d => if dieState s d = 0x32 then toPower d 0x30 s else s
  | .chan c => if outOfReach s (8 + c / 2) then s else setGates (8 + c / 2) (2 ^ (3 + c % 2)) true s
  | .port key prior applied =>
    let p := key / 8
    let k := key % 8
    if outOfReach s (engineDie p) ∨ setFld (rd s (penCfg p k)) 15 14 0 ≠ applied then s
    else applyPort p k prior.toNat s

/-- The highest rung undone. -/
def undoRung (s : State) : State :=
  let n := rungOf s
  if n = 0 then s
  else
    let s1 := if n = 1 then setHeldLadder 0 s
      else if n = 2 then setTileCap 512 (setHeldLadder 0xF0 s) else s
    let s2 := (sget [] s1.tal.rungs n).foldl (fun t a => undoAct a t) s1
    let s3 := { s2 with tal := { s2.tal with rungs := sset [] s2.tal.rungs n [] } }
    raiseRung n (n - 1) (cnt (wrF s3 talStatus 3 0 (n - 1)) (talBase + 0x24))

/-- A step repeated. -/
def times {α : Type} : Nat → (α → α) → α → α
  | 0, _, x => x
  | k + 1, f, x => times k f (f x)

/-- Every remaining rung at once (R499, R505). -/
def takeAll (s : State) : State := times (6 - rungOf s) takeRung s

/-- The floor compared with LIMIT, at an epoch boundary and at every change of the limit, the plan or RESERVED
(R499). -/
def floorCheck (s : State) : State :=
  let bad := decide (limitMw s < floorMw s)
  let d := [word (floorMw s), word (limitMw s), word (reservedMw s)]
  if bad = s.tal.threat then showTally s
  else
    let s1 := { s with tal := { s.tal with threat := bad } }
    showTally (if bad then takeAll (raise 0x0602 3 5 d s1) else raise 0x0603 0 5 d s1)

/-! ### Temperature and fans (R505, R508) -/

/-- T_MAX in 1/8 degree: grade I (TGRADE 1) 100, grade X (TGRADE 2) 110 degrees (01 R39, R40; 16 R505). -/
def tMax : Int := if Config.tempGrade % 16 = 2 then 880 else 800
def levelAt (n : Nat) : Int := if n = 1 then tMax - 80 else if n = 2 then tMax - 40 else tMax

/-- The hottest valid sensor of a set and its temperature. -/
def hottest (s : State) (l : List Nat) : Option (Nat × Int) :=
  l.foldl (fun best i =>
    match tempOf s i, best with
    | some t, some (_, u) => if u < t then some (i, t) else best
    | some t, none => some (i, t)
    | none, _ => best) none

/-- The level for a temperature: a level holds until 3 degrees below where it is reached. -/
def levelFor (cur : Nat) (t : Int) : Nat :=
  (upto 4).foldl (fun l n =>
    if 1 ≤ n ∧ (levelAt n ≤ t ∨ (n ≤ cur ∧ levelAt n - 24 < t)) then n else l) 0

/-- The thermal level brought up to the hottest valid on-die sensor; each level reached raises NRG_THERMAL, and CRIT
applies every remaining rung. -/
def thermal (s : State) : State :=
  match hottest s (upto 42) with
  | none => s
  | some (i, t) =>
    let old := s.tal.level
    let new := levelFor old t
    let s1 := { s with tal := { s.tal with level := new } }
    let s2 := (upto 4).foldl (fun u n =>
      if old < n ∧ n ≤ new then raise 0x0605 n 5 [word n, word i, word (uint 32 t)] u else u) s1
    if old < 3 ∧ new = 3 then takeAll s2 else s2

/-- Duty of a curve at a temperature in 1/8 degree, interpolated between its points. -/
def curve : List (Int × Nat) → Int → Nat
  | [], _ => 0
  | [p], _ => p.2
  | p :: q :: r, t =>
    if t ≤ p.1 * 8 then p.2
    else if t < q.1 * 8 then ((p.2 : Int) + ((q.2 : Int) - p.2) * (t - p.1 * 8) / ((q.1 - p.1) * 8)).toNat
    else curve (q :: r) t

/-- Duty of a fan: 100 percent at WARN and above or while another fan is at fault. -/
def fanDuty (s : State) (f : Nat) : Nat :=
  let x := sget {} s.tal.fans f
  if !x.enable then 0
  else if 1 ≤ s.tal.level ∨ (upto 8).any (fun g => g ≠ f && (sget {} s.tal.fans g).fault) then 100
  else match hottest s ((upto 74).filter (fun i => x.mask.testBit i)) with
    | some (_, t) => curve x.points t
    | none => (x.points.headD (0, 0)).2

def setFans (s : State) : State :=
  (upto 8).foldl (fun t f => { t with tal := { t.tal with fans := smod {} t.tal.fans f (fun x => { x with duty := fanDuty t f }) } }) s

end Sys2Proof.Machine
end

