-- ==== Sys2Proof/Machine/Flow.lean ====
section
/-!
DEFINITION. Flow contracts: the admission calculation, opening, closing, rerouting and breaking, and the FLOW
commands (06 R193-R205; 07 R215).
-/
namespace Sys2Proof.Machine

/-! ### The admission calculation (R197, R198; 07 R215) -/

/-- Width in wires of the unit an output crosses; full where it crosses none. -/
def outWidth (s : State) (o : Output) : Nat :=
  match outputUnit o with
  | some (d, u) => max 1 (unitWidth s d u)
  | none => 1024

/-- Cost of an output in CK_BOUGH cycles. -/
def outCost (s : State) (o : Output) : Nat :=
  match o with
  | .hop _ _ _ _ => 1
  | .turnIn _ _ => 2
  | .turnOut _ _ => 2
  | .trunk _ _ => 10 + 1024 / outWidth s o
  | .lane _ _ _ => 9 + 1024 / outWidth s o
  | .eject _ => 2

/-- interference(k) on an output. -/
def interference (s : State) (o : Output) (k : Nat) : Nat := (3 * k + (3 * k + 3 + 15) / 16) * 1024 / outWidth s o

/-- Admitted contracts that use an output. -/
def usersOf (cs : List (Nat × Contract)) (o : Output) : List (Nat × Contract) := cs.filter (fun e => e.2.path.contains o)

/-- Bits and rate, in units of 10 kb/s, whose quotient is an engine's source allowance beside 160 ns: one unit at the
rate of its slowest Ethernet port, or 64 KiB at a raw lane's line rate; the slower of the two. -/
def engineTerm (s : State) (p unit : Nat) : Nat × Nat :=
  let eth := engineRates s p
  let raws := ((upto 8).filter (fun k => portSpeed s p k = 9)).map (fun k =>
    (524288, [1, 125000, 1031250, 2578125].getD (rdF s (penCfg p k) 25 24) 1))
  let all := (if eth = [] then [] else [(8 * unit, listMin 1 eth * 100000)]) ++ raws
  all.foldl (fun a b => if a.1 * b.2 < b.1 * a.2 then b else a) (0, 1)

/-- Destination allowance in ns. -/
def dstAllow (c : Contract) : Nat :=
  match kindOf c.dst with
  | .engine => 20
  | .porter => if c.dstDram then 400 else 40
  | .tiles => 20
  | .dram => 400
  | _ => 0

/-- The engine that a station is. -/
def engineOf (st : Nat) : Nat := 16 * (st / 256 - 1) + (st % 256 - 0x10)

/-- bound_of as an exact fraction in ns, with `k` the other contracts on each output. -/
def boundOf (s : State) (c : Contract) (path : List Output) (k : Output → Nat) : Nat × Nat :=
  let cyc := 2 + path.foldl (fun n o => n + outCost s o + interference s o (k o)) 0
    + (16000 * c.unit + c.peak - 1) / c.peak
  if kindOf c.src = .engine then
    let t := engineTerm s (engineOf c.src) c.unit
    (2 * t.1 * 100000 + (2 * (160 + dstAllow c) + cyc) * t.2, 2 * t.2)
  else (2 * dstAllow c + cyc, 2)

/-- Drain rate of a destination in Mb/s. -/
def drainOf (s : State) (st : Nat) : Nat :=
  match kindOf st with
  | .engine => (engineRates s (engineOf st)).foldl (· + ·) 0 * 1000
  | .porter => 256000
  | .tiles => 512000
  | .dram => if rdB s (memBlk (2 * (st / 256 - 8) + (st % 256 - 1))) 20 then 160000 else 0
  | .design => rdF s (stnCfg st) 31 20 * 1000
  | .other => 0

/-- The first check of R198 that a path fails, against the other admitted contracts. -/
def pathFails (s : State) (cs : List (Nat × Contract)) (c : Contract) (path : List Output) : Option Nat :=
  let k (o : Output) : Nat := (usersOf cs o).length
  let b := boundOf s c path k
  if path.any (outputDown s) then some 0x040B
  else match path.findSome? (fun o =>
      let us := usersOf cs o
      let sum := us.foldl (fun n e => n + e.2.peak) 0
      let big := us.foldl (fun n e => max n e.2.peak) c.peak
      if 1536000 * outWidth s o < (sum + c.peak) * 1024 then some 0x0402
      else if 1920000 * outWidth s o < big * (us.length + 1) * 1024 then some 0x0403
      else none) with
    | some d => some d
    | none =>
      let into := cs.filter (fun e => e.2.dst = c.dst)
      if 64 < 6 * into.length + 6 then some 0x0404
      else if drainOf s c.dst < into.foldl (fun n e => n + e.2.peak) 0 + c.peak then some 0x0405
      else if c.want * b.2 < b.1 then some 0x0406
      else if cs.any (fun e =>
          e.2.path.any (fun o => path.contains o) &&
          (let f := boundOf s e.2 e.2.path (fun o =>
              (usersOf (cs.filter (fun x => x.1 ≠ e.1)) o).length + b2n (path.contains o))
           decide (e.2.want * f.2 < f.1))) then some 0x0407
      else none

/-- Directions that DIR allows, fewer trunk steps first. -/
def dirsOf (c : Contract) : List Nat :=
  match nfld (wordAt c.terms 1) 29 28 with
  | 1 => [0]
  | 2 => [1]
  | _ => let t := fewerSteps c.src c.dst
         [t, 1 - t]

/-- The first direction that passes, with its path; else the last note. -/
def tryDirs (s : State) (cs : List (Nat × Contract)) (c : Contract) : List Nat → Nat → Except Nat (Nat × List Output)
  | [], note => .error note
  | t :: r, _ =>
    let path := pathOf c.src c.dst t
    match pathFails s cs c path with
    | some d => tryDirs s cs c r d
    | none => .ok (t, path)

/-- The bound reported: rounded up to a whole nanosecond. -/
def boundNs (s : State) (cs : List (Nat × Contract)) (c : Contract) (path : List Output) : Nat :=
  let b := boundOf s c path (fun o => (usersOf cs o).length)
  (b.1 + b.2 - 1) / b.2

/-- ITEMS and tile ns reserved in a grove (R198; 10 R323). -/
def itemsOf (s : State) (g : Nat) : Nat :=
  ((openContracts s).filter (fun e => e.2.flow / 2 ^ 21 = g)).foldl (fun n e => n + e.2.items) 0
def tileNsOf (s : State) (g : Nat) : Nat :=
  ((openContracts s).filter (fun e => e.2.flow / 2 ^ 21 = g)).foldl (fun n e => n + e.2.items * e.2.tileNs) 0

/-! ### Opening, closing, breaking (R198, R199, R201) -/

/-- The route entry of an open contract. -/
def guarEntry (id tdir : Nat) : Word := word (2 ^ 31 + 2 ^ 30 + tdir * 2 ^ 29 + id * 2 ^ 16 + 128 * 2 ^ 8)

/-- A contract stored; RESERVED may change, so the floor is checked. -/
def putContract (id : Nat) (c : Contract) (s : State) : State := floorCheck (setContract id c s)

/-- A contract broken: reservations released, its route entry reverted, FLOW_BROKEN (R201). -/
def breakContract (id cause die : Nat) (s : State) : State :=
  let c := sget {} s.bough.contracts id
  if c.state ≠ .opened then s
  else
    raise 0x0401 2 0x002 [word id, word cause, word die]
      (putContract id { c with state := .broken, path := [] } (defaultRoute c.src c.dst s))

/-- The contracts whose path or end stations lie on a die are broken (R201). -/
def breakDie (d : Nat) (s : State) : State :=
  ((openContracts s).filter (fun e =>
      e.2.src / 256 = d || e.2.dst / 256 = d || e.2.path.any (fun o => (outputDies o).contains d))).foldl
    (fun t e => breakContract e.1 0 d t) s

/-- An admitted contract moved to the other direction when it passes there; else broken (R194). -/
def readmit (id die : Nat) (s : State) : State :=
  let c := sget {} s.bough.contracts id
  let cs := (openContracts s).filter (fun e => e.1 ≠ id)
  let t := 1 - c.tdir
  let path := pathOf c.src c.dst t
  match pathFails s cs c path with
  | some _ => breakContract id 1 die s
  | none =>
    let b := boundNs s cs c path
    raise 0x0402 1 0x002 [word id, word b, word t]
      (putContract id { c with tdir := t, path := path, bound := b } (setRoute c.src c.dst (guarEntry id t) s))

/-! ### FLOW commands (R203, R204) -/

def execFlowInfo (b : Nat) (s : State) : Host.Outcome State Fault Refusal :=
  Next (serve 0x0401 allServed (fun _ s =>
    let n (x : ContractState) : Nat := (s.bough.contracts.filter (fun e => e.2.state = x)).length
    .ok ([word (n .opened), word (n .broken), word (4096 - n .opened - n .broken), word (b2n s.bough.line)]
      ++ (upto 8).map (fun g => word (itemsOf s g)) ++ (upto 8).map (fun g => word (tileNsOf s g))) s) b s)

/-- Byte offset of the first contract field out of its range (R195). -/
def termsBad (c : Contract) : Option Nat :=
  let w := wordAt c.terms
  if nfld (w 0) 15 12 ≠ 0 ∨ nfld (w 0) 31 28 ≠ 0 then some 0
  else if nfld (w 1) 29 28 = 3 ∨ (w 1).testBit 31 then some 4
  else if c.peak = 0 ∨ 1536000 < c.peak then some 8
  else if c.rate = 0 ∨ c.peak < c.rate then some 12
  else if c.burst < c.unit ∨ 16777216 < c.burst then some 16
  else if c.unit = 0 ∨ 65536 < c.unit then some 20
  else if !(w 1).testBit 24 ∧ c.items ≠ 0 then some 32
  else if w 10 ≠ 0 then some 40
  else if w 11 ≠ 0 then some 44
  else none

/-- A station's die exists and is not in RUN. -/
def dieNotRun (s : State) (st : Nat) : Bool := st / 256 ≠ 0 && isDie (st / 256) && dieState s (st / 256) ≠ 0x30

/-- A design station whose region does not run, or an engine with no port (R203, check 3). -/
def stationIdle (s : State) (st : Nat) : Bool :=
  match kindOf st with
  | .design => !designRuns s st
  | .engine => (upto 8).all (fun k => portSpeed s (engineOf st) k = 0)
  | _ => false

/-- Checks 1 to 6 of R203. -/
def openCheck (s : State) (c : Contract) : Option (Nat × Nat) :=
  let bad (st : Nat) : Bool := !populated st || kindOf st = .other
  if dieNotRun s c.src ∨ dieNotRun s c.dst then some (stAbsent, 0)
  else if bad c.src ∨ kindOf c.src = .dram then some (stBadArg, 0)
  else if bad c.dst then some (stBadArg, 2)
  else if c.dstDram ∧ kindOf c.dst ≠ .porter then some (stBadArg, 4)
  else if stationIdle s c.src ∨ stationIdle s c.dst then some (stNotReady, 0x040E)
  else if (openContracts s).any (fun e => e.2.src = c.src && e.2.dst = c.dst) then some (stRefused, 0x040A)
  else if 4096 ≤ (s.bough.contracts.filter (fun e => e.2.state ≠ .free)).length then some (stExhausted, 0x040F)
  else if inSink s c.src then some (stRefused, 0x0401)
  else none

/-- The status that a note of R198 is answered with. -/
def noteStatus (d : Nat) : Nat := if d = 0x0406 ∨ d = 0x0407 then stRefused else stNoRoute

/-- The lowest free contract ID. -/
def freeContract (s : State) : Nat := ((upto 4096).find? (fun i => (sget {} s.bough.contracts i).state = .free)).getD 0

def execFlowOpen (b : Nat) (s : State) : Host.Outcome State Fault Refusal :=
  Next (serve 0x0402 runTrial (fun r s =>
    let c : Contract := { state := .opened, terms := r.args.take 12, booth := r.booth }
    match termsBad c with
    | some o => badArg o
    | none =>
      match openCheck s c with
      | some (st, d) => .no st d
      | none =>
        let cs := openContracts s
        match tryDirs s cs c (dirsOf c) 0x040B with
        | .error d => .no (noteStatus d) d
        | .ok (t, path) =>
          let g := c.flow / 2 ^ 21
          if 32768 < itemsOf s g + c.items then refused 0x0408
          else if 460800000 < tileNsOf s g + c.items * c.tileNs then refused 0x0409
          else if c.eclass = 0 ∧ !energyFits s c.power then .no stNoEnergy 0
          else
            let id := freeContract s
            let n := boundNs s cs c path
            let c1 := { c with tdir := t, path := path, bound := n, peakA := 4000 * c.unit, rateA := 4000 * c.burst }
            .ok [word id, word n, word t, word (pathSegs path).length, word path.length]
              (putContract id c1 (setRoute c.src c.dst (guarEntry id t) s))) b s)

def execFlowClose (b : Nat) (s : State) : Host.Outcome State Fault Refusal :=
  Next (serve 0x0403 [0x51, 0x52] (fun r s =>
    let id := r.f 0 11 0
    let c := sget {} s.bough.contracts id
    let cls := classOf r.booth
    if (cls = .user ∨ cls = .design) ∧ classOf c.booth ≠ cls then refused 0x040C
    else .ok [] (putContract id {} (if c.state = .opened then defaultRoute c.src c.dst s else s))) b s)

def execFlowQuery (b : Nat) (s : State) : Host.Outcome State Fault Refusal :=
  Next (serve 0x0404 [0x50, 0x51, 0x52] (fun r s =>
    let c := sget {} s.bough.contracts (r.f 0 11 0)
    let st := match c.state with
      | .free => 0x50
      | .opened => 0x51
      | .broken => 0x52
    .ok ([word st, word c.bound, word c.tdir, word c.booth] ++ (c.terms ++ List.replicate 12 0).take 12) s) b s)

def execFlowStation (b : Nat) (s : State) : Host.Outcome State Fault Refusal :=
  Next (serve 0x0405 [0x30] (fun r s =>
    let st := r.f 0 11 0
    if classOf r.booth = .design ∧ !isDesign st then .no stDenied 0
    else if !isDesign st ∨ 4096 ≤ r.w 0 then badArg 0
    else if 4 ≤ r.w 4 then badArg 4
    else if r.w 8 = 0 ∨ 2048 < r.w 8 then badArg 8
    else if r.f 4 0 0 = 1 ∧ (openContracts s).any (fun e => e.2.src = st) then refused 0x0401
    else
      let v := setFld (setFld (rd s (stnCfg st)) 2 1 (r.w 4)) 31 20 (r.w 8)
      .ok [v] (wr s (stnCfg st) v)) b s)

/-- An entry as FLOW_ROUTE_WRITE accepts it. -/
def entryOk (w : Nat) : Bool :=
  !w.testBit 30 && nfld w 27 16 = 0 && nfld w 7 0 = 0 && (!w.testBit 31 || nfld w 15 8 ≠ 0)

def execFlowRouteWrite (b : Nat) (s : State) : Host.Outcome State Fault Refusal :=
  Next (serve 0x0406 [0x30, 0x34] (fun r s =>
    let st := r.f 0 11 0
    let e0 := r.f 4 11 0
    let n := r.f 4 27 16
    if classOf r.booth = .design ∧ !isDesign st then .no stDenied 0
    else if !populated st ∨ 4096 ≤ r.w 0 then badArg 0
    else if n = 0 ∨ 2048 < n ∨ 4096 < e0 + n ∨ r.f 4 15 12 ≠ 0 ∨ r.f 4 31 28 ≠ 0 then badArg 4
    else match (upto n).find? (fun i => !entryOk (r.w (8 + 4 * i))) with
      | some i => badArg (8 + 4 * i)
      | none =>
        if (upto n).any (fun i => (routeOf s st (e0 + i)).toNat.testBit 30) then refused 0x040D
        else
          let s1 := (upto n).foldl (fun t i => setRoute st (e0 + i) (word (r.w (8 + 4 * i))) t) s
          .ok [] { s1 with bough := { s1.bough with
            rewrites := s1.bough.rewrites.filter (fun x => !(st * 4096 + e0 ≤ x.2.1 && x.2.1 < st * 4096 + e0 + n)) } }) b s)

def execFlowRouteRead (b : Nat) (s : State) : Host.Outcome State Fault Refusal :=
  Next (serve 0x0407 allServed (fun r s =>
    let st := r.f 0 11 0
    let e0 := r.f 4 11 0
    let n := r.f 4 27 16
    if !populated st ∨ 4096 ≤ r.w 0 then badArg 0
    else if n = 0 ∨ 2048 < n ∨ 4096 < e0 + n ∨ r.f 4 15 12 ≠ 0 ∨ r.f 4 31 28 ≠ 0 then badArg 4
    else .ok ((upto n).map (fun i => routeOf s st (e0 + i))) s) b s)

def execFlowStats (b : Nat) (s : State) : Host.Outcome State Fault Refusal :=
  Next (serve 0x0408 allServed (fun r s =>
    let d := r.f 0 3 0
    if 16 ≤ r.w 0 ∨ !isDie d then badArg 0
    else .ok (word (b2n s.bough.line) :: (upto 7).map (fun i => word (bghRead s d i))) s) b s)

/-! ### A broken trunk (R193, R194; 07 R215) -/

/-- LINE shown on every grove, and FLOW_TRUNK raised for the port of a segment (R193). -/
def setLine (line : Bool) (seg : Nat) (s : State) : State :=
  let s1 := (upto 8).foldl (fun t g => wrB t (bghBlk g) 0 line) { s with bough := { s.bough with line := line } }
  raise 0x0403 2 0x002 [word (b2n line), word (trunkOrder.getD seg 0 + trunkOrder.getD ((seg + 1) % 9) 0 * 2 ^ 8)] s1

/-- A trunk port has gone DOWN. -/
def trunkDown (seg : Nat) (s : State) : State :=
  setLine true seg { s with bough := { s.bough with rerouteDue := s.bough.rerouteDue.filter (· ≠ seg) ++ [seg],
                                                     restoreDue := s.bough.restoreDue.filter (· ≠ seg) } }

/-- A trunk port that was DOWN has trained. -/
def trunkUp (seg : Nat) (s : State) : State :=
  if s.bough.avoid.contains seg ∨ s.bough.rerouteDue.contains seg then
    { s with bough := { s.bough with restoreDue := s.bough.restoreDue.filter (· ≠ seg) ++ [seg],
                                      rerouteDue := s.bough.rerouteDue.filter (· ≠ seg) } }
  else s

/-- Listed best-effort entries whose path crosses a segment, turned to the other direction. -/
def rewriteEntries (seg : Nat) (s : State) : State :=
  s.bough.entries.foldl (fun t (e : Nat × Option Word) =>
    match e.2 with
    | some w =>
      let st := e.1 / 4096
      let d := fld w 29 29
      if bit w 31 ∧ !bit w 30 ∧ (pathSegs (pathOf st (e.1 % 4096) d)).contains seg then
        let t1 := setRoute st (e.1 % 4096) (setFld w 29 29 (1 - d)) t
        { t1 with bough := { t1.bough with rewrites := t1.bough.rewrites ++ [(seg, e.1, d)] } }
      else t
    | none => t) s

/-- Contracts whose path crosses a segment, re-admitted or broken. -/
def reworkContracts (seg die : Nat) (s : State) : State :=
  ((openContracts s).filter (fun e => (pathSegs e.2.path).contains seg)).foldl (fun t e => readmit e.1 die t) s

/-- The Warden reworks every trunk port gone DOWN (R194). -/
def execTrunkReroute (s : State) : Host.Outcome State Fault Refusal :=
  Next ((s.bough.rerouteDue).foldl (fun t seg =>
      reworkContracts seg (trunkOrder.getD ((seg + 1) % 9) 0)
        (rewriteEntries seg { t with bough := { t.bough with avoid := t.bough.avoid.filter (· ≠ seg) ++ [seg] } }))
    { s with bough := { s.bough with rerouteDue := [] } })

/-- The entries rewritten for a segment regain their directions. -/
def restoreEntries (seg : Nat) (s : State) : State :=
  let s1 := (s.bough.rewrites.filter (fun x => x.1 = seg)).foldl (fun t x =>
    match sget none t.bough.entries x.2.1 with
    | some w => if bit w 30 then t else setRoute (x.2.1 / 4096) (x.2.1 % 4096) (setFld w 29 29 x.2.2) t
    | none => t) s
  { s1 with bough := { s1.bough with rewrites := s1.bough.rewrites.filter (fun x => x.1 ≠ seg),
                                     avoid := s1.bough.avoid.filter (· ≠ seg) } }

/-- A trunk port has trained again: LINE clears and rewritten best-effort entries regain their directions (R194). -/
def execTrunkRestore (s : State) : Host.Outcome State Fault Refusal :=
  Next ((s.bough.restoreDue).foldl (fun t seg =>
      let t1 := restoreEntries seg t
      if (upto 9).any (segDown t1) then t1 else if t1.bough.line then setLine false seg t1 else t1)
    { s with bough := { s.bough with restoreDue := [] } })

/-- A contract crosses a link unit. -/
def crossesUnit (c : Contract) (d u : Nat) : Bool :=
  c.path.any (fun o => match outputUnit o with
    | some x => x = (d, u) || linkPeer x.1 x.2 = some (d, u)
    | none => false)

/-- One contract re-evaluated after unit `x` has become NARROW: kept, else rerouted or broken (07 R215). -/
def reevaluate (x : Nat × Nat) (id : Nat) (s : State) : State :=
  let c := sget {} s.bough.contracts id
  let cs := (openContracts s).filter (fun y => y.1 ≠ id)
  if c.state ≠ .opened ∨ (pathFails s cs c c.path).isNone then s
  else if 8 ≤ x.2 ∨ isLaneDie x.1 then breakContract id 2 x.1 s
  else readmit id x.1 s

/-- The Warden reruns admission for the contracts that cross units newly NARROW, and raises LNK_NARROW (07 R215,
R239). -/
def execNarrowReevaluation (s : State) : Host.Outcome State Fault Refusal :=
  Next ((s.links.narrowDue).foldl (fun t x =>
      let ids := ((openContracts t).filter (fun e => crossesUnit e.2 x.1 x.2)).map (·.1)
      let t1 := ids.foldl (fun u id => reevaluate x id u) t
      let kept := (ids.filter (fun id => sget {} t1.bough.contracts id = sget {} t.bough.contracts id)).length
      raise 0x0882 1 (256 * x.1) [word (x.1 + x.2 * 2 ^ 8), word (unitWidth t1 x.1 x.2), word kept, word (ids.length - kept)] t1)
    { s with links := { s.links with narrowDue := [] } })

end Sys2Proof.Machine
end

