-- ==== Sys2Proof/Machine/LinkOps.lean ====
section
/-!
DEFINITION. Die links: training rounds, replays, repairs and loss of a unit (07 R206-R219).
-/
namespace Sys2Proof.Machine

/-- A register of both ends of a unit changed; the hub's ends hold none (R207). -/
def bothEnds (d u : Nat) (f : Nat → State → State) (s : State) : State :=
  let one (t : State) (p v : Nat) : State := if p = 0 then t else f (lnkBlk p v) t
  match linkPeer d u with
  | some (p, v) => one (one s d u) p v
  | none => s

/-- The end of a unit that its events name: the grove's where the other end is the hub's. -/
def eventEnd (d u : Nat) : Nat × Nat := if d = 0 then (linkPeer d u).getD (d, u) else (d, u)

/-- The unit is a fabric crossing. -/
def isCrossing (d u : Nat) : Bool := isGroveDie d && 2 ≤ u && u ≤ 4
/-- The unit is a trunk port. -/
def isTrunk (d u : Nat) : Bool := d = 0 || (isGroveDie d && u ≤ 1)
/-- The trunk segment of a trunk port. -/
def segOf (d u : Nat) : Nat := if d = 0 then (if u = 1 then 0 else 8) else trunkSeg d (if u = 1 then 0 else 1)
/-- Full width of a unit: wires, or the mask of groups. -/
def fullWidth (d u : Nat) : Nat := if isCrossing d u then 0xFF else 1024

/-- Training begins at round 1 (R208). -/
def startTrain (d u : Nat) (inService : Bool) (s : State) : State :=
  let x := linkAt s d u
  setUnit d u 0x61 (setLink d u { x with round := 1, cap := fullWidth d u, inService := inService, passing := false } s)

/-- Responses in flight across a unit reach their requesters with status ABSENT (06 R192). -/
def isolate (d u : Nat) (s : State) : State :=
  let crosses (p : Packet) : Bool := (p.op = 4 || p.op = 5) && (packetPath p).any (fun o => match outputUnit o with
    | some x => x = (d, u) || linkPeer x.1 x.2 = some (d, u)
    | none => false)
  (s.net.filter crosses).foldl (fun t p => bridgeDiscard d p t) { s with net := s.net.filter (fun p => !crosses p) }

/-- A unit goes DOWN: LNK_DOWN, its bridges isolate it, the trunk becomes a line or the lane port's contracts break
(R208; 06 R192, R193, R201). -/
def unitGoesDown (d u cause : Nat) (s : State) : State :=
  let e := eventEnd d u
  if unitDown s d u then s
  else
    let s1 := bothEnds d u (fun a t => wrF t a 25 24 cause) (setUnit d u 0x65 s)
    let s2 := setLink d u { linkAt s1 d u with round := 0, passing := false } s1
    let s3 := isolate d u (raise 0x0883 2 (256 * e.1) [word (e.1 + e.2 * 2 ^ 8), word cause] s2)
    if isTrunk d u then trunkDown (segOf d u) s3
    else if isCrossing d u then s3
    else ((openContracts s3).filter (fun c => crossesUnit c.2 d u)).foldl (fun t c => breakContract c.1 2 d t) s3

/-- Width proposed for `b` bad wires (R211). -/
def proposeWidth (b cap : Nat) : Nat :=
  min cap (if 1056 + b ≤ 1120 then 1024 else if 544 + b ≤ 1120 then 512 else if 288 + b ≤ 1120 then 256 else 0)
/-- Groups offered by a crossing's receiver, of those allowed. -/
def proposeGroups (bad : List Nat) (cap : Nat) : Nat :=
  cap &&& (upto 8).foldl (fun m i => if bad.getD i 0 ≤ 64 then m + 2 ^ i else m) 0
/-- Spares that a receiver maps. -/
def sparesFor (bad : List Nat) : Nat := bad.foldl (fun n b => n + min 64 b) 0

/-- A round has not succeeded: the next one with a cap on proposals, or the unit goes DOWN after the third. -/
def nextRound (d u cap : Nat) (s : State) : State :=
  let x := linkAt s d u
  if 3 ≤ x.round then
    unitGoesDown d u (if x.inService then 2 else 1) (bothEnds d u (fun a t => wrF t a 13 12 3) s)
  else setLink d u { x with round := x.round + 1, cap := cap } s

/-- Training succeeds at an agreed width (R208). -/
def trained (d u width : Nat) (r : TrainRound) (s : State) : State :=
  let x := linkAt s d u
  let e := eventEnd d u
  let full := width = fullWidth d u
  let s1 := setUnit d u (if full then 0x62 else 0x63)
    (bothEnds d u (fun a t => wrF (wrF t a 11 0 width) a 13 12 x.round) s)
  let own (p v : Nat) (bad : List Nat) (wire : Nat) (t : State) : State :=
    if p = 0 then setLink p v { linkAt t p v with hubSpares := sparesFor bad } t
    else wr (wr t (lnkBlk p v + 4) (word (sparesFor bad)))
      (lnkBlk p v + 0x1C) (if bad.any (· ≠ 0) then word (wire % 2 ^ 16) else rd t (lnkBlk p v + 0x1C))
  let s2 := match linkPeer d u with
    | some (p, v) => own p v r.badB r.wireB (own d u r.badA r.wireA s1)
    | none => s1
  let s3 := setLink d u { linkAt s2 d u with round := 0, inService := false, fails := [], charges := [] } s2
  let s4 := raise 0x0881 0 (256 * e.1) [word (e.1 + e.2 * 2 ^ 8), word width, word x.round] s3
  let s5 := if full then s4 else { s4 with links := { s4.links with narrowDue := s4.links.narrowDue ++ [e] } }
  if isTrunk d u then trunkUp (segOf d u) s5 else s5

/-- What a finished round comes to (R209-R211). -/
def roundEnd (d u : Nat) (r : TrainRound) (s : State) : State :=
  let x := linkAt s d u
  if !r.heard then nextRound d u x.cap s
  else
    let a := if isCrossing d u then proposeGroups r.badA x.cap else proposeWidth (r.badA.headD 0) x.cap
    let b := if isCrossing d u then proposeGroups r.badB x.cap else proposeWidth (r.badB.headD 0) x.cap
    let w := if isCrossing d u then a &&& b else min a b
    if w = 0 then unitGoesDown d u 3 (bothEnds d u (fun k t => wrF t k 13 12 x.round) s)
    else if a ≠ b then nextRound d u w s
    else if r.checkOk then trained d u w r s
    else if isCrossing d u then nextRound d u (w &&& (0xFF ^^^ (r.failedGroups % 256))) s
    else nextRound d u (if w = 256 then 0 else w / 2) s

end Sys2Proof.Machine
end

