-- ==== Sys2Proof/Machine/Dispatcher.lean ====
section
/-!
DEFINITION. Meanings of the dispatchers' commands and events (10 R302-R331).
-/
namespace Sys2Proof.Machine

/-! ### Posts (R302, R303, R305) -/

/-- Words last written to a post slot. -/
def postWords (s : State) (g p : Nat) : List Word := sget (List.replicate 8 0) s.dsp.posted (g * 2048 + p)
def setPostWord (g p w : Nat) (v : Word) (s : State) : State :=
  { s with dsp := { s.dsp with posted := sset (List.replicate 8 0) s.dsp.posted (g * 2048 + p) ((postWords s g p).set w v) } }
/-- A RESULT read, as the producer sees it: zero while the dispatcher is gated. -/
def resultOf (s : State) (g p : Nat) : Word := if gated s (8 + g) 0 then 0 else sget 0 s.dsp.results (g * 2048 + p)

/-- A write of a word of a post slot: word 7 posts. A gated dispatcher discards it; in DEEP it waits (R329). -/
def writePost (g p w : Nat) (v : Word) (s : State) : State :=
  if 8 ≤ g ∨ 2048 ≤ p ∨ 8 ≤ w ∨ dspOff s g then s
  else
    let s1 := setPostWord g p w v s
    if w = 7 then decidePost g p (postWords s1 g p) s1 else s1

/-- A write to word 7 posts the descriptor. -/
def execDescriptorPost (g p : Nat) (value : Word) (s : State) : Host.Outcome State Fault Refusal :=
  Next (atBlock (8 + g) 0 (fun s => writePost g p 7 value s) s)

/-- A write to another word only stores its value. -/
def execPostSlotStore (g p w : Nat) (value : Word) (s : State) : Host.Outcome State Fault Refusal :=
  Next (atBlock (8 + g) 0 (fun s => if w < 7 then writePost g p w value s else s) s)

/-- A station's read of RESULT is answered with the outcome of the latest post. -/
def execResultRead (station g p tag : Nat) (s : State) : Host.Outcome State Fault Refusal :=
  Next (if 8 ≤ g ∨ 2048 ≤ p ∨ !populated station ∨ dieState s (8 + g) = 0x32 then s
    else
      let rq : Packet := { op := 1, vc := 2, dst := dspStation g, src := station, tag := tag % 2 ^ 16,
                           addr := dspBlk g + 0x20000 + 0x40 * p + 0x20, len := 4 }
      respond rq 0 (toBytes 4 (resultOf s g p).toNat) (if gated s (8 + g) 0 then cnt s (clkBlk (8 + g) + 0x14) else s))

/-! ### Cancel, release, flow contexts (R308, R311, R317, R320) -/

/-- A cancelled item that awaited its context is counted in it: now, or when the context arrives (R308). -/
def noteGhost (k : Nat) (s : State) : State :=
  match ctxOf s k with
  | some w => setCtx k (ctxEnd 0xF 0 w) s
  | none => { s with dsp := { s.dsp with ghosts := smod 0 s.dsp.ghosts k (· + 1) } }

/-- The item a handle names is removed with CANCELLED, unless it has started. -/
def execDspCancel (g : Nat) (handle : Word) (s : State) : Host.Outcome State Fault Refusal :=
  Next (atBlock (8 + g) 0 (fun s => if dspOff s g then s
    else
      let n := fld handle 15 0
      let miss := wrB s (dspBlk g + 4) 2 true
      match heldAt s g n with
      | none => miss
      | some h =>
        if h.item.gen ≠ fld handle 23 16 then miss
        else
          let k := ctxKey g h.item.flow
          match h.stage with
          | .service _ => miss
          | .delay => dropUnstarted g n 0xF s
          | .lookup => noteGhost k (dropUnstarted g n 0xF s)
          | .backlog => noteGhost k (dropUnstarted g n 0xF s)
          | .chain => dropUnstarted g n 0xF (unchain g n h s)
          | .ready =>
            let s1 := withdrawPreempt g n (dropUnstarted g n 0xF s)
            if h.item.flowValid then flowAdvance g h.item (ctxEnd 0xF 0) s1 else s1) s)

/-- The last tick boundary of a list at a reading of its time base (R311). -/
def lastTick (c : TbCore) (tick : Nat) : Nat := c.wraps * 2 ^ 32 + c.ns / tick * tick

/-- The due entries of a list enter their ready queues in order of release time, then of acceptance (R311, R312). -/
def execDelayListRelease (g k : Nat) (s : State) : Host.Outcome State Fault Refusal :=
  Next (if dspOff s g ∨ 8 ≤ k ∨ !dlEn s g k then s
    else
      let c := dlCore s g k
      if !c.run then wrB s (dlCfg g k + 4) 31 true
      else
        let tick := max 1 (rdF s (dlCfg g k) 15 0)
        let edge := lastTick c tick
        let due := (heldItems s g).filter (fun p => p.2.stage = .delay && p.2.item.dlist = k && decide (distance edge p.2.due < 2 ^ 39))
        let sorted := sortBy (fun (p : Nat × Held) => (2 ^ 40 - distance edge p.2.due) * 2 ^ 64 + p.2.order) due
        let s1 := sorted.foldl (fun t (p : Nat × Held) =>
          let late := decide (tick < distance c.now40 p.2.due)
          let i := { p.2.item with late := late, release := p.2.due % 2 ^ 32 }
          let t1 := setHeld g p.1 (some { p.2 with item := i, stage := .lookup }) t
          enterReady g p.1 (if late then dspCnt g 4 t1 else t1)) (wrB s (dlCfg g k + 4) 31 false)
        showList g k s1)

/-- A poisoned context counted and reported, at most once per millisecond per grove (R320, R332). -/
def flowPoisoned (g flow : Nat) (s : State) : State :=
  let s1 := dspCnt g 8 s
  let n := sget 0 s1.dsp.poisonSince g + 1
  let soon : Bool := match sget none s1.dsp.poisonLast g with
    | some t => decide (s1.tu.tick < t + tickMs)
    | none => false
  if soon ∨ !generated s1 0x0891 2 then { s1 with dsp := { s1.dsp with poisonSince := sset 0 s1.dsp.poisonSince g n } }
  else
    let s2 := raise 0x0891 2 (dspStation g) [word g, word flow, word n] s1
    { s2 with dsp := { s2.dsp with poisonSince := sset 0 s2.dsp.poisonSince g 0, poisonLast := sset none s2.dsp.poisonLast g (some s2.tu.tick) } }

/-- A context read arrives: the items that wait enter, or fail (R317, R320). -/
def execFlowContextFill (i : Nat) (s : State) : Host.Outcome State Fault Refusal :=
  Next (match inboxAt s i with
    | none => s
    | some p =>
      let g := p.dst / 256 - 8
      if !(isGroveDie (p.dst / 256) && p.dst % 256 = 4 && p.op = 4) ∨ dspOff s g then s
      else match s.dsp.reads.find? (fun k => k / 2 ^ 21 = g && ctxAddr s k = p.addr) with
        | none => dropInbox i s
        | some k =>
          let s1 := dropInbox i { s with dsp := { s.dsp with reads := s.dsp.reads.erase k } }
          let wait := sortBy (fun (q : Nat × Held) => q.2.order)
            ((heldItems s1 g).filter (fun q => q.2.stage = .lookup && q.2.item.flowValid && ctxKey g q.2.item.flow = k))
          let st := if p.poison then stPoison else p.status
          let ghosts := sget 0 s1.dsp.ghosts k
          let s2 := { s1 with dsp := { s1.dsp with ghosts := sdel s1.dsp.ghosts k } }
          if st = 0 then
            let w0 := bytesToWords ((p.data ++ List.replicate 64 0).take 64)
            let w := (upto ghosts).foldl (fun w _ => ctxEnd 0xF 0 w) w0
            wait.foldl (fun t (q : Nat × Held) => applyCtx g q.1 t) { s2 with dsp := { s2.dsp with ctxs := s2.dsp.ctxs ++ [(k, w)] } }
          else
            let cause := if st = stPoison then fPoison else if st = 6 then fNoRoute else fAbsent
            wait.foldl (fun t (q : Nat × Held) =>
              let t1 := dropUnstarted g q.1 cause t
              if st = stPoison then flowPoisoned g q.2.item.flow t1 else t1) s2)

/-- The first item of the entry backlog that may enter does: a context is unpinned, or its own is cached or being read
(R317). -/
def execEntryBacklogEnter (g : Nat) (s : State) : Host.Outcome State Fault Refusal :=
  Next (if dspOff s g then s
    else
      let l := (heldItems s g).filter (fun p => p.2.stage = .backlog
        && (hasRoom s g || (ctxOf s (ctxKey g p.2.item.flow)).isSome || s.dsp.reads.contains (ctxKey g p.2.item.flow)))
      match l.foldl (fun (a : Option (Nat × Held)) p => match a with
          | none => some p
          | some b => if p.2.order < b.2.order then some p else some b) none with
      | none => s
      | some (n, h) =>
        let k := ctxKey g h.item.flow
        if (ctxOf s k).isSome then applyCtx g n s
        else if s.dsp.reads.contains k then toStage g n .lookup s
        else if hasRoom s g then readCtx k (toStage g n .lookup s)
        else s)

/-! ### Starts, pre-emption, completion (R309, R310, R324, R326, R327) -/

/-- The first item that may start, and finds an idle tile of its set, is given that tile. -/
def execItemStart (g : Nat) (s : State) : Host.Outcome State Fault Refusal :=
  Next (if dspOff s g then s
    else match firstItem s g ((startable s g).filter (fun p => (nextTile s g p.2.item.tset).isSome)) with
      | none => s
      | some (n, h) =>
        match nextTile s g h.item.tset with
        | none => s
        | some j =>
          let s1 := withdrawPreempt g n s
          noteStart g n (g * 512 + j) { s1 with dsp := { s1.dsp with lastTile := sset 511 s1.dsp.lastTile (g * 16 + h.item.tset) j } })

/-- The tile's item may be pre-empted by an item of priority `pr` (R324). -/
def victimOk (s : State) (g : Nat) (pr : Nat) (t : Nat) : Bool :=
  let x := tileAt s t
  [0x71, 0x72, 0x74].contains x.state && x.saved.isNone && x.preempt.isNone && x.incoming.isNone
    && (match x.item with
        | some i => i.preemptible && decide (pr < qPrio s g i.queue)
        | none => false)

/-- A PREEMPTS item with no idle tile raises the pre-emption stop on a victim: the largest priority number, then the
most recently started. -/
def execPreemptRequest (g : Nat) (s : State) : Host.Outcome State Fault Refusal :=
  Next (if dspOff s g then s
    else
      let asks (n : Nat) : Bool := s.tiles.any (fun (e : Nat × Tile) => e.1 / 512 = g && e.2.preempt = some n)
      let victims (p : Nat × Held) : List (Nat × Tile) := s.tiles.filter (fun (e : Nat × Tile) => e.1 / 512 = g
        && inSet s g p.2.item.tset (e.1 % 512) && victimOk s g (qPrio s g p.2.item.queue) e.1)
      match firstItem s g ((startable s g).filter (fun p => qPreempts s g p.2.item.queue && !asks p.1
          && (nextTile s g p.2.item.tset).isNone && !(victims p).isEmpty)) with
      | none => s
      | some (n, h) =>
        let key (e : Nat × Tile) : Nat :=
          let i := e.2.item.getD {}
          qPrio s g i.queue * 2 ^ 64 + ((heldAt s g i.slot).map (·.started)).getD 0
        match (victims (n, h)).foldl (fun (a : Option (Nat × Tile)) e => match a with
            | none => some e
            | some b => if key b < key e then some e else some b) none with
        | none => s
        | some e => setTile e.1 { e.2 with preempt := some n } s)

/-- A tile's report: the slot is released, the flow advances, the record is written. -/
def execItemCompletion (g : Nat) (s : State) : Host.Outcome State Fault Refusal :=
  Next (if dspOff s g then s
    else match s.dsp.reports.find? (fun r => r.tile / 512 = g) with
      | none => s
      | some r =>
        let s1 := { s with dsp := { s.dsp with reports := s.dsp.reports.erase r } }
        let tid := r.tile / 512 * 512 + r.tile % 512
        let s2 := freeSlotD g r.item.slot (writeRecordD g r.item r.cause r.code tid s1)
        let s3 := if r.cause = 0 then s2 else dspCnt g 3 s2
        if r.item.flowValid then flowAdvance g r.item (ctxEnd r.cause r.code) s3 else s3)

/-- A restart is counted; at RESTART_LIMIT the item is killed (R327). -/
def execRestartReport (g : Nat) (s : State) : Host.Outcome State Fault Refusal :=
  Next (if dspOff s g then s
    else match s.dsp.restarts.find? (fun t => t / 512 = g) with
      | none => s
      | some t =>
        let s1 := dspCnt g 5 { s with dsp := { s.dsp with restarts := s.dsp.restarts.erase t } }
        let x := tileAt s1 t
        match x.item with
        | none => s1
        | some i =>
          let n := i.restarts + 1
          let lim := rdF s1 (dspBlk g) 7 0
          let hit : Bool := decide (lim ≠ 0) && decide (lim ≤ n)
          let s2 := setTile t { x with item := some { i with restarts := n, limit := i.limit || hit } } s1
          if hit then
            raise 0x0892 1 (dspStation g) [word t, word (i.slot + i.gen * 2 ^ 16), word (i.flow + b2n i.flowValid * 2 ^ 24)] (killTile t s2)
          else s2)

/-! ### Configuration (R307, R314, R318, R319, R322) -/

def dspRefused (g : Nat) (s : State) : State := wrB s (dspBlk g + 4) 0 true
/-- The Warden, or the host through PF0. -/
def wardenOrPf0 : Writer → Bool
  | .warden => true
  | .host pf => pf = 0
  | _ => false

/-- A reservation is refused when the sum of all MIN would exceed 65,536, or when it does not fit its field. -/
def execDspQminWrite (src : Writer) (g q : Nat) (value : Word) (s : State) : Host.Outcome State Fault Refusal :=
  Next (atBlock (8 + g) 0 (fun s => if 8 ≤ g ∨ 256 ≤ q ∨ !wardenOrPf0 src then s
    else
      let v := fld value 16 0
      let sum := (upto 256).foldl (fun n k => n + if k = q then v else qMin s g k) 0
      if 65536 < sum then dspRefused g s else wrF s (qCfg g q + 4) 16 0 v) s)

/-- A change of TB or TICK_NS while the list holds entries is ignored and sets CFG_REFUSED. TICK_NS is even, 16 to
65,534 (R6). -/
def execDspDlCfgWrite (src : Writer) (g k : Nat) (value : Word) (s : State) : Host.Outcome State Fault Refusal :=
  Next (atBlock (8 + g) 0 (fun s => if 8 ≤ g ∨ 8 ≤ k ∨ !wardenOrPf0 src then s
    else
      let a := dlCfg g k
      let tick := fld value 15 0
      let tick' := if 16 ≤ tick ∧ tick % 2 = 0 then tick else rdF s a 15 0
      let change : Bool := decide (fld value 26 24 ≠ rdF s a 26 24) || decide (tick' ≠ rdF s a 15 0)
      if change ∧ listCount s g k ≠ 0 then dspRefused g s
      else wr s a (setFld (setFld (setBit (rd s a) 31 (bit value 31)) 26 24 (fld value 26 24)) 15 0 tick')) s)

/-- RESTART_LIMIT of a write of DSP_CTRL. -/
def dspLimit (g : Nat) (value : Word) (s : State) : State := wrF s (dspBlk g) 7 0 (fld value 7 0)

/-- EN = 0 stops acceptance and begins a drain while ready slots are occupied. -/
def execDspEnClear (src : Writer) (g : Nat) (value : Word) (s : State) : Host.Outcome State Fault Refusal :=
  Next (atBlock (8 + g) 0 (fun s => if 8 ≤ g ∨ !wardenOrPf0 src ∨ bit value 31 then s
    else
      let s1 := dspLimit g value s
      if rdB s1 (dspBlk g) 31 then wrB (wrB s1 (dspBlk g) 31 false) (dspBlk g + 4) 3 true else s1) s)

/-- The flow table lies in the grove's own trained DRAM. -/
def flowTableOk (s : State) (g : Nat) : Bool :=
  let a := flowBase s g
  a / 0x4000000000 = g && (dramAt s g (a % 0x4000000000)).isSome && (dramAt s g (a % 0x4000000000 + 2 ^ 27 - 1)).isSome
    && decide (a < 0x020000000000)

/-- EN = 1 resumes acceptance, ending a drain, or is ignored with CFG_REFUSED. -/
def execDspEnSet (src : Writer) (g : Nat) (value : Word) (s : State) : Host.Outcome State Fault Refusal :=
  Next (atBlock (8 + g) 0 (fun s => if 8 ≤ g ∨ !wardenOrPf0 src ∨ !bit value 31 then s
    else
      let s1 := dspLimit g value s
      if rdB s1 (dspBlk g) 31 then s1
      else if !flowTableOk s1 g then dspRefused g s1
      else wrB (wrB s1 (dspBlk g) 31 true) (dspBlk g + 4) 3 false) s)

/-- When every ready slot is free, every cached context is written back, the cache dropped and DRAINING cleared. -/
def execDrainEnd (g : Nat) (s : State) : Host.Outcome State Fault Refusal :=
  Next (if dspOff s g ∨ !rdB s (dspBlk g + 4) 3 ∨ !(heldItems s g).isEmpty ∨ s.dsp.reads.any (fun k => k / 2 ^ 21 = g) then s
    else
      let mine := s.dsp.ctxs.filter (fun (e : Nat × List Word) => e.1 / 2 ^ 21 = g)
      let s1 := mine.foldl (fun t (e : Nat × List Word) => writeCtx e.1 e.2 t) s
      wrB { s1 with dsp := { s1.dsp with ctxs := s1.dsp.ctxs.filter (fun (e : Nat × List Word) => e.1 / 2 ^ 21 ≠ g) } } (dspBlk g + 4) 3 false)

/-- The named context, or every one, is written back, and each unpinned one dropped; FLUSHING until this ends. -/
def execDspFlowFlush (src : Writer) (g : Nat) (value : Word) (s : State) : Host.Outcome State Fault Refusal :=
  Next (atBlock (8 + g) 0 (fun s => if dspOff s g ∨ !wardenOrPf0 src then s
    else
      let all := bit value 31
      let k := ctxKey g (fld value 23 0)
      let named (e : Nat × List Word) : Bool := e.1 / 2 ^ 21 = g && (all || (e.1 = k && fld value 23 21 = g))
      let s1 := (s.dsp.ctxs.filter named).foldl (fun t (e : Nat × List Word) => writeCtx e.1 e.2 t) s
      let keep := s1.dsp.ctxs.filter (fun (e : Nat × List Word) => !named e || pinned e.2)
      wrB { s1 with dsp := { s1.dsp with ctxs := keep, flush := sset none s1.dsp.flush g (some (if all then none else some k)) } }
        (dspBlk g + 4) 1 true) s)

/-- The flush ends and FLUSHING clears. -/
def execFlowFlushDone (g : Nat) (s : State) : Host.Outcome State Fault Refusal :=
  Next (if dspOff s g ∨ (sget none s.dsp.flush g).isNone then s
    else wrB { s with dsp := { s.dsp with flush := sdel s.dsp.flush g } } (dspBlk g + 4) 1 false)

/-- A station's read of the low word of DSP_CLS_CYC latches the high word for it (R322). -/
def execClsCycLowRead (station g c : Nat) (s : State) : Host.Outcome State Fault Refusal :=
  Next (atBlock (8 + g) 0 (fun s => if 8 ≤ g ∨ 8 ≤ c ∨ !populated station then s
    else
      let a := dspBlk g + 0x80 + 8 * c
      let rest := s.dsp.latches.filter (fun (e : Nat × Nat × Word) => !(e.1 = station && e.2.1 = a))
      { s with dsp := { s.dsp with latches := rest ++ [(station, a, rd s (a + 4))] } }) s)

end Sys2Proof.Machine
end

