-- ==== Sys2Proof/Machine/Porter.lean ====
section
/-!
DEFINITION. Meanings of the porters' and the translation units' commands and events (11 R333-R359).
-/
namespace Sys2Proof.Machine

/-! ### Rings and movers (R336, R344) -/

/-- Who may write PTR_PROD and PTR_CTRL (R358). -/
def ptrWriter (s : State) (c : Nat) : Writer → Bool
  | .warden => true
  | .host pf => c / 256 ≠ 0 || pf = ptrOwner s c
  | .station id => c / 256 ≠ 0 && id / 256 = c / 256
  | _ => false

/-- A producer index is written, or refused with RING_OVF. -/
def execPtrProdWrite (src : Writer) (c : Nat) (value : Word) (s : State) : Host.Outcome State Fault Refusal :=
  Next (atBlock (c / 256) (if c / 256 = 0 then 0 else 1) (fun s => if ptrOff s c ∨ !ptrWriter s c src then s
    else
      let v := fld value 15 0
      if 2 ^ rdF s (ptrBlk c) 4 0 < (v + 65536 - ptrCons s c) % 65536 then wrB s (ptrBlk c + 4) 9 true
      else
        let s1 := wrF s (ptrBlk c + 0x10) 15 0 v
        if ptrRecv s1 c then readAhead c s1
        else if ptrState s1 c = 0x80 ∧ !ringEmpty s1 c then setPtrState c 0x82 s1
        else s1) s)

/-- A descriptor read answers: a bad answer, or a bad descriptor, completes it without moving a byte. -/
def execDescriptorReadAnswer (i : Nat) (s : State) : Host.Outcome State Fault Refusal :=
  Next (match inboxAt s i with
    | none => s
    | some p =>
      let c := p.dst
      let x := porterAt s c
      if !(isPorter c && p.op = 4 && p.tag = 0xFFFF) ∨ ptrOff s c then s
      else
        let s1 := setPorter c { x with reading := false } (dropInbox i s)
        let st := if p.poison then stPoison else p.status
        if !x.reading then s1
        else if st ≠ 0 then completeDesc c (if st = stPoison then 0x0D else if st = 6 then 6 else 0x20) 0 s1
        else
          let d := bytesToWords ((p.data ++ List.replicate 64 0).take 64)
          let s2 := setPorter c { porterAt s1 c with desc := some d, next := 0, beats := [] } s1
          if !ptrDescOk s2 c d then completeDesc c 0x23 0 s2
          else if ptrRecv s2 c then s2
          else pumpPorter c (wr s2 (ptrBlk c + 0x30) 0))

/-- A waiting channel takes a free mover of its die: guaranteed ones in channel order, then by PRIO, round robin. -/
def execMoverTake (die : Nat) (s : State) : Host.Outcome State Fault Refusal :=
  Next (if !(die = 0 || isGroveDie die) then s
    else
      let l := (channelsOf die).filter (fun c => ptrState s c = 0x82 && !ptrOff s c && !(porterAt s c).recording)
      let used := ((channelsOf die).filter (fun c => (porterAt s c).mover)).length
      let key (c : Nat) : Nat :=
        if ptrGuar s c then chanNo c
        else
          let last := sget 63 s.moverLast (die * 4 + ptrPrio s c)
          1000 + 100 * ptrPrio s c + (chanNo c + 64 - last - 1) % 64
      if movers die ≤ used then s
      else match l.foldl (fun (a : Option Nat) c => match a with
          | none => some c
          | some b => if key c < key b then some c else some b) none with
        | none => s
        | some c =>
          let x := porterAt s c
          let from_ := (rd s (ptrBlk c + 0x30)).toNat
          let s1 := setPtrState c 0x81 (setPorter c { x with mover := true, moved := 0, stop := none, beats := [],
                                                              next := if x.desc.isSome then from_ else 0 } s)
          let s2 := if ptrGuar s c then s1 else { s1 with moverLast := sset 63 s1.moverLast (die * 4 + ptrPrio s c) (chanNo c) }
          if x.desc.isNone then (if x.reading then s2 else readDesc c s2) else pumpPorter c s2)

/-- A best-effort channel at its pre-emption point finishes its beats and parks. -/
def execMoverPreempt (c : Nat) (s : State) : Host.Outcome State Fault Refusal :=
  Next (let x := porterAt s c
    if ptrOff s c ∨ ptrState s c ≠ 0x81 ∨ x.stop ≠ some 257 ∨ !x.beats.isEmpty then s
    else ptrCnt c 3 1 (setPtrState c 0x82 (setPorter c { x with mover := false, stop := none } s)))

/-! ### Beats (R341, R342, R346, R347) -/

/-- Status of a porter's record for an answer (R347). -/
def ptrStatus (p : Packet) : Nat :=
  if p.poison ∨ p.status = stPoison then 0x0D else if p.status = 0 then 0 else if p.status = 6 then 6 else 0x20

/-- Read data of a beat: its write is issued in its turn; an error stops the channel there. -/
def beatRead (c tag st : Nat) (data : List Byte) (s : State) : State :=
  match (porterAt s c).beats.find? (fun b => b.tag = tag && b.st = .reading) with
  | none => s
  | some b =>
    if st ≠ 0 then tidyBeats c (stopAt c st b.off s)
    else pumpPorter c (setBeat c tag (fun x => { x with st := .ready, data := (data ++ List.replicate b.len 0).take b.len }) s)

/-- A beat's read data arrives: from the Bough, or from the host for a hub channel. -/
def execBeatReadAnswer (c : Nat) (i : Option Nat) (data : List Byte) (status : Nat) (s : State) :
    Host.Outcome State Fault Refusal :=
  Next (if ptrOff s c then s
    else match i with
      | some k =>
        (match inboxAt s k with
         | none => s
         | some p => if p.dst = c ∧ p.op = 4 ∧ p.tag < 0xFF00 then beatRead c p.tag (ptrStatus p) p.data (dropInbox k s) else s)
      | none =>
        let x := porterAt s c
        if !((x.desc.map dHostSrc).getD false) then s
        else match x.beats.find? (fun b => b.st = .reading) with
          | some b => beatRead c b.tag (if status = 0 then 0 else 0x0D) data s
          | none => s)

/-- A beat's write acknowledged; an error stops the channel at the lowest failed beat. -/
def beatWritten (c tag st : Nat) (s : State) : State :=
  match (porterAt s c).beats.find? (fun b => b.tag = tag && b.st = .writing) with
  | none => s
  | some b =>
    let p := porterAt s c
    let s1 := if st = 0 then setBeat c tag (fun x => { x with st := .written }) s
      else stopAt c st b.off (setPorter c { p with beats := p.beats.erase b } s)
    if ptrRecv s1 c then tidyBeats c s1 else pumpPorter c s1

/-- A beat's WR is acknowledged, by the Bough or by the host. -/
def execBeatWriteAnswer (c : Nat) (i : Option Nat) (status : Nat) (s : State) : Host.Outcome State Fault Refusal :=
  Next (if ptrOff s c then s
    else match i with
      | some k =>
        (match inboxAt s k with
         | none => s
         | some p => if p.dst = c ∧ p.op = 5 ∧ p.tag < 0xFF00 then beatWritten c p.tag (ptrStatus p) (dropInbox k s) else s)
      | none =>
        let x := porterAt s c
        if !((x.desc.map dHostDst).getD false) then s
        else match x.beats.find? (fun b => b.st = .writing) with
          | some b => beatWritten c b.tag (if status = 0 then 0 else 0x0D) s
          | none => s)

/-- A transfer whose translation failed enters FAULTED once its earlier beats are complete. -/
def execPorterTranslationFault (c : Nat) (s : State) : Host.Outcome State Fault Refusal :=
  Next (let x := porterAt s c
    if ptrOff s c ∨ ptrState s c ≠ 0x81 ∨ x.stop ≠ some 256 ∨ !x.beats.isEmpty then s
    else
      let s1 := match x.xfault with
        | some (k, dst, va) => recordXfault c k dst va s
        | none => s
      let s2 := wr s1 (ptrBlk c + 0x30) (word x.failAt)
      setPtrState c (if x.offDue then 0x85 else 0x83)
        (setPorter c { x with mover := false, stop := none, xfault := none, next := x.failAt, offDue := false } s2))

/-- A descriptor at its end completes: its record is written and the notify made. -/
def execDescriptorComplete (c : Nat) (s : State) : Host.Outcome State Fault Refusal :=
  Next (if ptrOff s c ∨ (porterAt s c).recording then s
    else match closingOf s c with
      | some (st, done) => completeDesc c st done s
      | none => s)

/-- The record's write is acknowledged: the notify follows, and CONS advances. -/
def execCqRecordAck (i : Nat) (s : State) : Host.Outcome State Fault Refusal :=
  Next (match inboxAt s i with
    | none => s
    | some p =>
      let c := p.dst
      let x := porterAt s c
      if !(isPorter c && p.op = 5 && p.tag = 0xFFFE) ∨ ptrOff s c then s
      else
        let s1 := dropInbox i s
        if !x.recording then s1
        else
          let s2 := setPorter c { x with recording := false, notify := false } s1
          advanceCons c (if x.notify then notifyPorter c s2 else s2))

/-! ### Units (R339, R340) -/

/-- A unit packet at a receive channel: it opens a unit, is placed, or closes it. -/
def execUnitPacketReceive (i : Nat) (s : State) : Host.Outcome State Fault Refusal :=
  Next (match inboxAt s i with
    | none => s
    | some p =>
      let c := p.dst
      let x := porterAt s c
      let st := ptrState s c
      if !(isPorter c && (p.op = 2 || p.op = 3)) ∨ ptrOff s c ∨ !ptrRecv s c ∨ (st ≠ 0x80 ∧ st ≠ 0x81) ∨ x.last then s
      else if p.addr / 2 ^ 17 ≠ 0 then respond p 0 [] (dropInbox i s)
      else if x.sender.isNone ∧ (x.reading ∨ x.recording) then s
      else
        let s1 := respond p 0 [] (dropInbox i s)
        let open1 : Porter := if x.sender.isNone then { x with sender := some p.src, noDesc := x.desc.isNone } else x
        let off := p.addr % 65536
        let lst := p.addr.testBit 16
        let s2 := setPtrState c 0x81 (wrB (setPorter c open1 s1) (ptrBlk c + 4) 8 true)
        if p.cut ∨ p.status ≠ 0 then closeUnit c s2
        else if open1.noDesc then
          let s3 := ptrCnt c 4 p.len s2
          if lst then readAhead c (setPtrState c 0x80 (wrB (setPorter c { open1 with noDesc := false, sender := none } s3) (ptrBlk c + 4) 8 false))
          else s3
        else
          let d := open1.desc.getD []
          let keep := p.data.take (dLen d - off)
          let above := decide (dLen d < off + p.len)
          let beats := (placements d 300 off keep).map (fun (e : Nat × List Byte) =>
            ({ off := e.1, len := e.2.length, st := .reading, data := e.2, poison := p.poison } : Beat))
          let x1 := beats.foldl addBeat { open1 with overrun := open1.overrun || above, last := lst }
          pumpPlaces c (setPorter c x1 s2))

/-- Within 1 ms of a die's loss, a receive channel whose open unit's sender lay there is closed (R356). -/
def execPeerLossCloseUnit (c : Nat) (s : State) : Host.Outcome State Fault Refusal :=
  Next (match (porterAt s c).sender with
    | some id => if isPorter c ∧ !dieAlive s (id / 256) then closeUnit c s else s
    | none => s)

/-! ### PTR_CTRL (R346, R348) -/

/-- RESUME translates again from DONE and continues. -/
def execResume (src : Writer) (c : Nat) (s : State) : Host.Outcome State Fault Refusal :=
  Next (atBlock (c / 256) (if c / 256 = 0 then 0 else 1) (fun s => if ptrOff s c ∨ !ptrWriter s c src ∨ ptrState s c ≠ 0x83 then s else setPtrState c 0x82 s) s)

/-- SKIP completes the faulted descriptor with SKIPPED and DONE = d. -/
def execSkip (src : Writer) (c : Nat) (s : State) : Host.Outcome State Fault Refusal :=
  Next (atBlock (c / 256) (if c / 256 = 0 then 0 else 1) (fun s => if ptrOff s c ∨ !ptrWriter s c src ∨ ptrState s c ≠ 0x83 then s
    else completeDesc c 0x24 (rd s (ptrBlk c + 0x30)).toNat (setPtrState c 0x81 s)) s)

/-- ABORT of an open unit: its issued placements finish, its record is ABORTED, the channel stops (R346, R348). -/
def abortUnit (c : Nat) (s : State) : State :=
  let p := porterAt s c
  if ptrState s c ≠ 0x81 ∨ !rdB s (ptrBlk c + 4) 8 then s
  else if p.noDesc then
    setPtrState c 0x84 (wrB (setPorter c { p with noDesc := false, sender := none } s) (ptrBlk c + 4) 8 false)
  else setPorter c { p with last := true, stop := some 0x22, beats := p.beats.filter (fun b => b.st = .writing || b.st = .written) } s

/-- ABORT: issued beats finish, the descriptor completes with ABORTED, the channel stops. -/
def execAbort (src : Writer) (c : Nat) (s : State) : Host.Outcome State Fault Refusal :=
  Next (atBlock (c / 256) (if c / 256 = 0 then 0 else 1) (fun s => let st := ptrState s c
    if ptrOff s c ∨ !ptrWriter s c src ∨ (porterAt s c).recording then s
    else if ptrRecv s c then abortUnit c s
    else if st = 0x81 then
      let x := porterAt s c
      let keep := x.beats.filter (fun b => b.st ≠ .xsrc && b.st ≠ .xdst)
      let d := match x.beats.find? (fun b => b.st = .xsrc || b.st = .xdst) with
        | some b => b.off
        | none => x.next
      setPorter c { x with stop := some 0x22, failAt := d, beats := keep } s
    else if st = 0x82 ∨ st = 0x83 then completeDesc c 0x22 (if (porterAt s c).desc.isSome then (rd s (ptrBlk c + 0x30)).toNat else 0) s
    else s) s)

/-- GO leaves STOPPED for the next descriptor. -/
def execGo (src : Writer) (c : Nat) (s : State) : Host.Outcome State Fault Refusal :=
  Next (atBlock (c / 256) (if c / 256 = 0 then 0 else 1) (fun s => if ptrOff s c ∨ !ptrWriter s c src ∨ ptrState s c ≠ 0x84 then s
    else if ptrRecv s c then readAhead c (setPtrState c 0x80 s)
    else setPtrState c (if (if (porterAt s c).recording then (ptrCons s c + 1) % 65536 = ptrProd s c else ringEmpty s c) then 0x80 else 0x82) s) s)

/-- CLOSE_UNIT closes an open unit with ABORTED_PEER. -/
def execCloseUnit (src : Writer) (c : Nat) (s : State) : Host.Outcome State Fault Refusal :=
  Next (atBlock (c / 256) (if c / 256 = 0 then 0 else 1) (fun s => if ptrOff s c ∨ !ptrWriter s c src ∨ !ptrRecv s c then s else closeUnit c s) s)

/-! ### PTR_CH_CFG (R334, R348) -/

/-- GUAR may be set: fewer than the limit of other channels of the die have it. -/
def guarOk (s : State) (c : Nat) : Bool :=
  ((channelsOf (c / 256)).filter (fun k => k ≠ c && rdB s (ptrBlk k) 30)).length < movers (c / 256)

/-- EN turns a channel on or off; the other fields change only while EN = 0, else CFG_REFUSED is set. -/
def execPtrChCfgWrite (src : Writer) (c : Nat) (value : Word) (s : State) : Host.Outcome State Fault Refusal :=
  Next (atBlock (c / 256) (if c / 256 = 0 then 0 else 1) (fun s => if ptrOff s c ∨ !wardenOrPf0 src then s
    else
      let b := ptrBlk c
      let old := rd s b
      let m : Word := if c / 256 = 0 then 0x7300071F else 0x63FF071F
      let want := value &&& m
      let keepSize := if 12 < fld want 4 0 then setFld want 4 0 (fld old 4 0) else want
      let guarBad : Bool := bit want 30 && !guarOk s c
      let new := if guarBad then setBit keepSize 30 (bit old 30) else keepSize
      let refuse (t : State) : State := wrB t (b + 4) 10 true
      let en := bit value 31
      let busy := bit old 31 || (porterAt s c).offDue
      let s1 := if (old &&& m) = new then (if guarBad then refuse s else s)
        else if busy then refuse s
        else wr (if guarBad then refuse s else s) b (setBit new 31 (bit old 31))
      let s2 := wrB s1 b 31 en
      let x := porterAt s2 c
      let st := ptrState s2 c
      if en = bit old 31 then s2
      else if !en then
        (if st = 0x80 ∨ st = 0x83 ∨ st = 0x84 then setPtrState c 0x85 s2 else setPorter c { x with offDue := true } s2)
      else if x.offDue then setPorter c { x with offDue := false } s2
      else
        let idle := setPtrState c 0x80 s2
        if ptrRecv s2 c then readAhead c idle
        else if x.desc.isSome ∨ !ringEmpty s2 c then setPtrState c 0x82 idle
        else idle) s)

/-! ### Translation (R350-R354) -/

/-- A walk's result delivered to its requester: an address, a failure's cause, or a status. -/
inductive WalkEnd where
  | ok (addr : Nat)
  | fault (cause : Nat)
  | error (status : Nat)

def deliverWalk (w : Walk) (e : WalkEnd) (s : State) : State :=
  match w.user with
  | .tile t =>
    let x := tileAt s t
    if x.stall ≠ some (.xlate w.id) then s
    else match e with
      | .ok a => setTile t { x with stall := none, xaddr := some a } s
      | .fault _ => translationFault t (w.va + 2 ^ 31) w.write s
      | .error st => abortItem t (loadCause st) (w.va + 2 ^ 31) w.write true s
  | .porter c dst =>
    match (porterAt s c).beats.find? (fun b => (b.st = .xsrc || b.st = .xdst) && b.walk = w.id) with
    | none => s
    | some b =>
      match e with
      | .ok a =>
        let s1 := if dst then
            (let s2 := setBeat c b.tag (fun y => { y with dst := a, st := .ready }) s
             if ptrRecv s c then issueWrite c { b with dst := a, st := .ready } s2 else issueRead c { b with dst := a } s2)
          else beatDst c { b with src := a } (setBeat c b.tag (fun y => { y with src := a }) s)
        if ptrRecv s c then pumpPlaces c s1 else pumpPorter c s1
      | .fault k => tidyBeats c (beatFault c b.off k dst w.va s)
      | .error st => tidyBeats c (stopAt c (if st = stPoison then 0x0D else if st = 6 then 6 else 0x20) b.off s)

/-- A walk ended: it leaves, another is sent, its result is delivered and a success enters the TLB. -/
def endWalk (w : Walk) (e : TableEntry) (s : State) : State :=
  let s1 := pumpWalks w.grove { s with xlt := { s.xlt with walks := s.xlt.walks.filter (fun x => x.id ≠ w.id) } }
  let fail (k : Nat) : State :=
    deliverWalk w (.fault k) (logFault w.grove w.asid w.va k w.write w.user.station w.user.tileId s1)
  match e with
  | .page k base ww =>
    if w.write ∧ !ww then fail xReadOnly
    else deliverWalk w (.ok (base + w.va % 2 ^ k))
      (if w.stale then s1 else tlbPut w.grove { asid := w.asid, page := w.va / 2 ^ k * 2 ^ k, k := k, base := base, w := ww } s1)
  | _ => fail xNotMapped

/-- A table read answers: the walk goes on to level 2, or ends. -/
def execTranslationWalkDone (i : Nat) (s : State) : Host.Outcome State Fault Refusal :=
  Next (match inboxAt s i with
    | none => s
    | some p =>
      if !(isGroveDie (p.dst / 256) && p.dst % 256 = 0 && p.op = 4) then s
      else match s.xlt.walks.find? (fun w => w.sent && w.grove = p.dst / 256 - 8 && w.id % 2 ^ 16 = p.tag) with
        | none => dropInbox i s
        | some w =>
          let s1 := dropInbox i s
          let st := if p.poison then stPoison else p.status
          if st ≠ 0 then
            deliverWalk w (.error st)
              (pumpWalks w.grove { s1 with xlt := { s1.xlt with walks := s1.xlt.walks.filter (fun x => x.id ≠ w.id) } })
          else
            let e := ofBytes (p.data.take 8)
            if w.level = 1 then
              (match level1 e with
               | .table k base =>
                 sendWalk w (level2At k base w.va)
                   { s1 with xlt := { s1.xlt with walks := s1.xlt.walks.map (fun x => if x.id = w.id then { x with level := 2, k := k } else x) } }
               | other => endWalk w other s1)
            else endWalk w (level2 w.k e) s1)

/-- Starts an invalidation of a page, an ASID or everything, or is refused. -/
def execXltInvalWrite (src : Writer) (g : Nat) (value : Word) (s : State) : Host.Outcome State Fault Refusal :=
  Next (atBlock (8 + g) 2 (fun s => if 8 ≤ g ∨ !wardenOrPf0 src ∨ gated s (8 + g) 2 then s
    else if rdB s (xltBlk g) 0 ∨ fld value 31 30 = 3 then wrB s (xltBlk g) 2 true
    else
      let job := (fld value 31 30, fld value 7 0, rdF s (xltBlk g + 8) 26 0 * 4096,
                  (s.xlt.walks.filter (fun w => w.grove = g)).map (·.id))
      wrB { s with xlt := { s.xlt with inval := sset none s.xlt.inval g (some job) } } (xltBlk g) 0 true) s)

/-- Once every earlier translation has been delivered, the TLB entries in scope are gone and INVAL_BUSY clears. -/
def execInvalDone (g : Nat) (s : State) : Host.Outcome State Fault Refusal :=
  Next (match sget none s.xlt.inval g with
    | none => s
    | some (scope, asid, page, ids) =>
      if s.xlt.walks.any (fun w => ids.contains w.id) then s
      else
        let hit (e : TlbEntry) : Bool := scope = 2 || (e.asid = asid && (scope = 1 || e.page = page / 2 ^ e.k * 2 ^ e.k))
        let s1 := setTlb g ((sget [] s.xlt.tlb g).filter (fun e => !hit e)) s
        wrB { s1 with xlt := { s1.xlt with inval := sdel s1.xlt.inval g } } (xltBlk g) 0 false)

/-- A die reset or a block reset of the translation unit (R356): walks in flight deliver, but enter no TLB entry. -/
def xltReset (g : Nat) (die : Bool) (s : State) : State :=
  let s1 := setTlb g [] (dropRegs s (xltBlk g) (xltBlk g + 0x2000))
  let w := if die then s1.xlt.walks.filter (fun x => x.grove ≠ g)
    else s1.xlt.walks.map (fun x => if x.grove = g then { x with stale := true } else x)
  { s1 with xlt := { s1.xlt with walks := w, inval := sdel s1.xlt.inval g, faultSince := sdel s1.xlt.faultSince g,
                                 faultLast := sdel s1.xlt.faultLast g } }

end Sys2Proof.Machine
end

