-- ==== Sys2Proof/Machine/Ras.lean ====
section
/-!
DEFINITION. The injection points as a command sees them, and the RAS command group (19 R560-R573).
-/
namespace Sys2Proof.Machine

/-- Injection points of a die, numbered from 0 (R560). -/
def pointsOf (d : Nat) : Nat := if d = 0 then 7 else if isGroveDie d then 14 else if isLaneDie d then 6 else 0

/-- PATTERN of two stored bits: [5:0] a, [13:8] b, [15] enables b. -/
def twoBits : Nat := 0xBF3F

/-- TARGET lists a point's target (R560). -/
def targetListed (d n t : Nat) : Bool :=
  if d = 0 then
    match n with
    | 0 => decide (t ≤ 1)
    | 2 => decide (t < 2 ^ 18)
    | 3 => decide (t ≤ 4)
    | 4 => decide (t ≤ 1)
    | 5 => decide (t < 32)
    | 6 => isDie t
    | _ => decide (t = 0)
  else if isGroveDie d then
    match n with
    | 0x0 => decide (t < 1920)
    | 0x1 => t / 2 ^ 28 = d && frameListed (nfld t 27 24) (nfld t 15 0) && nfld t 23 16 = 0
    | 0x2 => decide (t ≤ 1)
    | 0x3 => decide (t ≤ 1)
    | 0x4 => decide (t ≤ 1)
    | 0x5 => decide (t < 8)
    | 0x6 => decide (t % 256 < 8 ∧ t / 256 ≤ 1)
    | 0x7 => decide (t < 256) && populated (d * 256 + t)
    | 0x8 => decide (t ≤ 1)
    | 0x9 => decide (2 ≤ t ∧ t ≤ 4)
    | 0xA => t = 5 || (t % 256 = 7 && decide (t / 256 < 12))
    | 0xB => decide (t < 512)
    | 0xD => decide (t < 8)
    | _ => decide (t = 0)
  else
    match n with
    | 0 => decide (t < 128)
    | 1 => decide (t < 128)
    | 2 => decide (t < 128)
    | 3 => decide (t % 256 < 128 ∧ t / 256 ≤ 1)
    | 4 => decide (t < 8)
    | _ => decide (t = 0)

/-- Every bit of `p` lies in the mask. -/
def within (p mask : Nat) : Bool := decide (p &&& mask = p)

/-- PATTERN lists a point's pattern (R560). -/
def patternListed (d n p : Nat) : Bool :=
  if d = 0 then
    match n with
    | 2 => within p twoBits
    | 6 => decide (1 ≤ (sint 32 p).natAbs ∧ (sint 32 p).natAbs ≤ 2047)
    | _ => decide (p = 0)
  else if isGroveDie d then
    match n with
    | 0x0 => within p 0xFF7F && decide (nfld p 6 0 < 80 ∧ nfld p 14 8 < 80)
    | 0x1 => within p 0x1FF1BF3F
    | 0x2 => within p 0x9FFF1FFF && decide (nfld p 12 8 < 18 ∧ nfld p 28 24 < 18)
    | 0x5 => decide (p < 64)
    | 0x6 => within p twoBits
    | 0x7 => decide (p < 2 ^ 16)
    | 0x8 => decide (p < 1120)
    | 0x9 => within p 0x37
    | 0xC => within p twoBits
    | _ => decide (p = 0)
  else
    match n with
    | 0 => decide (1 ≤ p ∧ p ≤ 31)
    | 4 => decide (p < 1120)
    | _ => decide (p = 0)

/-- MODE and COUNT of an INJ_CTRL value are listed (R562, R563). -/
def ctrlListed (v : Nat) : Bool := decide (nfld v 27 24 ≤ 4 ∧ nfld v 15 0 ≠ 0)

/-- Corrupted symbols from which a codeword of a port's FEC is lost: none where no FEC runs (R560; 14 R431). -/
def fecLoses (s : State) (p k : Nat) : Option Nat :=
  match rdF s (penCfg p k) 27 26 with
  | 1 => some 1
  | 2 => some 8
  | 3 => some 16
  | _ => none

/-- The injection takes the active pair with no standby behind it (hub 0x00). -/
def losesWarden (s : State) : Bool := !rdB s wardStatus 1

/-- A point marked Y in R560 under the settings. -/
def disruptive (s : State) (d n mode t p : Nat) : Bool :=
  if d = 0 then
    match n with
    | 0 => t = rdF s wardStatus 0 0 && losesWarden s
    | 1 => losesWarden s
    | 2 => p.testBit 15 && losesWarden s
    | 3 => true
    | 4 => t = 1
    | _ => false
  else if isGroveDie d then
    match n with
    | 0x0 => p.testBit 15
    | 0x1 => p.testBit 15
    | 0x2 => p.testBit 31
    | 0x5 => true
    | 0x6 => p.testBit 15
    | 0x7 => true
    | 0x8 => mode = 4
    | 0xA => true
    | 0xB => true
    | _ => false
  else
    match n with
    | 0 => (match fecLoses s (16 * (d - 1) + t % 16) (t / 16) with
      | some k => decide (k ≤ p)
      | none => false)
    | 1 => true
    | 3 => true
    | 4 => mode = 4
    | 5 => true
    | _ => false

/-- A contract in OPEN touches the point's target (R567; 03 R96): the clearing of a block RAM or frame, a DRAM
channel, the engine of a port or lane. No other target lies in a block that a contract touches. -/
def targetTouched (s : State) (d n t : Nat) : Bool :=
  if isGroveDie d then
    match n with
    | 0x0 => regionTouched s (d - 8) (bramOwner s (d - 8) t)
    | 0x1 => regionTouched s (d - 8) (ownerOf s (d - 8) (nfld t 27 24) (nfld t 15 0))
    | 0x2 => blockTouched s d (3 + t)
    | 0x3 => blockTouched s d (3 + t)
    | 0x4 => blockTouched s d (3 + t)
    | 0xB => blockTouched s d 8
    | _ => false
  else if isLaneDie d then
    match n with
    | 0 => blockTouched s d (t % 16)
    | 1 => blockTouched s d (t % 16)
    | 2 => blockTouched s d (t / 8)
    | 3 => blockTouched s d (t % 256 / 8)
    | _ => false
  else false

/-- A write of INJ_CTRL: setting ARM clears what the last arming left (R563). -/
def writeInjCtrl (d n : Nat) (v : Word) (s : State) : State :=
  let s1 := wr s (injPt d n) (v &&& 0x8F00FFFF)
  if !bit v 31 then s1
  else
    let s2 := setWhereUsed d n [] (wr s1 (injPt d n + 12) 0)
    let s3 := (upto 3).foldl (fun t k => wr t (injPt d n + 20 + 4 * k) 0) s2
    { s3 with ras := { s3.ras with since := sset 0 s3.ras.since (ptKey d n) 0 } }

/-- The point armed with its settings. -/
def armPoint (d n : Nat) (ctrl t p : Nat) (s : State) : State :=
  writeInjCtrl d n (setBit (word ctrl) 31 true) (wr (wr s (injPt d n + 4) (word t)) (injPt d n + 8) (word p))

/-- Every point of the device. -/
def allPoints : List (Nat × Nat) := (0 :: dies).flatMap (fun d => (upto (pointsOf d)).map (fun n => (d, n)))
/-- The points with ARM = 1. -/
def armedPoints (s : State) : List (Nat × Nat) := allPoints.filter (fun x => rdB s (injPt x.1 x.2) 31)

/-- A die reset disarms its points and resets them; RAS_INJ_DONE with ABSENT for each armed one (R566). -/
def rasDieReset (d : Nat) (s : State) : State :=
  let s1 := ((upto (pointsOf d)).filter (fun n => rdB s (injPt d n) 31)).foldl (fun t n =>
    raise 0x0802 0 0 [word (d + n * 2 ^ 8), word (rdF t (injPt d n + 12) 15 0), word stAbsent] t) s
  let s2 := dropRegs s1 (injPt d 0) (injPt d (pointsOf d))
  let mine (k : Nat) : Bool := k / 256 = d
  { s2 with ras := { s2.ras with since := sdrop s2.ras.since mine, whereUsed := sdrop s2.ras.whereUsed mine,
                                 seenSince := sdrop s2.ras.seenSince mine, seenLast := sdrop s2.ras.seenLast mine,
                                 corr := sdel s2.ras.corr d, uncorr := sdel s2.ras.uncorr d } }

/-! ### The RAS group (R571, R572) -/

def rasBoth : List Nat := [0xE0, 0xE1]

def execRasInfo (b : Nat) (s : State) : Host.Outcome State Fault Refusal :=
  Next (serve 0x0801 rasBoth (fun _ s =>
    .ok ([word (rasState s), word (armedPoints s).length, word s.ras.sramCorr, word s.ras.sramUncorr]
      ++ (upto 16).flatMap (fun d => [word (sget 0 s.ras.corr d), word (sget 0 s.ras.uncorr d)])) s) b s)

/-- Booth 62 needs the authority FULL (R567). -/
def rasDenied (s : State) (b : Nat) (hub : Bool) : Bool :=
  b = 62 && dbgAuth s ≠ 0xD3 && (hub || dbgAuth s ≠ 0xD2)

/-- The injection machine moved, audited and reported. -/
def rasMove (b : Nat) (on : Bool) (s : State) : State :=
  let s1 := { s with ras := { s.ras with on := on } }
  raise 0x0803 1 0 [word (rasState s1), word b] (audit 4 0xFF b 0 (rasState s) (rasState s1) 0 s1)

def execRasInjEnable (b : Nat) (s : State) : Host.Outcome State Fault Refusal :=
  Next (serve 0x0802 [0xE0] (fun r s =>
    if rasDenied s r.booth true then .no stDenied 0 else .ok [] (rasMove r.booth true s)) b s)

def execRasInjDisable (b : Nat) (s : State) : Host.Outcome State Fault Refusal :=
  Next (serve 0x0803 [0xE1] (fun r s =>
    if rasDenied s r.booth true then .no stDenied 0
    else
      let l := armedPoints s
      .ok [word l.length] (rasMove r.booth false (l.foldl (fun t x => wrB t (injPt x.1 x.2) 31 false) s))) b s)

/-- The point that a payload names exists. -/
def pointNamed (r : Req) : Bool := decide (r.f 0 15 8 < pointsOf (r.f 0 3 0))
/-- Its die is in RESET or LOST. -/
def pointAbsent (s : State) (d : Nat) : Bool := d ≠ 0 && (dieState s d = 0x33 || dieState s d = 0x35)

def execRasInject (b : Nat) (s : State) : Host.Outcome State Fault Refusal :=
  Next (serve 0x0804 [0xE1] (fun r s =>
    let d := r.f 0 3 0
    let n := r.f 0 15 8
    let free := r.f 0 16 16 = 0
    if junk r 0 0x1FF0F then badArg 0
    else if !pointNamed r then .no stBadArg 0x0801
    else if !ctrlListed (r.w 4) then badArg 4
    else if !targetListed d n (r.w 8) then badArg 8
    else if !patternListed d n (r.w 12) then badArg 12
    else if rasDenied s r.booth (d = 0) then .no stDenied 0
    else if free ∧ disruptive s d n (r.f 4 27 24) (r.w 8) (r.w 12) then refused 0x0802
    else if rdB s (injPt d n) 31 then refused 0x0803
    else if free ∧ targetTouched s d n (r.w 8) then refused 0x0804
    else if pointAbsent s d then .no stAbsent 0
    else
      let s1 := armPoint d n (r.w 4) (r.w 8) (r.w 12) s
      .ok [rd s1 (injPt d n + 12)] s1) b s)

def execRasInjDisarm (b : Nat) (s : State) : Host.Outcome State Fault Refusal :=
  Next (serve 0x0805 [0xE1] (fun r s =>
    let d := r.f 0 3 0
    let n := r.f 0 15 8
    if junk r 0 0xFF0F then badArg 0
    else if !pointNamed r then .no stBadArg 0x0801
    else if pointAbsent s d then .no stAbsent 0
    else
      let s1 := wrB s (injPt d n) 31 false
      .ok [rd s1 (injPt d n + 12)] s1) b s)

def execRasInjRead (b : Nat) (s : State) : Host.Outcome State Fault Refusal :=
  Next (serve 0x0806 [0xE1] (fun r s =>
    let d := r.f 0 3 0
    let n := r.f 0 15 8
    if junk r 0 0xFF0F then badArg 0
    else if !pointNamed r then .no stBadArg 0x0801
    else if pointAbsent s d then .no stAbsent 0
    else .ok ((upto 8).map (fun i => rd s (injPt d n + 4 * i))) s) b s)

end Sys2Proof.Machine
end

