-- ==== Sys2Proof/Machine/TimeOps.lean ====
section
/-!
DEFINITION. The time unit as operations: counting, changes at a TICK, states, the servo's moves, the oscillator
model, classifier entries of the firmware, the ensemble's arithmetic, and register views (15 R461-R486).
-/
namespace Sys2Proof.Machine

/-! ### The count (R461-R464). Phases are in units of 2^-40 ns. -/

/-- What one CK_TIME cycle of a slew moves: 2 x SLEW_TERM, rounded toward zero (R462). -/
def slewStep (ppb : Nat) : Nat := 2 * (ppb * 2 ^ 40 / 1000000000)
/-- What `k` cycles of the running slew move: at most the remainder, which the last cycle adds exactly. -/
def TbCore.moved (c : TbCore) (k : Nat) : Int :=
  let m : Int := (min c.slewRem.natAbs (k * slewStep c.slewPpb) : Nat)
  if c.slewRem < 0 then -m else m
/-- A count placed at a phase; what passes 2^40 ns either way goes to ORIGIN (R463, R464). -/
def TbCore.place (c : TbCore) (v : Int) : TbCore :=
  { c with cnt := (v % (2 ^ 80 : Nat)).toNat, origin := uint 64 ((c.origin : Int) + v / (2 ^ 80 : Nat) * (2 ^ 40 : Nat)) }
/-- `k` cycles of CK_TIME (R461). -/
def TbCore.advN (c : TbCore) (k : Nat) : TbCore :=
  if !c.run then c
  else
    let m := c.moved k
    let d := c.place ((c.cnt : Int) + k * (2 ^ 41 + 2 * c.rate) + m)
    { d with slewRem := c.slewRem - m, slewPpb := if c.slewRem = m then 0 else c.slewPpb }
/-- A reading in 2^-40 ns of PTP time (R464). -/
def TbCore.phase (c : TbCore) : Int := (c.origin * 2 ^ 40 + c.cnt : Nat)
/-- PTP time in 1/256 ns. -/
def TbCore.ptp256 (c : TbCore) : Nat := c.origin * 256 + c.cnt / 2 ^ 32

/-- A change applied to a count, on the hub or a replica (R462-R464, R469). -/
def TbCore.change (c : TbCore) (h : TimeChange) : TbCore :=
  match h with
  | .load cnt origin rate =>
    { c with run := true, cnt := cnt, origin := origin, rate := rate, slewRem := 0, slewPpb := 0, stepAcc := 0,
             setSeq := (c.setSeq + 1) % 256 }
  | .rate r => { c with rate := r }
  | .slew a p => { c with slewRem := c.slewRem + a, slewPpb := if c.slewRem + a = 0 then 0 else p }
  | .slewNew a p => { c with slewRem := a, slewPpb := if a = 0 then 0 else p }
  | .step n => { (c.place ((c.cnt : Int) + n * (2 ^ 40 : Nat))) with stepAcc := c.stepAcc + n }
  | .stop => { c with run := false, slewRem := 0, slewPpb := 0 }
  | .host _ => c

/-- A change applied `late` cycles after its TICK, with what the count would have gained since (R469). -/
def TbCore.changeLate (c : TbCore) (h : TimeChange) (late : Nat) : TbCore :=
  let d := c.change h
  let slid (a : Int) : TbCore := { (d.place ((d.cnt : Int) + a)) with slewRem := d.slewRem - a }
  match h with
  | .load _ _ _ => d.advN late
  | .rate r => d.place ((d.cnt : Int) + late * (2 * (r - c.rate)))
  | .slew _ _ => slid (d.moved late)
  | .slewNew _ _ => slid (d.moved late)
  | _ => d

/-- One cycle of a time base: its count and its twin's. -/
def TimeBase.tick (t : TimeBase) : TimeBase :=
  let c := t.core.advN 1
  { t with core := c, twin := t.twin.advN 1, twinSlew := t.twinSlew && !(t.core.slewRem ≠ 0 && c.slewRem = 0) }

/-- A slew is running. -/
def TimeBase.slewing (t : TimeBase) : Bool := t.core.run && t.core.slewRem ≠ 0
/-- Twin minus time base in 2^-40 ns (R478). -/
def TimeBase.twinOffset (t : TimeBase) : Int := if t.twin.run then t.twin.phase - t.core.phase else 0
/-- Whole nanoseconds of a signed phase, truncated. -/
def phaseNs (p : Int) : Int := p.tdiv (2 ^ 40 : Nat)

/-! ### Changes at a TICK (R469, R487) -/

/-- Dies that are sent TIME packets: lane dies and groves in RUN, SLEEP, DEEP or REJOIN. -/
def timeDies (s : State) : List Nat := dies.filter (fun d => d ≠ 0 && dieAlive s d)
/-- A change sent to the hub and every die, 4,096 cycles ahead; HOST is the hub's alone. -/
def sendChange (tb : Nat) (h : TimeChange) (s : State) : State :=
  let dest := match h with
    | .host _ => [0]
    | _ => 0 :: timeDies s
  { s with tu := { s.tu with
      changes := s.tu.changes ++ dest.map (fun d => { die := d, tick := s.tu.tick + 4096, tb := tb, change := h }) } }

/-- A time base's state moved, with TIME_STATE (R465, R489). -/
def setTbState (tb st : Nat) (s : State) : State :=
  let t := tbAt s tb
  if t.state = st then s
  else
    let sev := if st = 0xC4 ∨ (st = 0xC1 ∧ t.state = 0xC3) then 2 else 1
    raise 0x0501 sev 0x004 [word tb, word t.state, word st] (setTb s tb { t with state := st })

/-- The RATE that a time base has once the changes sent have been applied. -/
def heldRate (s : State) (tb : Nat) : Int :=
  s.tu.changes.foldl (fun r e =>
    if e.die ≠ 0 ∨ e.tb ≠ tb then r
    else match e.change with
      | .load _ _ v => v
      | .rate v => v
      | _ => r) (tbAt s tb).core.rate

/-! ### Time outputs (R473) -/

/-- PTP time of a time base in whole ns. -/
def ptpNow (s : State) (tb : Nat) : Nat := (tbAt s tb).core.origin + (tbAt s tb).core.now40
/-- The first time after `base` that is `off` modulo `per`. -/
def nextOn (base per off : Int) : Nat := (base + 1 + (off - base - 1) % per).toNat
/-- The next edge of an output that stands low, after PTP time `base`. -/
def outRise (s : State) (c : OutCfg) (base : Nat) : Option Nat :=
  match c.mode with
  | 1 => some (nextOn base 1000000000 c.offset)
  | 2 => some (nextOn base c.period c.offset)
  | 3 => some ((tbAt s c.tb).core.origin + c.wraps * 2 ^ 32 + c.ns)
  | 4 => some ((tbAt s c.tb).core.origin + c.wraps * 2 ^ 32 + c.ns)
  | _ => none
/-- Time for which a pulse is high. -/
def outPulse (c : OutCfg) : Nat := if c.mode = 2 then c.period / 2 else c.width
def setOut (o : Nat) (x : TimeOut) (s : State) : State := { s with tu := { s.tu with outs := sset {} s.tu.outs o x } }
/-- The next rising edge of a low output scheduled after PTP time `base`. An edge already past is not produced but
counted: a periodic output goes on to the next, a ONE_SHOT or TRIGGER is over. -/
def outSchedule (o base : Nat) (s : State) : State :=
  let x := sget {} s.tu.outs o
  let now := ptpNow s x.cfg.tb
  if !(tbAt s x.cfg.tb).core.run then setOut o { x with next := none, high := false } s
  else if !x.armed then setOut o { x with next := none } s
  else match outRise s x.cfg base with
    | none => setOut o { x with next := none } s
    | some t =>
      if now ≤ t then setOut o { x with next := some t } s
      else if x.cfg.mode ≤ 2 then cnt (setOut o { x with next := outRise s x.cfg now } s) (tuBase + 0x18)
      else cnt (setOut o { x with next := none, armed := false } s) (tuBase + 0x18)
/-- Output `o` set to a configuration. -/
def outStart (o : Nat) (c : OutCfg) (s : State) : State :=
  outSchedule o (ptpNow s c.tb) (setOut o { cfg := c, armed := c.mode ≠ 0 } s)
/-- The outputs of a time base after it was loaded, stepped or stopped: an edge still ahead stands, one passed is
missed. -/
def outsAfter (tb : Nat) (s : State) : State :=
  (upto 16).foldl (fun t o =>
    let x := sget {} t.tu.outs o
    let now := ptpNow t tb
    if x.cfg.tb ≠ tb ∨ x.cfg.mode = 0 then t
    else if !(tbAt t tb).core.run then setOut o { x with next := none, high := false } t
    else match x.next with
      | none => outSchedule o now t
      | some n =>
        if x.high then
          (if now ≤ n then t
           else outSchedule o now (cnt (setOut o { x with high := false, armed := x.cfg.mode ≤ 2 } t) (tuBase + 0x18)))
        else if x.cfg.mode ≤ 2 ∧ now ≤ n then t
        else outSchedule o (if x.cfg.mode ≤ 2 then n else now) t) s

/-! ### Applying changes -/

/-- A change applied at the hub, `late` cycles after its TICK: count, state and events (R463, R465, R487). -/
def applyHub (tb : Nat) (h : TimeChange) (late : Nat) (s : State) : State :=
  let t := tbAt s tb
  let t1 := { t with core := t.core.changeLate h late }
  match h with
  | .load _ _ _ =>
    let t2 := { t1 with everLocked := false, outCount := 0, inside := false,
                        twin := if t.core.run ∧ t.twin.run then t.twin else { t1.core with run := t.twinKind ≠ 0 } }
    outsAfter tb (setTbState tb (if t.state = 0xC6 then 0xC6 else 0xC1) (setTb s tb t2))
  | .step n => outsAfter tb (raise 0x0503 1 0x004 [word tb, word (uint 32 n)] (setTb s tb t1))
  | .stop =>
    outsAfter tb (setTbState tb 0xC0 (setTb s tb { t1 with
      priValid := false, twinValid := false, twinLocked := false, twinSlew := false, offset := 0, errEst := 0,
      twin := { t1.twin with run := false } }))
  | .host f => setTbState tb 0xC6 (setTb s tb { t1 with func := f, priValid := false, twinValid := false })
  | _ => setTb s tb t1

/-- A change applied at the hub or a die; a die counts one that is late (R469). -/
def applyChange (e : PendingChange) (s : State) : State :=
  let late := s.tu.tick - e.tick
  if e.die = 0 then applyHub e.tb e.change late s
  else
    let r := sget {} s.tu.replicas e.die
    let c := (sget {} r.cores e.tb).changeLate e.change late
    let s1 := { s with tu := { s.tu with replicas := sset {} s.tu.replicas e.die { r with cores := sset {} r.cores e.tb c } } }
    if late = 0 then s1 else cnt s1 (tuBase + 8)

/-- The replicas of a die, and its TICK, loaded with the hub's (R468). -/
def loadReplicas (die : Nat) (s : State) : State :=
  let cores := (upto 8).foldl (fun (m : Sparse TbCore) n => sset {} m n (tbAt s n).core) []
  { s with tu := { s.tu with
      replicas := sset {} s.tu.replicas die { loaded := true, cores := cores },
      changes := s.tu.changes.filter (fun e => e.die ≠ die) ++
        (s.tu.changes.filter (fun e => e.die = 0 && (match e.change with
          | .host _ => false
          | _ => true))).map (fun e => { e with die := die }) } }

/-! ### Register views (R465, R466, R486) -/

def tuReg (tb off : Nat) : Nat := tuBase + 0x100 + 0x40 * tb + off
def capReg (c off : Nat) : Nat := tuBase + 0x400 + 0x10 * c + off
def outReg (o off : Nat) : Nat := tuBase + 0x800 + 0x10 * o + off

/-- TU_TB_STATE; while STOPPED its fields but STATE read zero. -/
def tbStateWord (s : State) (tb : Nat) : Word :=
  let t := tbAt s tb
  if !t.core.run then 0xC0
  else word (b2n t.slewing * 2 ^ 31 + b2n t.twinLocked * 2 ^ 30 + b2n t.model.valid * 2 ^ 29 + b2n t.stepOk * 2 ^ 28
    + (if t.state = 0xC0 then 0xC1 else t.state))

/-- The live values of a time base's latched registers, as a latch of a station. -/
def liveLatch (s : State) (station tb : Nat) : ReadLatch :=
  let c := (tbAt s tb).core
  { station := station, tb := tb, frac := c.frac, wraps := c.wraps, setSeq := c.setSeq, stepAcc := c.stepAcc,
    origin := c.origin }
/-- A latched register at offset `off` of a time base, from a latch. -/
def latchWord (l : ReadLatch) (off : Nat) : Word :=
  match off with
  | 0x04 => word l.frac
  | 0x08 => word (l.wraps + l.setSeq * 2 ^ 8)
  | 0x10 => word (uint 64 l.stepAcc)
  | 0x14 => hi32 (uint 64 l.stepAcc)
  | 0x20 => lo32 l.origin
  | 0x24 => hi32 l.origin
  | _ => 0

/-- The register at offset `off` of a time base, live. -/
def tbWord (s : State) (tb off : Nat) : Word :=
  let t := tbAt s tb
  if off = 0x0C then tbStateWord s tb
  else if !t.core.run then 0
  else match off with
    | 0x00 => word t.core.ns
    | 0x18 => word (uint 32 t.core.rate)
    | 0x1C => word (uint 32 (clampS 32 (phaseNs t.core.slewRem)))
    | 0x28 => word (uint 32 (clampS 32 (phaseNs t.twinOffset)))
    | 0x2C => word (uint 32 t.offset)
    | 0x30 => word (min (2 ^ 32 - 1) t.errEst)
    | _ => latchWord (liveLatch s 0 tb) off

/-- Offsets whose reads are latched (R466). -/
def latchedOffs : List Nat := [0x04, 0x08, 0x10, 0x14, 0x20, 0x24]

/-- A read of TU_TB_NS latches the rest for the reading station; the least recently used latch is reused. -/
def readNs (station tb : Nat) (s : State) : Word × State :=
  let l := (s.tu.latches.filter (fun l => l.station ≠ station || l.tb ≠ tb)).take 31
  (tbWord s tb 0, { s with tu := { s.tu with latches := liveLatch s station tb :: l } })

/-- A read of a time base's register by a station. -/
def readTb (station tb off : Nat) (s : State) : Word × State :=
  if off = 0 then readNs station tb s
  else if !latchedOffs.contains off then (tbWord s tb off, s)
  else
    let mine (l : ReadLatch) : Bool := l.station = station && l.tb = tb
    match s.tu.latches.find? mine with
    | some l =>
      let s1 := { s with tu := { s.tu with latches := l :: s.tu.latches.filter (fun x => !mine x) } }
      (if (tbAt s tb).core.run then latchWord l off else 0, s1)
    | none => (tbWord s tb off, cnt s (tuBase + 4))

/-- The captured record at the head of a channel. -/
def capHead (s : State) (c : Nat) : Option CapRecord := (sget {} s.tu.caps c).records.head?
/-- A register of the time unit other than a time base's (R472, R473, R486). -/
def tuWord (s : State) (off : Nat) : Word :=
  if off = 0 then word ((upto 8).foldl (fun a n => a + b2n (tbAt s n).core.run * 2 ^ n) 0)
  else if 0x400 ≤ off ∧ off < 0x600 then
    let c := (off - 0x400) / 16
    match off % 16, capHead s c with
    | 4, some r => word r.ns
    | 8, some r => word (1 + b2n r.falling * 2 ^ 8 + r.sub * 2 ^ 16 + r.wraps * 2 ^ 24)
    | 0, _ => setFld (rd s (tuBase + off)) 20 16 (sget {} s.tu.caps c).records.length
    | _, _ => 0
  else if 0x800 ≤ off ∧ off < 0x900 then
    let o := sget {} s.tu.outs ((off - 0x800) / 16)
    if off % 16 = 0 then word (o.cfg.mode + o.cfg.tb * 2 ^ 8 + b2n o.next.isSome * 2 ^ 16)
    else if off % 16 = 4 then (match o.next with
      | some t => word (t + 2 ^ 64 - (tbAt s o.cfg.tb).core.origin)
      | none => 0)
    else 0
  else rd s (tuBase + off)

/-! ### Capture (R472) -/

/-- An edge taken by a capture channel: recorded, or OVF when 16 records are held. -/
def captureEdge (ch : Nat) (falling : Bool) (s : State) : State :=
  let w := rd s (capReg ch 0)
  let c := sget {} s.tu.caps ch
  let core := (tbAt s (fld w 10 8)).core
  let soon : Bool := match c.last with
    | some t => decide (s.tu.tick < t + 10)
    | none => false
  if !core.run ∨ !(fld w 1 0).testBit (b2n falling) ∨ soon then s
  else
    let s1 := { s with tu := { s.tu with caps := sset {} s.tu.caps ch { c with last := some s.tu.tick } } }
    if c.records.length < 16 then
      let r : CapRecord := { ns := core.ns, wraps := core.wraps, sub := core.sub, falling := falling }
      { s1 with tu := { s1.tu with caps := sset {} s1.tu.caps ch { records := c.records ++ [r], last := some s.tu.tick } } }
    else
      let s2 := cnt (wrB s1 (capReg ch 0) 31 true) (tuBase + 0x14)
      if bit w 31 then s2 else raise 0x0508 1 0x004 [word ch] s2

/-- The oldest record removed by a read of TU_CAP_INFO. -/
def capPop (ch : Nat) (s : State) : State :=
  let c := sget {} s.tu.caps ch
  { s with tu := { s.tu with caps := sset {} s.tu.caps ch { c with records := c.records.drop 1 } } }

/-- A rising edge at a channel places the TIME_SETs that wait for it: the count reads what was asked at this edge, and
is loaded at the change's TICK, advanced since (R487). -/
def edgeSets (ch : Nat) (s : State) : State :=
  let due := s.tu.atEdge.filter (fun e => e.ch = ch)
  let s1 := { s with tu := { s.tu with atEdge := s.tu.atEdge.filter (fun e => e.ch ≠ ch) } }
  due.foldl (fun t e =>
    let c : TbCore := { run := true, cnt := e.cnt, origin := e.origin, rate := e.rate }
    let d := c.advN 4096
    let t1 := sendChange e.tb (.load d.cnt d.origin e.rate) t
    answer e.booth stOk (heldState t1 e.tb) 0 [word (t.tu.tick + 4096)] t1) s1

/-! ### The servo's moves (R465, R474, R478, R480) -/

/-- The model's y in units of 10^-15 / (86,400 x 10^6), at a temperature in thousandths of a degree. -/
def OscModel.y (m : OscModel) (temp : Int) : Int :=
  let d := temp - m.t0
  m.y0 * 86400000000 + m.a * m.age * 1000000 + m.c1 * d * 86400000 + m.c2 * d * d * 86400
/-- Temperature of a model's sensor in thousandths of a degree; its T0 while the sensor gives none. -/
def modelTemp (s : State) (m : OscModel) : Int := match tempOf s m.sensor with
  | some v => v * 100
  | none => m.t0
/-- SIGMA_Y and SIGMA_A in force: 10^-9 and 0 without a valid model. -/
def OscModel.sigmas (m : OscModel) : Nat × Nat := if m.valid then (m.sigmaY, m.sigmaA) else (1000000, 0)
/-- u of R480 in units of 1 / (2 x 10^6) ns. -/
def TimeBase.u2 (t : TimeBase) : Nat :=
  2000000 * t.u0 + 2 * t.model.sigmas.1 * t.lostSecs + t.model.sigmas.2 * t.lostSecs * t.lostSecs
/-- The device's own u in ns (R480). -/
def TimeBase.ownU (t : TimeBase) : Nat := t.u2 / 2000000

/-- HOLDOVER entered: RATE_L, y_L and U0 kept (R480). -/
def enterHoldover (tb : Nat) (rate : Int) (s : State) : State :=
  let t := tbAt s tb
  setTbState tb 0xC4 (setTb s tb { t with rateL := rate, yL := t.model.y (modelTemp s t.model), u0 := t.filt, lostSecs := 0,
                                          enSecs := 0, limitRaised := false, errEst := t.filt })

/-- A twin switch (R478): the twin's RATE, a slew by the twin's offset, the sources exchanged. -/
def twinSwitch (tb : Nat) (byCmd : Bool) (s : State) : State :=
  let t := tbAt s tb
  let o := t.twinOffset
  let s1 := sendChange tb (.slew o t.slewPpb) (sendChange tb (.rate t.twin.rate) s)
  let s2 := setTb s1 tb { t with priKind := t.twinKind, priCh := t.twinCh, priValid := t.twinValid,
                                 twinKind := t.priKind, twinCh := t.priCh, twinValid := t.priValid,
                                 twinLocked := false, twinSlew := true, outCount := 0 }
  raise 0x0502 1 0x004 [word tb, word (uint 32 (clampS 32 (phaseNs o))), word (b2n byCmd)] s2

/-- The primary source is gone (R465, R478): a twin switch while the twin is LOCKED, else HOLDOVER once LOCKED, else
FREE. Lost during a twin switch's slew, the slew stops where it stands. -/
def primaryGone (tb : Nat) (s : State) : State :=
  let t := tbAt s tb
  let s1 := setTb s tb { t with priValid := false, outCount := 0, inside := false }
  if t.state ≠ 0xC2 ∧ t.state ≠ 0xC3 then s1
  else if !t.everLocked then setTbState tb 0xC1 s1
  else if t.twinSlew then
    enterHoldover tb (heldRate s tb) (setTb (sendChange tb (.slewNew 0 0) s1) tb { (tbAt s1 tb) with twinSlew := false })
  else if t.twinLocked then twinSwitch tb false s1
  else enterHoldover tb (heldRate s tb) s1

/-! ### The firmware's classifier entries (R475, R476, R481) -/

/-- Engine and port of a key on port `k` of engine `p` (14 R440). -/
def keyPlace (s : State) (p k : Nat) : Nat := if rdB s (penCfg p k) 19 then p % 16 * 2 ^ 4 + k * 2 ^ 8 else 0
/-- PTP ports enabled. -/
def ptpPorts (s : State) : List PtpPort := ((upto 32).map (fun i => sget none s.tu.ptp i)).filterMap id
/-- Ports of a 512-bit mask: engine and port. -/
def maskPorts (m : Nat) : List (Nat × Nat) := ((upto 512).filter (fun i => m.testBit i)).map (fun i => (i / 8, i % 8))
/-- Lane die and key of every entry that the firmware needs: kind 2 by port and messageType, kind 6 by ensemble port,
kind 5 for ESMC on the ports of the candidate lanes. -/
def timeKeys (s : State) : List (Nat × List Word) :=
  ((ptpPorts s).flatMap (fun (p : PtpPort) => [0, 1, 8, 9, 0xB].map (fun (m : Nat) =>
    (p.pe / 16, [word (2 + keyPlace s p.pe p.port), word (m + p.domain * 2 ^ 8), 0, 0])))
  ++ (if s.tu.ens.enable then (maskPorts s.tu.ens.ports).map (fun (e : Nat × Nat) => (e.1 / 16, [word (6 + keyPlace s e.1 e.2), 0, 0, 0])) else [])
  ++ (if s.tu.synce.enable then (s.tu.synce.srcs.filter (fun (x : SyncSrc) => x.prio ≠ 0)).map (fun (x : SyncSrc) =>
        (x.lane / 128, [word (5 + keyPlace s (x.lane / 8) (x.lane % 8)), 0x00C28001, 0x09880200, 0])) else [])).eraseDups
/-- Action of those entries: station 0x0_04, HDR = 1, no policer. -/
def timeAction : List Word := [0x2004, 0xFFF, 0, 0]
/-- The entries of the firmware brought from those of `old` to those that `s` needs; none when a bucket is full. -/
def syncKeys (old : List (Nat × List Word)) (s : State) : Option State :=
  let new := timeKeys s
  let s1 := (old.filter (fun e => !new.contains e)).foldl (fun t e =>
    match clsFind t.lan.cls e.1 e.2 with
    | some i => { t with lan := { t.lan with cls := sdel t.lan.cls i, clsKept := sdel t.lan.clsKept i } }
    | none => t) s
  (new.filter (fun e => !old.contains e)).foldl (fun (o : Option State) e => o.bind (fun t =>
    match (clsFind t.lan.cls e.1 e.2).orElse (fun _ => clsFree t.lan.cls e.1 e.2) with
    | some i => some { t with lan := { t.lan with cls := sset [] t.lan.cls i (e.2 ++ timeAction),
                                                  clsKept := sset [] t.lan.clsKept i (e.2 ++ timeAction) } }
    | none => none)) (some s1)

/-! ### The ensemble (R482-R485) -/

/-- Integer square root, bit by bit from bit `k`. -/
def isqrtGo (n : Nat) : Nat → Nat → Nat
  | 0, r => r
  | k + 1, r => let c := r + 2 ^ k
                isqrtGo n k (if c * c ≤ n then c else r)
def isqrt (n : Nat) : Nat := isqrtGo n 64 0

/-- ui^2 of a peer in ns^2. -/
def peerQ (e : Ensemble) (p : Peer) : Nat :=
  let q := p.uncert * p.uncert + e.asymUnc * e.asymUnc
  if p.peerState = 0xC5 then q * e.derate * e.derate else q
/-- Twice the median of a sorted list. -/
def median2 (l : List Int) : Int :=
  let n := l.length
  l.getD ((n - 1) / 2) 0 + l.getD (n / 2) 0
/-- Signed integers in rising order. -/
def sortInts (l : List Int) : List Int := sortBy (fun i => (i + 2 ^ 80).toNat) l
/-- Scaled weight of a square uncertainty. -/
def weightOf (q : Nat) : Nat := 2 ^ 160 / q
/-- VALID peers, with those excluded in the last round taken up again. -/
def validPeers (l : List Peer) : List Peer := l.filter (fun p => p.st = 2 || p.st = 4)
/-- R484: at least MIN_PEERS peers VALID with UNCERT below the device's own u. -/
def ensembleMet (s : State) : Bool :=
  let t := tbAt s s.tu.ens.tb
  s.tu.ens.enable && decide (s.tu.ens.minPeers ≤ ((validPeers s.tu.peers).filter (fun p => p.uncert < t.ownU)).length)

end Sys2Proof.Machine
end

