-- ==== Sys2Proof/Machine/DieLoss.lean ====
section
/-!
DEFINITION. Resets and losses of dies and of blocks as operations (03 R89-R94; 04 R125; 07 R220, R221; 12 R365;
13 R412; 14 R452; 18 R555; 19 R566).
-/
namespace Sys2Proof.Machine

/-! ### What a grove's loss does to its loads and regions (04 R125) -/

/-- Loads fail, timed edges are answered ABSENT, every region is EMPTY. -/
def regionsGone (g : Nat) (s : State) : State :=
  let s1 := (s.cfg.loads.filter (fun l => l.grove = g)).foldl (fun t l =>
    let t1 := match l.header with
      | some b => answer b stAbsent 0x40 0 [] t
      | none => t
    loadFailed l stAbsent 0 l.next t1) s
  let s2 := (s1.cfg.edges.filter (fun e => e.grove = g)).foldl (fun t e =>
    match e.booth with
    | some b => answer b stAbsent 0x40 0 [] t
    | none => t) s1
  let s3 := { s2 with cfg := { s2.cfg with edges := s2.cfg.edges.filter (fun e => e.grove ≠ g),
                                           auto := s2.cfg.auto.filter (fun k => k / 17 ≠ g) } }
  (upto 17).foldl (fun t r => wr t (regionReg g r) 0x40) (dropPlan g s3)

/-! ### The units of a die that is reset -/

/-- The fabric of a grove: both planes, block RAM, ports and trace memory; a user NVM command is cut short (05 R160). -/
def fabricReset (g : Nat) (s : State) : State :=
  let s1 := tick1 (nvmCut g s)
  let f := s1.fab
  let mine (w : Nat) (k : Nat) : Bool := k / w = g
  { s1 with fab := { f with
      live := sdrop f.live (mine 524288), shadow := sdrop f.shadow (mine 524288),
      liveHeads := sdrop f.liveHeads (mine 409600), shadowHeads := sdrop f.shadowHeads (mine 409600),
      bram := sdrop f.bram (mine 4194304),
      bramVoid := sset none (sdrop f.bramVoid (mine 2048)) (g * 2048 + 2047) (some s.fresh), mends := sdrop f.mends (mine 8192), bramPorts := sdrop f.bramPorts (mine 4096),
      writeBacks := f.writeBacks.filter (fun x => x.1 / 2048 ≠ g), sweepPos := sdrop f.sweepPos (mine 2048),
      sweepFound := sdrop f.sweepFound (mine 2048), serial := sdrop f.serial (mine 8),
      badPins := f.badPins.filter (fun k => k / 128 ≠ g), trace := sdrop f.trace (mine 131072),
      samples := sdel f.samples g, postLeft := sdel f.postLeft g } }

/-- The remote cache and the home directory of a grove, with all they had begun. -/
def rmcDieReset (g : Nat) (s : State) : State :=
  { s with rmc := { s.rmc with
      lines := sdrop s.rmc.lines (fun k => k / 262144 = g), fills := s.rmc.fills.filter (fun f => f.grove ≠ g),
      reqs := s.rmc.reqs.filter (fun r => r.grove ≠ g), checks := s.rmc.checks.filter (fun c => c.grove ≠ g),
      dir := sdrop s.rmc.dir (fun k => k / 1048576 = g), homeReqs := s.rmc.homeReqs.filter (fun r => r.home ≠ g),
      evicts := s.rmc.evicts.filter (fun e => e.home ≠ g), recalls := s.rmc.recalls.filter (fun r => r.home ≠ g) } }

/-- A channel that loses its work: its entries and its buffer are gone, a fill is aborted. -/
def channelIdle (x : Channel) : Channel :=
  { ({} : Channel) with fill := x.fill.map (fun f => { f with aborted := true }) }

/-- The registers of a channel that the Warden copies to the hub before a reset with KEEP_DRAM (12 R365, R389). -/
def keptMem (s : State) (c : Nat) : List (Nat × Word) :=
  let a := memBlk c
  [(a, rd s a &&& 0x003300FF), (a + 4, rd s (a + 4)), (a + 8, rd s (a + 8)), (a + 0xC, rd s (a + 0xC) &&& 0x07FF0000)]
    ++ (upto 18).map (fun n => (a + 0x400 + 4 * n, rd s (a + 0x400 + 4 * n)))
/-- Those of a grove's encryption regions: configuration, broken list (13 R412). -/
def keptEnc (s : State) (g : Nat) : List (Nat × Word) :=
  (encBlk g, rd s (encBlk g) &&& 0x007F0000)
    :: ((upto 32).map (fun i => encBlk g + 0x100 + 4 * i) ++ (upto 128).map (fun i => encBlk g + 0x400 + 4 * i)).map
      (fun a => (a, rd s a))

def putRegs (l : List (Nat × Word)) (s : State) : State := l.foldl (fun t e => wr t e.1 e.2) s

/-- Keys of the copies: MEM registers, ENC registers, and the mark of a rejoin from LOST. -/
def keptAt (s : State) (k : Nat) : List (Nat × Word) := sget [] s.dram.kept k
def setKeptAt (k : Nat) (l : List (Nat × Word)) (s : State) : State :=
  { s with dram := { s.dram with kept := sset [] s.dram.kept k l } }

/-- The copies taken before a reset with KEEP_DRAM: of the channels in self-refresh, and of the regions. From LOST the
roots and clocks are lost with the die. A BUILDING region becomes FREE, but from LOST it returns BROKEN (13 R412). -/
def keepDram (g : Nat) (lost : Bool) (s : State) : State :=
  let s1 := ([2 * g, 2 * g + 1].filter (fun c => chanState s c ≠ 0x94)).foldl (fun t c => unmapChan c t) s
  let s2 := (upto 8).foldl (fun t r =>
    if lost then
      (if rgnState t g r = 0xA0 then t
       else setRgn g r { rgnAt t g r with root := List.replicate 7 0, flips := [], jobs := [] }
        (if rgnState t g r = 0xA1 then setRgnState g r 0xA2 t else t))
    else if rgnState t g r = 0xA1 then freeRegion g r t
    else if rgnState t g r = 0xA0 then t else setRgn g r { rgnAt t g r with jobs := [] } t) s1
  let cs := [2 * g, 2 * g + 1].filter (fun c => chanState s2 c = 0x94)
  let s3 := setKeptAt g (cs.flatMap (keptMem s2)) (setKeptAt (g + 8) (keptEnc s2 g) s2)
  let s4 := setKeptAt (g + 16) (if lost then [(0, 1)] else []) s3
  let ps := [2 * g, 2 * g + 1].map (fun c => (chanAt s4 c).period)
  { s4 with dram := { s4.dram with keptPeriods := sset [] s4.dram.keptPeriods g ps } }

/-- The DRAM channels and the encryption of a grove through its die reset. -/
def dramDieReset (g : Nat) (keep lost : Bool) (s : State) : State :=
  let s1 := if keep then keepDram g lost s
    else setKeptAt g [] (setKeptAt (g + 8) [] (setKeptAt (g + 16) [] ((upto 8).foldl (fun t r => freeRegion g r t) s)))
  let stays (c : Nat) : Bool := keep && chanState s1 c = 0x94
  let s2 := [2 * g, 2 * g + 1].foldl (fun t c =>
    let t1 := if chanState t c = 0x92 then finishTrain c stFailed 0x0704 [] t else t
    let t2 := setChan c (channelIdle (chanAt t1 c)) t1
    if stays c then t2 else { t2 with dram := { t2.dram with cells := sdrop t2.dram.cells (fun k => k / 2 ^ 34 = c) } }) s1
  { s2 with dram := { s2.dram with
      accesses := s2.dram.accesses.filter (fun a => a.pkt.dst / 256 ≠ 8 + g),
      cache := sdrop s2.dram.cache (fun k => k / 2 ^ 43 = g),
      tagSince := sdel s2.dram.tagSince g, tagLast := sdel s2.dram.tagLast g } }

/-- At REJOIN the Warden restores the channels; R373 brings them back (12 R365, R389). -/
def restoreMem (g : Nat) (s : State) : State :=
  let ps := sget [] s.dram.keptPeriods g
  let s1 := putRegs (keptAt s g) s
  let s2 := (upto 2).foldl (fun t i => modChan (2 * g + i) (fun x => { x with period := ps.getD i 0 }) t) s1
  setKeptAt g [] { s2 with dram := { s2.dram with keptPeriods := sdel s2.dram.keptPeriods g } }

/-- Once the channels have come back the regions resume, BROKEN after a rejoin from LOST (13 R412). -/
def restoreEnc (g : Nat) (s : State) : State :=
  if keptAt s (g + 8) = [] ∨ chanState s (2 * g) = 0x94 ∨ chanState s (2 * g + 1) = 0x94 then s
  else
    let s1 := putRegs (keptAt s (g + 8)) s
    let s2 := if keptAt s (g + 16) = [] then s1 else (upto 8).foldl (fun t r => breakRegion g r 3 t) s1
    setKeptAt (g + 8) [] (setKeptAt (g + 16) [] s2)

/-- An engine of a lane die: its registers, queues and gate lists (03 R89; 14 R455). -/
def engineReset (p : Nat) (s : State) : State :=
  let s1 := dropRegs s (penBlk p) (penBlk p + 0x10000)
  let l := s1.lan
  let port (k : Nat) : Bool := k / 8 = p
  { s1 with lan := { l with
      active := sdel l.active p, shadow := sdel l.shadow p, txq := l.txq.filter (fun f => f.pe ≠ p),
      rxq := l.rxq.filter (fun f => f.pe ≠ p), leaving := sdrop l.leaving port, wire := sdrop l.wire port,
      units := sdel l.units p, blocks := sdrop l.blocks port, fecLast := sdel l.fecLast p, fecSince := sdel l.fecSince p } }
/-- The classifier entries and policers of a lane die. -/
def classifierReset (l : Nat) (s : State) : State :=
  { s with lan := { s.lan with cls := sdrop s.lan.cls (fun k => k / 65536 = l), pol := sdrop s.lan.pol (fun k => k / 4096 = l) } }

/-- The lanes and engines of a lane die (14 R452, R455). -/
def laneDieReset (d : Nat) (s : State) : State :=
  let s1 := classifierReset (d - 1) ((upto 16).foldl (fun t j => engineReset (16 * (d - 1) + j) t) s)
  let lane (k : Nat) : Bool := k / 128 = d - 1
  { s1 with lan := { s1.lan with sigLast := sdrop s1.lan.sigLast lane, sigSince := sdrop s1.lan.sigSince lane,
                                 prbsAt := sdrop s1.lan.prbsAt lane } }

/-! ### The die -/

/-- Link units of a die that have a peer. -/
def unitsOf (d : Nat) : List Nat := (upto 12).filter (fun u => (linkPeer d u).isSome)

/-- Requests of other dies that the die had taken and not answered: the bridges answer them (06 R192). -/
def heldRequests (d : Nat) (s : State) : List Packet :=
  let g := d - 8
  (s.bough.inbox.filter (fun p => p.dst / 256 = d)
    ++ (if isGroveDie d then
          (s.rmc.homeReqs.filter (fun r => r.home = g)).map (·.pkt)
            ++ (s.dram.accesses.filter (fun a => a.pkt.dst / 256 = d)).map (·.pkt)
        else [])).filter (fun p => (p.op = 1 || p.op = 2) && p.src / 256 ≠ d)

/-- The Bough stations, bridges and link units of a die: route tables, slots and counters are lost. -/
def boughDieReset (d : Nat) (s : State) : State :=
  let b := s.bough
  let back := heldRequests d s
  let s1 := { s with
    net := s.net.filter (fun p => !(p.src / 256 = d && p.dst / 256 = d)) ++ back
    bough := { b with
      blocks := sdrop b.blocks (fun k => k / 16 = d), entries := sdrop b.entries (fun k => k / 4096 / 256 = d),
      rewrites := b.rewrites.filter (fun x => x.2.1 / 4096 / 256 ≠ d), used := sdrop b.used (fun k => k / 256 = d),
      waiting := b.waiting.filter (fun p => p.src / 256 ≠ d), inbox := b.inbox.filter (fun p => p.dst / 256 ≠ d),
      counters := sdrop b.counters (fun k => k / 8 = d), sinkSince := sdrop b.sinkSince (fun k => k / 256 = d),
      gateSince := sdrop b.gateSince (fun k => k / 256 = d) } }
  (unitsOf d).foldl (fun t u => setLink d u {} t) s1

/-- The clocks of a die: loops, stopped blocks, the lock of its root (03 R79, R88). -/
def clkDieReset (d : Nat) (s : State) : State :=
  wrB { s with clk := { s.clk with stopped := s.clk.stopped.filter (fun k => k / 32 ≠ d),
                                   fuls := sdrop s.clk.fuls (fun k => isGroveDie d && k / 32 = d - 8),
                                   released := s.clk.released.filter (· ≠ d) } } clkReady (8 + d) false

/-- The die reset is asserted (03 R91, R93; 18 R555; 19 R566). Its state reads RESET with its registers. -/
def assertReset (d : Nat) (keep : Bool) (s : State) : State :=
  let lost := dieState s d = 0x35
  let g := d - 8
  let s1 := setDieState d 0x33 (breakDie d (if isGroveDie d then regionsGone g s else s))
  let s2 := rasDieReset d s1
  let s3 := if isGroveDie d then
      xltReset g true (portersReset d (dspReset g (tilesReset g (rmcDieReset g (dramDieReset g keep lost (fabricReset g s2))))))
    else laneDieReset d s2
  let s4 := clkDieReset d (boughDieReset d s3)
  let s5 := dropRegs { s4 with
    tu := { s4.tu with replicas := sdel s4.tu.replicas d, changes := s4.tu.changes.filter (fun e => e.die ≠ d) }
    dbg := { s4.dbg with stoppedDies := s4.dbg.stoppedDies.filter (· ≠ d) } } (dieWin d) (dieWin d + 0x800000)
  if isGroveDie d then keepWorn g s s5 else s5

/-- Step 1 of R93 is over: no channel of the die is left to enter self-refresh. -/
def refreshed (s : State) (d : Nat) : Bool :=
  !isGroveDie d || [2 * (d - 8), 2 * (d - 8) + 1].all (fun c => chanState s c ≠ 0x93)

/-- A channel whose clock is lost keeps its contents only in self-refresh, which a reset with KEEP_DRAM gives it. -/
def refreshLost (d : Nat) (s : State) : State :=
  if !isGroveDie d then s
  else [2 * (d - 8), 2 * (d - 8) + 1].foldl (fun t c => if chanState t c = 0x93 then setChanState c 0x94 t else t) s

/-- The die enters LOST (03 R94). -/
def dieLost (d : Nat) (s : State) : State :=
  bootAdvance (setDieState d 0x35 (breakDie d (if isGroveDie d then regionsGone (d - 8) s else s)))

/-- What the surviving groves' caches and homes do when a grove is gone (07 R220). -/
def groveGone (g : Nat) (s : State) : State := cacheLost g (homeLost g s)

/-- Monitor M7 at a unit: the bridge isolates the peer, and the survivors act when its die is reset or lost (03 R90;
07 R208, R220). -/
def peerClockLost (d u : Nat) (s : State) : State :=
  match linkPeer d u with
  | none => s
  | some (p, v) =>
    let s1 := monFault d 7 2 0 (setLink d u { linkAt s d u with clock := false } s)
    let s2 := if unitState s1 d u = 0x60 then s1 else unitGoesDown d u 0 s1
    let gone := p ≠ 0 ∧ (dieState s2 p = 0x33 ∨ dieState s2 p = 0x35)
    let s3 := if gone ∧ dieState s2 p = 0x33 then wrF s2 (lnkBlk p v) 23 16 0x60 else s2
    if gone ∧ isGroveDie p then groveGone (p - 8) s3 else s3

/-- The die is there for its neighbours: released and not LOST; the hub always. -/
def dieThere (s : State) (d : Nat) : Bool := d = 0 || (s.clk.released.contains d && dieState s d ≠ 0x35)

/-- The units of a die begin training toward the neighbours that are there (07 R208). -/
def trainUnits (d : Nat) (s : State) : State :=
  (unitsOf d).foldl (fun t u =>
    match linkPeer d u with
    | some (p, _) =>
      if dieThere t p ∧ !unitRuns t d u ∧ unitState t d u ≠ 0x61 then startTrain d u false (setLink d u { linkAt t d u with clock := true } t)
      else t
    | none => t) s

/-! ### Blocks (03 R88, R89) -/

/-- A block still holds Bough transactions of its own. -/
def blockBusy (s : State) (d blk : Nat) : Bool :=
  if (isGroveDie d ∧ blk = 1) ∨ (d = 0 ∧ blk = 0) then
    (channelsOf d).any (fun c => (porterAt s c).reading || (porterAt s c).recording || (porterAt s c).beats.any (fun b => b.st = .reading || b.st = .writing))
  else if isGroveDie d ∧ (blk = 3 ∨ blk = 4) then
    let c := 2 * (d - 8) + (blk - 3)
    chanState s c = 0x93 || (chanAt s c).queue ≠ []
  else if isGroveDie d ∧ blk = 0 then s.dsp.reads.any (fun k => k / 2 ^ 21 = d - 8)
  else if isGroveDie d ∧ blk = 2 then s.xlt.walks.any (fun w => w.grove = d - 8 && w.sent)
  else false

/-- A DRAM channel's half of its block at reset values: it is OFF and no longer mapped. -/
def channelReset (c : Nat) (s : State) : State :=
  let s1 := unmapChan c s
  let map := rd s1 (memBlk c + 8)
  let s2 := dropRegs (setChan c (channelIdle (chanAt s1 c)) s1) (memBlk c) (memBlk c + 0x10000)
  wr s2 (memBlk c + 8) map

/-- A block back at its reset values. -/
def resetBlock (d blk : Nat) (s : State) : State :=
  let g := d - 8
  if isLaneDie d then (if blk < 16 then engineReset (16 * (d - 1) + blk) s else classifierReset (d - 1) s)
  else if d = 0 then
    (if blk = 0 then portersReset 0 s else { s with pins := { s.pins with uarts := [], sent := [], spiMode := [] } })
  else match blk with
    | 0 => dspReset g s
    | 1 => portersReset d s
    | 2 => xltReset g false s
    | 3 => channelReset (2 * g) s
    | 4 => channelReset (2 * g + 1) s
    | 5 => dropRegs ((upto 8).foldl (fun t r => freeRegion g r t) s) (encBlk g) (encBlk g + 0x10000)
    | 6 => dropRegs (homeLost g (dirEmpty g (cacheLost g (ownCacheDrop g s)))) (rmcBlk g) (rmcBlk g + 0x10000)
    | 7 => dropRegs s (dbgBlk g + 0x100) (dbgBlk g + 0x120)
    | 8 => tilesReset g s
    | 11 => nvmCut g s
    | 9 => s
    | 10 => s
    | k => setSerial g (k - 12) {} s

end Sys2Proof.Machine
end

