-- ==== Sys2Proof/Machine/Dies.lean ====
section
/-!
DEFINITION. Meanings of the monitors of root and neighbour clocks, of block and die resets, of the power states and of
self-refresh, and the CLK commands that name a die (03 R81, R88-R97; 07 R208, R220; 12 R372, R373).
-/
namespace Sys2Proof.Machine

/-! ### Losing a clock (03 R90, R94; 07 R208, R220) -/

/-- M5: the die loses its root and enters LOST, unless it is in RESET. -/
def execDclLockLost (die : Nat) (s : State) : Host.Outcome State Fault Refusal :=
  Next (if s.pkg.held ∨ die = 0 ∨ !isDie die then s
    else
      let s1 := monFault die 5 2 0 (wrB (wrB s (clkBlk die) 31 false) clkReady (8 + die) false)
      if dieState s1 die = 0x33 ∨ dieState s1 die = 0x35 then s1 else dieLost die s1)

/-- M7: a neighbour's forwarded clock is gone. -/
def execPeerClockLost (die unit : Nat) (s : State) : Host.Outcome State Fault Refusal :=
  Next (if s.pkg.held ∨ !dieAlive s die ∨ !(linkAt s die unit).clock then s else peerClockLost die unit s)

/-- The neighbour's clock is back: a unit DOWN with cause 0 trains, its peer not being LOST. -/
def execPeerClockReturn (die unit : Nat) (s : State) : Host.Outcome State Fault Refusal :=
  Next (match linkPeer die unit with
    | none => s
    | some (p, _) =>
      let e := eventEnd die unit
      if s.pkg.held ∨ !dieThere s die ∨ !dieThere s p ∨ !unitDown s die unit ∨ rdF s (lnkBlk e.1 e.2) 25 24 ≠ 0 then s
      else startTrain die unit false (setLink die unit { linkAt s die unit with clock := true } s))

/-! ### Blocks (03 R88, R89) -/

/-- A block whose gate bit was cleared stops its clock, holding no Bough transaction outstanding; the encryption unit
writes its cache back, a channel has entered self-refresh (R88; 13 R412). -/
def execBlockClockStop (die blk : Nat) (s : State) : Host.Outcome State Fault Refusal :=
  Next (if !isDie die ∨ gateBits die ≤ blk ∨ !gated s die blk ∨ s.clk.stopped.contains (die * 32 + blk) ∨ blockBusy s die blk then s
    else
      let s1 := if isGroveDie die ∧ blk = 5 then writeBackAll (die - 8) s else s
      { s1 with clk := { s1.clk with stopped := s1.clk.stopped ++ [die * 32 + blk] } })

/-- A write of RST_BLOCK by the Warden: the bits written as 1 read 1 until their resets complete. -/
def execBlockReset (src : Writer) (die : Nat) (bits : Word) (s : State) : Host.Outcome State Fault Refusal :=
  Next (if s.pkg.held ∨ src ≠ .warden ∨ !dieAlive s die ∨ !isDie die then s
    else wr s (clkBlk die + 0x108) (rd s (clkBlk die + 0x108) ||| word (bits.toNat % 2 ^ gateBits die)))

/-- A block reset completes, once the block is not gated. -/
def execBlockResetDone (die blk : Nat) (s : State) : Host.Outcome State Fault Refusal :=
  Next (if !isDie die ∨ gateBits die ≤ blk ∨ !rdB s (clkBlk die + 0x108) blk ∨ gated s die blk then s
    else
      let s1 := wrB (resetBlock die blk s) (clkBlk die + 0x108) blk false
      if isGroveDie die ∧ blk = 2 then retryXlate (die - 8) s1 else s1)

/-! ### Self-refresh (12 R372-R374) -/

/-- The reset of R93 is asserted for a die whose channels have all left READY. -/
def resetWhenRefreshed (d : Nat) (s : State) : State :=
  match s.clk.dieResets.find? (fun e => e.1 = d) with
  | some (_, _, keep) =>
    if dieState s d ≠ 0x33 ∧ refreshed s d then
      assertReset d keep { s with clk := { s.clk with released := s.clk.released.filter (· ≠ d) } }
    else s
  | none => s

/-- After the drain, banks are precharged and SRE is issued. -/
def execSelfRefreshEntry (c : Nat) (s : State) : Host.Outcome State Fault Refusal :=
  let x := chanAt s c
  Next (if 16 ≤ c ∨ chanState s c ≠ 0x93 ∨ !wantsRefresh s c ∨ x.queue.any (·.write) ∨ x.rt ≠ [] then s
    else
      let s1 := setChanState c 0x94 (modChan c (fun x => { x with rows := [], hits := [] }) (writeBackAll (c / 2) s))
      resetWhenRefreshed (chanDie c) s1)

/-- The exit of R373; `quick` when step 5 was the quick recheck, which a rejoin after KEEP_DRAM does not use. -/
def execSelfRefreshExit (c : Nat) (quick pass : Bool) (rank : Nat) (trn : List Word) (s : State) :
    Host.Outcome State Fault Refusal :=
  Next (if 16 ≤ c ∨ chanState s c ≠ 0x94 ∨ wantsRefresh s c ∨ !([0x30, 0x31, 0x34].contains (dieState s (chanDie c))) then s
    else if !pass then restoreEnc (c / 2) (raiseMem 0x0702 3 c [5, word rank] (setChanState c 0x95 s))
    else if quick ∧ dieState s (chanDie c) ≠ 0x34 then restoreEnc (c / 2) (setChanState c 0x93 (setReadDelay c trn s))
    else restoreEnc (c / 2) (raiseTrained c 1 (setTrn c trn true (setChanState c 0x93 s))))

/-! ### The die reset (03 R92-R94) -/

/-- The boot may release a die: step 6 or 7, SRL off FOSC, the dies before it released (R81, R92). -/
def bootReleases (s : State) (d : Nat) : Bool :=
  rdF s rootSel 1 0 ≠ 0
    && (if isLaneDie d then decide (6 ≤ bootStep s) else decide (7 ≤ bootStep s))
    && dies.all (fun x => decide (d ≤ x) || s.clk.released.contains x)

/-- A die is released once its DCL is locked: it senses its I/O voltage or takes its committed trim, its units train,
default routes are written and its replicas loaded (R92; 05 R165; 06 R186; 14 R454; 15 R468). -/
def execDieRelease (die vio : Nat) (s : State) : Host.Outcome State Fault Refusal :=
  Next (if s.pkg.held ∨ die = 0 ∨ !isDie die ∨ dieState s die ≠ 0x33 ∨ !rdB s (clkBlk die) 31 ∨ s.clk.released.contains die
      ∨ !(bootReleases s die ∨ s.clk.dieResets.any (fun e => e.1 = die)) then s
    else
      let s1 := { s with clk := { s.clk with released := s.clk.released ++ [die] } }
      let s2 := if isGroveDie die then wrF s1 (cfgGrv (die - 8) + 0x100) 1 0 vio
        else { s1 with lan := { s1.lan with trim := sset 0 s1.lan.trim (die - 1) (setVal s1 (2 + die)) } }
      loadReplicas die (writeDefaults die (trainUnits die s2)))

/-- The answer of a CLK_DIE_RESET. -/
def resetAnswer (d status : Nat) (s : State) : State :=
  match s.clk.dieResets.find? (fun e => e.1 = d) with
  | some (_, b, _) =>
    let s1 := { s with clk := { s.clk with dieResets := s.clk.dieResets.filter (fun e => e.1 ≠ d) } }
    answer b status (dieState s d) 0 (if status = stOk then [word (dieState s d)] else []) s1
  | none => s

/-- Relock and retraining are complete: the die enters REJOIN; what the hub kept for it comes back (12 R365;
18 R551). -/
def execDieRelockComplete (die : Nat) (s : State) : Host.Outcome State Fault Refusal :=
  Next (if s.pkg.held ∨ die = 0 ∨ !isDie die ∨ dieState s die ≠ 0x33 ∨ !rdB s (clkBlk die) 31 ∨ !s.clk.released.contains die
      ∨ (unitsOf die).any (fun u => unitState s die u = 0x61) then s
    else
      let s1 := writeDefaults die (setDieState die 0x34 s)
      let s2 := if isGroveDie die then
          wrB (wrB (restoreMem (die - 8) s1) (dbgBlk (die - 8) + 0x300) 1 (rdB s1 dbgBase (die - 8)))
            (bghBlk (die - 8)) 0 s1.bough.line
        else s1
      bootAdvance (resetAnswer die stOk s2))

/-- 100 ms in RESET: the die enters LOST. -/
def execDieRejoinTimeout (die : Nat) (s : State) : Host.Outcome State Fault Refusal :=
  Next (if s.pkg.held ∨ die = 0 ∨ !isDie die ∨ dieState s die ≠ 0x33
      ∨ !(s.clk.released.contains die ∨ s.clk.dieResets.any (fun e => e.1 = die)) then s
    else resetAnswer die stTimeout (dieLost die s))

/-- The next entry of an enabled delay list of a grove falls due within 100 µs (R95; 10 R329). -/
def releaseSoon (s : State) (g : Nat) : Bool :=
  (heldItems s g).any (fun p =>
    let k := p.2.item.dlist
    let c := dlCore s g k
    p.2.stage = .delay && dlEn s g k && c.run
      && (decide (distance p.2.due c.now40 ≤ 100000) || decide (distance c.now40 p.2.due < 2 ^ 39)))

/-- A wake source of R95: a delay-list release near. The Tally's plan wakes its dies itself (16 R501). -/
def execWakeRequest (die : Nat) (s : State) : Host.Outcome State Fault Refusal :=
  Next (if isGroveDie die ∧ (dieState s die = 0x31 ∨ dieState s die = 0x32) ∧ releaseSoon s (die - 8) then toPower die 0x30 s else s)

/-! ### The CLK commands that name a die (03 R97) -/

/-- The reference of a fabric user loop runs: CK_LINK, or an oscillator. -/
def fulRefRuns (s : State) (g ref : Nat) : Bool := ref = 0 || lineRuns s g (24 + ref)

/-- CLK_FUL_SET: the loop reprogrammed and relocked. -/
def execClkFulSet (b : Nat) (s : State) : Host.Outcome State Fault Refusal :=
  Next (serve 0x0203 [0x30, 0x34] (fun r s =>
    let g := r.f 0 2 0
    let n := r.f 0 12 8
    let ref := r.f 4 1 0
    if 24 ≤ n ∨ junk r 0 0x1F07 then badArg 0
    else if ref = 3 ∨ junk r 4 3 then badArg 4
    else if r.w 8 = 0 then badArg 8
    else if !fulRefRuns s g ref then .no stNotReady 0x0201
    else if (upto 17).any (fun k => regionRuns s g k && loopClocks s g n k) then refused 0x0203
    else
      let khz := Config.fulKhz ref (r.w 8)
      .ok [word khz] (keepSetting (fun a => a = .ful g n) (wrB (setFul g n ref khz s) (clkBlk (8 + g)) n true))) b s)

/-- CLK_GATE: bits set or cleared together. -/
def execClkGate (b : Nat) (s : State) : Host.Outcome State Fault Refusal :=
  Next (serve 0x0204 [0x30, 0x31] (fun r s =>
    let d := r.w 0
    let m := r.w 4
    if !isDie d then badArg 0
    else if 2 ^ gateBits d ≤ m then badArg 4
    else if 2 ≤ r.w 8 then badArg 8
    else if r.w 8 = 0 ∧ (upto (gateBits d)).any (fun k => m.testBit k && !gated s d k && blockTouched s d k) then refused 0x0204
    else
      let s1 := setGates d m (r.w 8 = 1) s
      let chans := (upto 16).filter (fun c => 8 + c / 2 = d && m.testBit (3 + c % 2))
      .ok [rd s1 (clkBlk d + 0x10)]
        (if chans = [] then s1 else keepSetting (fun a => chans.any (fun c => a = .chan c)) s1)) b s)

/-- CLK_POWER_STATE. -/
def execClkPowerState (b : Nat) (s : State) : Host.Outcome State Fault Refusal :=
  Next (serve 0x0205 [0x30, 0x31, 0x32] (fun r s =>
    let d := r.w 0
    let st := 0x30 + r.w 4
    if d = 0 ∨ !isDie d then badArg 0
    else if 3 ≤ r.w 4 then badArg 4
    else if st = 0x32 ∧ dieState s d ≠ 0x32 ∧ deepTouched s d then refused 0x0204
    else
      let s1 := keepSetting (fun a => a = .deep d) (toPower d st s)
      .ok [word (dieState s1 d)] s1) b s)

/-- CLK_DIE_RESET: with KEEP_DRAM the channels enter self-refresh first (R93). -/
def execClkDieReset (b : Nat) (s : State) : Host.Outcome State Fault Refusal :=
  Next (serve 0x0206 [0x30, 0x31, 0x32, 0x34, 0x35] (fun r s =>
    let d := r.w 0
    if d = 0 ∨ !isDie d then badArg 0
    else if 2 ≤ r.w 4 then badArg 4
    else if s.clk.dieResets.any (fun e => e.1 = d) then .no stBusy 0
    else
      let keep := r.w 4 = 1 && isGroveDie d
      let s1 := { s with clk := { s.clk with dieResets := s.clk.dieResets ++ [(d, r.booth, keep)] } }
      .run (if keep ∧ dieState s d ≠ 0x35 then resetWhenRefreshed d (writeBackAll (d - 8) s1)
            else assertReset d keep (if keep then refreshLost d s1 else s1))) b s)

end Sys2Proof.Machine
end

