-- ==== Sys2Proof/Machine/Pins.lean ====
section
/-!
DEFINITION. Meanings of the service-pin commands (17 R516-R532).
-/
namespace Sys2Proof.Machine

/-- A masked write of SVP_OUT or SVP_OE of a group: unmasked bits take the value, those of locked pins only from the
Warden and PF0 (R519, R522). -/
def execSvpMaskedWrite (src : Writer) (oe : Bool) (g : Nat) (value : Word) (s : State) :
    Host.Outcome State Fault Refusal :=
  let may (n : Nat) : Bool := match src with
    | .warden => true
    | .host pf => pf = 0 || (pf = 1 && !rdB s (svpPin n) 30)
    | .station id => isDesign id && !rdB s (svpPin n) 30
    | _ => false
  Next (if s.pkg.held ∨ 6 ≤ g then s
    else (upto 16).foldl (fun t k =>
      if bit value (16 + k) && may (16 * g + k) then wrB t (if oe then svpOe g else svpOut g) k (bit value k) else t) s)

/-- Cycle 8 of a switch: the new function drives and is fed; a value held meanwhile begins a new switch (R523, R524). -/
def execPinSwitchEnd (pin : Nat) (s : State) : Host.Outcome State Fault Refusal :=
  Next (if 96 ≤ pin ∨ !pinSwitching s pin then s
    else
      let s1 := settleInputs (wrB s (svpPin pin) 31 false)
      match sget none s1.pins.waiting pin with
      | some v =>
        settleInputs (beginSwitch pin v { s1 with pins := { s1.pins with waiting := sset none s1.pins.waiting pin none } })
      | none => s1)

/-- The reference input's edges stop or leave their range (R526). -/
def execRefOkLoss (missing range : Bool) (s : State) : Host.Outcome State Fault Refusal :=
  Next (if missing ∨ range then refLoss (b2n missing + 2 * b2n range) s else s)

/-- Signals of a hub serial port, each on a pin and, where it is an input, free of conflict (R528). -/
def twPins (s : State) (m : Nat) : Bool := feedOk s 0x02 m && feedOk s 0x03 m
def spiPins (s : State) (p cs : Nat) : Bool :=
  carried s 0x05 p && carried s 0x06 p && feedOk s 0x07 p && carried s 0x08 (4 * p + cs)
def uartPins (s : State) (p : Nat) : Bool := carried s 0x09 p && feedOk s 0x0A p
/-- The hub serial ports are gated (R527). -/
def serialGated (s : State) : Bool := gated s 0 1

def uartAt (s : State) (p : Nat) : Uart := sget {} s.pins.uarts p
def setUart (p : Nat) (u : Uart) (s : State) : State := { s with pins := { s.pins with uarts := sset {} s.pins.uarts p u } }

/-- A byte received on a UART whose RX pin feeds it; with seven data bits its top bit is zero (R528). -/
def execUartByteReceive (port : Nat) (byte : Byte) (s : State) : Host.Outcome State Fault Refusal :=
  Next (if 2 ≤ port ∨ serialGated s ∨ !feedOk s 0x0A port then s
    else
      let u := uartAt s port
      if u.rx.length < 1024 then
        setUart port { u with rx := u.rx ++ [if u.cfg.testBit 0 then byte else byte &&& 0x7F] } s
      else
        let s1 := setUart port { u with lost := u.lost + 1 } s
        if u.lost = 0 then raise 0x0B03 1 0x000 [word port, 1] s1 else s1)

/-- PIN_INFO. -/
def execPinInfo (b : Nat) (s : State) : Host.Outcome State Fault Refusal :=
  Next (serve 0x0B01 allServed (fun _ s =>
    let r := (upto 6).foldl (fun (a : List Word × State) g =>
      let l := svpIn g a.2
      (a.1 ++ [l.1], l.2)) ([], s)
    .ok (rd s svpStatus :: (upto 96).map (fun n => rd s (svpPin n)) ++ r.1) r.2) b s)

/-- Pin and value of entry `i` of PIN_CONFIG. -/
def pinCfgEntry (r : Req) (i : Nat) : Nat × Word := (r.w (4 + 8 * i), word (r.w (8 + 8 * i)))
/-- Byte offset of the first invalid field of PIN_CONFIG. -/
def pinCfgBad (r : Req) : Option Nat :=
  let n := r.w 0
  if n < 1 ∨ 92 < n then some 0
  else ((upto n).flatMap (fun i =>
    let e := pinCfgEntry r i
    let f := fld e.2 21 16
    (if 96 ≤ e.1 then [4 + 8 * i] else []) ++
    let placed : Bool := match funcIndexes f with
      | some k => decide (fld e.2 12 8 < k)
      | none => false
    (if e.2 &&& 0x3FC0E0C4 ≠ 0 ∨ (4 ≤ e.1 ∧ !placed) then [8 + 8 * i] else []))).head?
/-- A regulator entry uses a two-wire master. -/
def twInUse (s : State) (m : Nat) : Bool := (upto 32).any (fun i => (sget {} s.tal.regs i).valid && (sget {} s.tal.regs i).master = m)
/-- A servo uses a capture channel (15 R474). -/
def chInUse (s : State) (c : Nat) : Bool :=
  (upto 8).any (fun n => let t := tbAt s n; (t.priKind = 2 && t.priCh = c) || (t.twinKind = 2 && t.twinCh = c))
/-- Moving a pin to a value takes an input in use off it (R531). -/
def pinCfgInUse (s : State) (e : Nat × Word) : Bool :=
  let f := pinFunc s e.1
  let i := pinIndex s e.1
  (f ≠ fld e.2 21 16 || i ≠ fld e.2 12 8) &&
  (((f = 2 || f = 3) && i < 4 && twInUse s i) || (f = 0x12 && rdF s rootSel 10 8 = 3) || (f = 0x10 && chInUse s i))

/-- PIN_CONFIG: every pin named is written together. -/
def execPinConfig (b : Nat) (s : State) : Host.Outcome State Fault Refusal :=
  Next (serve 0x0B02 runTrial (fun r s =>
    let es := (upto (r.w 0)).map (pinCfgEntry r)
    let outside := classOf b = .user || classOf b = .design
    match pinCfgBad r with
    | some o => badArg o
    | none =>
      if es.any (fun e => e.1 < 4) then refused 0x0B01
      else if es.any (fun e => 0x10 ≤ fld e.2 21 16 && e.1 < 64) then refused 0x0B02
      else if outside ∧ es.any (fun e => bit e.2 30 || rdB s (svpPin e.1) 30) then refused 0x0B03
      else if es.any (pinCfgInUse s) then refused 0x0B04
      else .ok [] (settleInputs (es.foldl (fun t e => writePin e.1 e.2 t) s))) b s)

/-- PIN_REF_CFG. What the detector finds against the new frequency comes as READY_FLAG_SET or REF_OK_LOSS. -/
def execPinRefCfg (b : Nat) (s : State) : Host.Outcome State Fault Refusal :=
  Next (serve 0x0B03 runTrial (fun r s =>
    if r.w 0 < 10000000 ∨ 100000000 < r.w 0 then badArg 0
    else .ok [] { s with pins := { s.pins with refHz := r.w 0 } }) b s)

/-- Bytes of a payload from byte offset `off`. -/
def reqBytes (r : Req) (off n : Nat) : List Byte := ((wordsToBytes (r.args.drop (off / 4))) ++ List.replicate n 0).take n
/-- Bytes received, `n` of them, as payload words. -/
def padData (n : Nat) (data : List Byte) : List Word := bytesToWords ((data ++ List.replicate n 0).take n)

/-- PIN_TW_XFER. `outcome`: 0 done, 1 NACK, 2 the bus held too long, 3 arbitration lost, 4 a wrong PEC; `data` is what
the slave returned. -/
def execPinTwXfer (b outcome : Nat) (data : List Byte) (s : State) : Host.Outcome State Fault Refusal :=
  Next (serve 0x0B04 runTrial (fun r s =>
    let m := r.f 0 2 0
    let w := r.f 8 8 0
    let n := r.f 8 24 16
    if 6 ≤ m ∨ r.f 0 9 8 = 3 then badArg 0
    else if 256 < w ∨ 256 < n then badArg 8
    else if m < 4 ∧ (classOf b = .user ∨ classOf b = .design) then .no stDenied 0
    else if serialGated s then .no stNotReady 0x0B0A
    else if !twPins s m then .no stFailed 0x0B09
    else
      let s1 := { s with pins := { s.pins with sent := sset [] s.pins.sent m (reqBytes r 12 w) } }
      if outcome = 1 then .fail stFailed 0x0B05 [] s1
      else if outcome = 2 then .fail stFailed 0x0B06 [] s1
      else if outcome = 3 then .fail stFailed 0x0B07 [] s1
      else if outcome = 4 ∧ r.f 0 16 16 = 1 then .fail stFailed 0x0B08 [] s1
      else .ok (padData n data) s1) b s)

/-- PIN_SPI_XFER; `data` is what the slave returned. -/
def execPinSpiXfer (b : Nat) (data : List Byte) (s : State) : Host.Outcome State Fault Refusal :=
  Next (serve 0x0B05 runTrial (fun r s =>
    let p := r.f 0 0 0
    let n := r.w 8
    if r.w 0 &&& 0x331 ≠ r.w 0 then badArg 0
    else if r.w 4 < 2 ∨ 65535 < r.w 4 then badArg 4
    else if n < 1 ∨ 1024 < n then badArg 8
    else if serialGated s then .no stNotReady 0x0B0A
    else if !spiPins s p (r.f 0 5 4) then .no stFailed 0x0B09
    else .ok (padData n data) { s with pins := { s.pins with
      sent := sset [] s.pins.sent (8 + p) (reqBytes r 12 n), spiMode := sset 0 s.pins.spiMode p (r.f 0 9 8) } }) b s)

/-- PIN_UART_CFG: the port is reset and its FIFOs emptied. -/
def execPinUartCfg (b : Nat) (s : State) : Host.Outcome State Fault Refusal :=
  Next (serve 0x0B06 runTrial (fun r s =>
    if r.w 0 &&& 0xF01 ≠ r.w 0 ∨ r.f 0 10 9 = 3 then badArg 0
    else if r.w 4 < 1 ∨ 65535 < r.w 4 then badArg 4
    else if serialGated s then .no stNotReady 0x0B0A
    else .ok [] (setUart (r.f 0 0 0) { cfg := r.f 0 11 8, divisor := r.w 4 } s)) b s)

/-- PIN_UART_IO. -/
def execPinUartIo (b : Nat) (s : State) : Host.Outcome State Fault Refusal :=
  Next (serve 0x0B07 runTrial (fun r s =>
    let p := r.f 0 0 0
    let n := r.f 4 10 0
    let u := uartAt s p
    if 1024 < n then badArg 4
    else if serialGated s then .no stNotReady 0x0B0A
    else if !uartPins s p then .no stFailed 0x0B09
    else
      let k := min n (1024 - u.tx.length)
      .ok ([word k, word (u.rx.length + b2n (u.lost ≠ 0) * 2 ^ 16)] ++ bytesToWords u.rx)
        (setUart p { u with tx := u.tx ++ reqBytes r 8 k, rx := [], lost := 0 } s)) b s)

/-- CK_TIME cycles that one byte takes on a UART: start, data, parity and stop bits of 16 times its divisor cycles of
CK_SVC, five of CK_TIME each (R527). -/
def uartByteTicks (u : Uart) : Nat :=
  (8 + b2n (u.cfg.testBit 0) + b2n (nfld u.cfg 2 1 ≠ 0) + 1 + b2n (u.cfg.testBit 3)) * 16 * u.divisor * 5
/-- One CK_TIME cycle of a UART's transmitter. -/
def uartTick (p : Nat) (s : State) : State :=
  let u := uartAt s p
  match u.tx with
  | [] => s
  | c :: rest =>
    if serialGated s then s
    else if uartByteTicks u ≤ u.phase + 1 then setUart p { u with tx := rest, phase := 0, line := some c } s
    else setUart p { u with phase := u.phase + 1 } s

end Sys2Proof.Machine
end

