-- ==== Sys2Proof/Machine/Time.lean ====
section
/-!
DEFINITION. Meanings of the commands and events of a time base, its readings, replicas, captures and outputs
(15 R461-R473, R487).
-/
namespace Sys2Proof.Machine

/-! ### Commands of one time base -/

def execTimeInfo (b : Nat) (s : State) : Host.Outcome State Fault Refusal :=
  Next (serve 0x0501 allServed (fun r s =>
    let n := r.f 0 2 0
    let t := tbAt s n
    if junk r 0 7 then badArg 0
    else .ok [tbWord s n 0x0C, tbWord s n 0, tbWord s n 8, tbWord s n 0x18, tbWord s n 0x30,
              word (t.priKind + t.twinKind * 2 ^ 8), tbWord s n 0x28, tbWord s n 0x2C] s) b s)

/-- TIME_SET: the load is sent for its TICK, or waits for the channel's next rising edge. -/
def execTimeSet (b : Nat) (s : State) : Host.Outcome State Fault Refusal :=
  Next (serve 0x0502 [0xC0, 0xC1, 0xC6] (fun r s =>
    let n := r.f 0 2 0
    let c := (r.f 8 7 0 * 2 ^ 32 + r.w 4) * 2 ^ 40
    if junk r 0 0x1F0107 then badArg 0
    else if junk r 8 0xFF then badArg 8
    else if r.f 0 8 8 = 1 then
      .run { s with tu := { s.tu with atEdge := s.tu.atEdge ++
        [{ booth := r.booth, tb := n, ch := r.f 0 20 16, cnt := c, origin := r.w64 12, rate := r.i 20 }] } }
    else .ok [word (s.tu.tick + 4096)] (sendChange n (.load c (r.w64 12) (r.i 20)) s)) b s)

/-- No rising edge within 1.5 s: TIMEOUT with NO_EDGE. -/
def execTimeSetNoEdge (tb : Nat) (s : State) : Host.Outcome State Fault Refusal :=
  Next (match s.tu.atEdge.find? (fun e => e.tb = tb) with
    | none => s
    | some e => answer e.booth stTimeout (heldState s tb) 0x050C []
        { s with tu := { s.tu with atEdge := s.tu.atEdge.filter (fun x => x.booth ≠ e.booth) } })

/-- TIME_ADJUST: on user booths only in HOST with FUNC = 1 (R488). -/
def execTimeAdjust (b : Nat) (s : State) : Host.Outcome State Fault Refusal :=
  Next (serve 0x0503 [0xC1, 0xC6] (fun r s =>
    let n := r.f 0 2 0
    let t := tbAt s n
    let kind := r.f 0 9 8
    if junk r 0 0x307 ∨ kind = 3 then badArg 0
    else if 100000 < r.w 8 then badArg 8
    else if classOf b = .user ∧ ¬ (heldState s n = 0xC6 ∧ t.func = 1) then .no stDenied 0
    else if kind = 0 ∧ 1000000000 < (r.i 4).natAbs then .no stBadArg 0x0502
    else
      let h : TimeChange := if kind = 0 then .step (r.i 4)
        else if kind = 1 then .slew (r.i 4 * (2 ^ 40 : Nat)) (if r.w 8 = 0 then t.slewPpb else r.w 8)
        else .rate (r.i 4)
      .ok [] (sendChange n h s)) b s)

/-- A source of TIME_SOURCE: its kind and channel. -/
def srcOf (r : Req) (off : Nat) : Nat × Nat := (r.f off 1 0, r.f off 12 8)
/-- A capture channel that a source names is bound elsewhere. -/
def srcTaken (s : State) (tb : Nat) (x : Nat × Nat) : Bool :=
  x.1 = 2 && (upto 8).any (fun n => n ≠ tb &&
    (let t := tbAt s n; (t.priKind = 2 && t.priCh = x.2) || (t.twinKind = 2 && t.twinCh = x.2)))

/-- TIME_SOURCE. A source that changes is heard and locked anew; a twin starts from the time base's count. -/
def execTimeSource (b : Nat) (s : State) : Host.Outcome State Fault Refusal :=
  Next (serve 0x0504 [0xC1, 0xC2, 0xC3, 0xC4, 0xC5, 0xC6] (fun r s =>
    let n := r.f 0 2 0
    let p := srcOf r 4
    let w := srcOf r 8
    if junk r 0 7 then badArg 0
    else if junk r 4 0x1F03 ∨ p.1 = 3 then badArg 4
    else if junk r 8 0x1F03 ∨ w.1 = 3 then badArg 8
    else if r.f 12 15 0 < 10 ∨ 1000 < r.f 12 15 0 then badArg 12
    else if r.w 16 < 1 ∨ 100000 < r.w 16 then badArg 16
    else if junk r 20 1 then badArg 20
    else if srcTaken s n p ∨ srcTaken s n w ∨ (p.1 = 2 ∧ w = p) then refused 0x0504
    else
      let t := tbAt s n
      let host := heldState s n = 0xC6
      let newP := p ≠ (t.priKind, t.priCh)
      let newW := w ≠ (t.twinKind, t.twinCh)
      let t1 := { t with
        priKind := p.1, priCh := p.2, twinKind := w.1, twinCh := w.2, bw := r.f 12 15 0, lockNs := r.f 12 31 16,
        slewPpb := r.w 16, stepOk := r.f 20 0 0 = 1, holdLimit := r.w 24,
        priValid := t.priValid && !newP, twinValid := t.twinValid && !newW, twinLocked := t.twinLocked && !newW,
        twin := if newW then { t.core with run := t.core.run && w.1 ≠ 0 } else t.twin }
      let s1 := setTb s n t1
      if host ∧ (p.1 ≠ 0 ∨ w.1 ≠ 0) then
        let s2 := { s1 with tu := { s1.tu with changes := s1.tu.changes.filter (fun e => e.tb ≠ n || (match e.change with
          | .host _ => false
          | _ => true)) } }
        .ok [] (setTbState n 0xC2 (setTb s2 n { (tbAt s2 n) with inside := false }))
      else if p.1 = 0 then .ok [] (primaryGone n s1)
      else .ok [] s1) b s)

/-- TIME_TWIN_SWITCH (R478). -/
def execTimeTwinSwitch (b : Nat) (s : State) : Host.Outcome State Fault Refusal :=
  Next (serve 0x0505 [0xC3] (fun r s =>
    let n := r.f 0 2 0
    let t := tbAt s n
    if !t.twinLocked then refused 0x0509
    else if t.slewing ∨ t.twinSlew then refused 0x0501
    else .ok [] (twinSwitch n true s)) b s)

/-- TIME_HOST. -/
def execTimeHost (b : Nat) (s : State) : Host.Outcome State Fault Refusal :=
  Next (serve 0x0506 [0xC1, 0xC2, 0xC3, 0xC4, 0xC5] (fun r s =>
    if junk r 0 0x107 then badArg 0
    else .ok [] (sendChange (r.f 0 2 0) (.host (r.f 0 8 8)) s)) b s)

/-- A PTP port, the ensemble, a capture channel or an output names a time base. -/
def tbInUse (s : State) (n : Nat) : Bool :=
  (ptpPorts s).any (fun p => p.tb = n) || (s.tu.ens.enable && s.tu.ens.tb = n)
  || (upto 32).any (fun c => rdF s (capReg c 0) 1 0 ≠ 0 && rdF s (capReg c 0) 10 8 = n)
  || (upto 16).any (fun o => let x := sget {} s.tu.outs o
                             (x.cfg.mode ≠ 0 && x.cfg.tb = n) || x.later.any (fun c => c.mode ≠ 0 && c.tb = n))

/-- TIME_STOP. -/
def execTimeStop (b : Nat) (s : State) : Host.Outcome State Fault Refusal :=
  Next (serve 0x0507 [0xC1, 0xC2, 0xC3, 0xC4, 0xC5, 0xC6] (fun r s =>
    if tbInUse s (r.f 0 2 0) then refused 0x050B
    else .ok [] (sendChange (r.f 0 2 0) .stop s)) b s)

/-- TIME_MODEL (R479): a written model is valid at once. -/
def execTimeModel (b : Nat) (s : State) : Host.Outcome State Fault Refusal :=
  Next (serve 0x050D [0xC1, 0xC2, 0xC3, 0xC4, 0xC5, 0xC6] (fun r s =>
    let n := r.f 0 2 0
    let t := tbAt s n
    let q (off : Nat) : Int := sint 64 (r.w64 off)
    let out (m : OscModel) : List Word :=
      word (n + r.f 0 8 8 * 2 ^ 8 + m.sensor * 2 ^ 16) ::
        ([m.y0, m.a, m.c1, m.c2].flatMap (fun v => [lo32 (uint 64 v), hi32 (uint 64 v)])) ++ [word (uint 32 m.t0)]
    if junk r 0 0xFF0107 ∨ 74 ≤ r.f 0 23 16 then badArg 0
    else if r.f 0 8 8 = 1 then
      let m := { t.model with valid := true, y0 := q 4, a := q 12, c1 := q 20, c2 := q 28, t0 := r.i 36,
                              sensor := r.f 0 23 16, age := 0 }
      .ok (out m) (setTb s n { t with model := m })
    else .ok (out t.model) s) b s)

/-- TIME_TS_COMP (R470). -/
def execTimeTsComp (b : Nat) (s : State) : Host.Outcome State Fault Refusal :=
  Next (serve 0x0510 runTrial (fun r s =>
    if junk r 0 0x73F then badArg 0
    else if 2 ^ 20 < (r.i 4).natAbs then badArg 4
    else if 2 ^ 20 < (r.i 8).natAbs then badArg 8
    else .ok [] { s with tu := { s.tu with
      tsComp := sset (0, 0) s.tu.tsComp (8 * r.f 0 5 0 + r.f 0 10 8) (r.i 4, r.i 8) } }) b s)

/-! ### Readings and replicas (R466-R469) -/

/-- A read of TU_TB_NS by a station. -/
def execTuTbNsRead (station tb : Nat) (s : State) : Host.Outcome State Fault Refusal :=
  Next (if 8 ≤ tb ∨ s.pkg.held then s else (readNs station tb s).2)

/-- The first change that waits for a die is applied once its TICK has come (R469). -/
def execTimePacketApply (die : Nat) (s : State) : Host.Outcome State Fault Refusal :=
  Next (match s.tu.changes.find? (fun e => e.die = die) with
    | none => s
    | some e =>
      if s.tu.tick < e.tick then s
      else
        let s1 := { s with tu := { s.tu with changes := s.tu.changes.erase e } }
        if die = 0 ∨ dieAlive s die then applyChange e s1 else s1)

/-- A die checks its TICK at a spine mark; `drift` is its error in cycles (R468). An armed hub point 0x06 adds its own
(19 R560). -/
def execSpineMarkCheck (die : Nat) (drift : Int) (s : State) : Host.Outcome State Fault Refusal :=
  Next (if die = 0 ∨ !isDie die ∨ !dieAlive s die then s
    else
      let r := if injTarget s 0 6 % 16 = die then inject 0 6 s else (false, s)
      let e := drift + (if r.1 then sint 32 (injPattern s 0 6) else 0)
      if e = 0 then r.2
      else
        let s1 := raise 0x050B 2 0x004 [word die, word (uint 32 e)] (loadReplicas die (cnt r.2 (tuBase + 0xC)))
        if r.1 then injSeen 0 6 0 s1 else s1)

/-! ### Captures and outputs (R472, R473) -/

def execTimeCaptureCfg (b : Nat) (s : State) : Host.Outcome State Fault Refusal :=
  Next (serve 0x050B allServed (fun r s =>
    let c := r.f 0 4 0
    if junk r 0 0x1371F then badArg 0
    else if chInUse s c then refused 0x0504
    else
      let v := (rd s (capReg c 0)).toNat / 2 ^ 31 * 2 ^ 31 + r.f 0 16 16 * 2 ^ 12 + r.f 0 10 8 * 2 ^ 8 + r.f 0 13 12
      let x := sget {} s.tu.caps c
      .ok [] { (wr s (capReg c 0) (word v)) with tu := { s.tu with caps := sset {} s.tu.caps c { x with records := [] } } }) b s)

/-- An edge at the pin that feeds a capture channel; a looped channel takes its output's edges instead. -/
def execCaptureEdge (ch : Nat) (falling : Bool) (s : State) : Host.Outcome State Fault Refusal :=
  Next (if 32 ≤ ch ∨ rdB s (capReg ch 0) 12 ∨ !feedOk s 0x10 ch then s
    else
      let s1 := captureEdge ch falling s
      if falling then s1 else edgeSets ch s1)

/-- A read of TU_CAP_INFO removes the oldest record. -/
def execTuCapInfoRead (ch : Nat) (s : State) : Host.Outcome State Fault Refusal :=
  Next (if 32 ≤ ch then s else capPop ch s)

def execTimeOutputCfg (b : Nat) (s : State) : Host.Outcome State Fault Refusal :=
  Next (serve 0x050C allServed (fun r s =>
    let o := r.f 0 3 0
    let c : OutCfg := { tb := r.f 0 10 8, mode := r.f 0 14 12, period := r.w 4, width := r.w 8, offset := r.i 12,
                        ns := r.w 16, wraps := r.f 20 7 0, addr := r.w64 24 % 2 ^ 48, data := r.w 32 }
    if junk r 0 0x770F ∨ 4 < c.mode then badArg 0
    else if c.mode = 2 ∧ (c.period < 8 ∨ 1000000000 < c.period ∨ c.period % 2 ≠ 0 ∨ 1000000000 % c.period ≠ 0) then badArg 4
    else if junk r 20 0xFF then badArg 20
    else if junk r 28 0xFFFF then badArg 24
    else
      let x := sget {} s.tu.outs o
      .ok [] (if x.next.isSome then setOut o { x with later := some c } s else outStart o c s)) b s)

/-- An edge of an output: the channels looped to it capture it (R472). -/
def outEdge (o : Nat) (falling : Bool) (s : State) : State :=
  ((upto 32).filter (fun c => c % 16 = o && rdB s (capReg c 0) 12)).foldl
    (fun t c => let t1 := captureEdge c falling t
                if falling then t1 else edgeSets c t1) s

/-- The scheduled edge of an output, once its time has come; then a waiting configuration takes effect (R473). -/
def execOutputEdge (o : Nat) (s : State) : Host.Outcome State Fault Refusal :=
  Next (let x := sget {} s.tu.outs o
    match x.next with
    | none => s
    | some t =>
      if 16 ≤ o ∨ ptpNow s x.cfg.tb < t then s
      else
        let s1 := if x.cfg.mode = 4 then
            postWrite 0x004 x.cfg.addr (toBytes 4 x.cfg.data) (setOut o { x with next := none, armed := false } s)
          else if x.high then
            outSchedule o t (outEdge o true (setOut o { x with high := false, armed := x.cfg.mode ≤ 2 } s))
          else outEdge o false (setOut o { x with high := true, next := some (t + outPulse x.cfg) } s)
        match x.later with
        | some c => outStart o c s1
        | none => s1)

end Sys2Proof.Machine
end

