-- ==== Sys2Proof/Machine/Debug.lean ====
section
/-!
DEFINITION. Meanings of the debug commands: the station and its TAP, the DBG group, tile run control, triggers and the
host watchdog (18 R533-R558).
-/
namespace Sys2Proof.Machine

def dbgOwner (s : State) : Nat := rdF s dbgBase 9 8
def setOwner (o : Nat) (s : State) : State := wrF s dbgBase 9 8 o
/-- A claim by owner `o`: refused while another holds the station (R533). -/
def claimBy (o : Nat) (s : State) : State :=
  if dbgOwner s = 0 then setOwner o s else if dbgOwner s = o then s else wrB s dbgBase 27 true
/-- The debug authority lets a TAP instruction in (R537). -/
def tapOpen (s : State) : Bool := dbgAuth s = 0xD2 || dbgAuth s = 0xD3

/-! ### Ownership and the TAP -/

def execDbgClaim (s : State) : Host.Outcome State Fault Refusal := Next (if s.pkg.held then s else claimBy 2 s)
def execDbgRelease (s : State) : Host.Outcome State Fault Refusal :=
  Next (if dbgOwner s = 2 then setOwner 0 s else s)

/-- Update-DR of DBGCLAIM; `shift` is the bit shifted in. -/
def execDbgclaim (shift : Bool) (s : State) : Host.Outcome State Fault Refusal :=
  Next (if s.pkg.held ∨ s.dbg.ir ≠ 0x10 ∨ !tapOpen s ∨ !shift then s
    else if dbgOwner s = 1 then setOwner 0 s
    else claimBy 1 s)

/-- TRST_N: the TAP alone; test-logic-reset selects IDCODE. -/
def execTrstN (s : State) : Host.Outcome State Fault Refusal :=
  Next { s with dbg := { s.dbg with ir := 0x02, extest := false, accState := 0, accData := 0 } }

/-- The instruction that a code selects: without authority EXTEST, CLAMP, DBGCLAIM and DBGACC select BYPASS. -/
def tapSelect (s : State) (code : Nat) : Nat :=
  if [0x01, 0x02].contains code then code
  else if [0x00, 0x03, 0x10, 0x11].contains code ∧ tapOpen s then code
  else 0xFF

/-- Update-IR selects an instruction; with `shift`, Update-DR of the boundary register under EXTEST or
SAMPLE/PRELOAD. EXTEST and CLAMP drive what the register holds. -/
def execTapInstruction (shift : Bool) (code : Nat) (boundary : List Bool) (s : State) :
    Host.Outcome State Fault Refusal :=
  Next (if s.pkg.held then s
    else if shift then
      (if s.dbg.ir = 0x00 ∨ s.dbg.ir = 0x01 then { s with dbg := { s.dbg with boundary := boundary } } else s)
    else
      let i := tapSelect s (code % 256)
      { s with dbg := { s.dbg with ir := i, extest := i = 0x00 || i = 0x03 } })

/-! ### Challenge and unlock (R536) -/

def execDbgChallengeLapse (s : State) : Host.Outcome State Fault Refusal :=
  Next (if s.dbg.challenge.isSome then wrB { s with dbg := { s.dbg with challenge := none } } dbgBase 28 false else s)

/-- A command of booth 62 beyond those of NONE is answered NOT_OWNER once the station has no owner. -/
def owned (s : State) (x : Reply) : Reply := if dbgOwner s = 0 then refused 0x0A03 else x
def dbgAll : List Nat := [0xD0, 0xD2, 0xD3, 0xD4]
def dbgBoth : List Nat := [0xD2, 0xD3]

def execDbgInfo (b : Nat) (s : State) : Host.Outcome State Fault Refusal :=
  Next (serve 0x0A01 dbgAll (fun _ s => .ok [rd s dbgBase, rd s dbgWardWdog] s) b s)

/-- Eight words of the random bit generator. -/
def drawNonce (s : State) : List Word × State :=
  ((upto 8).map (fun i => Config.random (s.fresh + i)), { s with fresh := s.fresh + 8 })

def execDbgChallenge (b : Nat) (s : State) : Host.Outcome State Fault Refusal :=
  Next (serve 0x0A02 [0xD0, 0xD2, 0xD3] (fun r s =>
    if r.w 0 ≠ 0xD2 ∧ r.w 0 ≠ 0xD3 then badArg 0
    else
      let n := drawNonce s
      .ok n.1 (wrB { n.2 with dbg := { n.2.dbg with challenge := some (r.w 0, n.1) } } dbgBase 28 true)) b s)

/-- What the signature of an unlock covers: nonce, serial number high word first, level, "VIL-DBG". -/
def unlockBytes (s : State) (level : Nat) (nonce : List Word) : List Byte :=
  wordsToBytes nonce ++ toBytes 4 (rd s (wdnBase + 0xC)).toNat ++ toBytes 4 (rd s (wdnBase + 8)).toNat
    ++ [BitVec.ofNat 8 level, 0x56, 0x49, 0x4C, 0x2D, 0x44, 0x42, 0x47]

/-- DBG_UNLOCK (R534, R536). Unsigned while the key is unprovisioned, INSECURE then reading 1. -/
def execDbgUnlock (b : Nat) (s : State) : Host.Outcome State Fault Refusal :=
  Next (serve 0x0A03 [0xD0, 0xD2, 0xD3] (fun r s =>
    match s.dbg.challenge with
    | none => refused 0x0A02
    | some (level, nonce) =>
      let s1 := wrB { s with dbg := { s.dbg with challenge := none } } dbgBase 28 false
      if keyKnown s ∧ !Config.ecdsaOk (setVal s 1) (Config.sha384 (unlockBytes s level nonce)) (r.args.take 24) then
        .fail stRefused 0x0A01 [] s1
      else
        let old := dbgAuth s
        let new := if old = 0xD3 then 0xD3 else level
        let s2 := if keyKnown s then s1 else wrB s1 dbgBase 30 true
        let s3 := audit 4 0xFF b 0 old new 0 (wrF s2 dbgBase 23 16 new)
        .ok [word new] (if old = 0xD3 ∧ level = 0xD2 then s3 else raise 0x0A01 1 0x006 [word old, word new, word (dbgOwner s)] s3)) b s)

def execDbgLock (b : Nat) (s : State) : Host.Outcome State Fault Refusal :=
  Next (serve 0x0A04 dbgBoth (fun _ s => owned s (.ok [] (dropAuthority 0xD0 s))) b s)

/-! ### The access master (R539, R540) -/

/-- The checks of DBG_READ and DBG_WRITE on address, length and reach. -/
def accessCheck (r : Req) (side : Bool) (s : State) : Option Reply :=
  let a := r.w64 0
  let n := r.w 8
  if 2 ^ 48 ≤ a ∨ a % 4 ≠ 0 then some (badArg 0)
  else if n < 4 ∨ 4096 < n ∨ n % 4 ≠ 0 then some (badArg 8)
  else if side ∧ dbgAuth s ≠ 0xD3 then some (.no stDenied 0x0A05)
  else if dbgAuth s = 0xD2 ∧ (upto (n / 4)).any (fun i => !userReach (a + 4 * i)) then some (.no stDenied 0x0A06)
  else if s.dbg.access.isSome then some (.no stBusy 0)
  else none

def execDbgRead (b : Nat) (s : State) : Host.Outcome State Fault Refusal :=
  Next (serve 0x0A05 dbgBoth (fun r s =>
    let side := r.f 12 0 0 = 1
    match accessCheck r side s with
    | some x => owned s x
    | none => owned s (dbgStart { write := false, side := side, addr := r.w64 0, left := r.w 8 / 4, data := [], got := [] } s))
    b s)

def execDbgWrite (b : Nat) (s : State) : Host.Outcome State Fault Refusal :=
  Next (serve 0x0A06 dbgBoth (fun r s =>
    match accessCheck r false s with
    | some x => owned s x
    | none =>
      let n := r.w 8 / 4
      owned s (dbgStart { write := true, side := false, addr := r.w64 0, left := n, data := (r.args.drop 3).take n, got := [] } s)) b s)

/-! ### Run control (R541-R553) -/

/-- DBG_TILE_RUN: a halt is taken at once where the tile stands at a stop boundary. -/
def execDbgTileRun (b : Nat) (s : State) : Host.Outcome State Fault Refusal :=
  Next (serve 0x0A07 dbgBoth (fun r s =>
    let t := r.f 0 11 0
    let op := r.f 4 1 0
    let l := if r.f 0 16 16 = 1 then (upto 512).map (fun j => t / 512 * 512 + j) else [t]
    let act (u : State) (k : Nat) : State :=
      if op = 0 then
        (let u1 := if (tileAt u k).state = 0x75 then u else askHalt k (r.f 4 8 8 = 1) u
         if haltDue u1 k then takeHalt k u1 else u1)
      else if op = 1 then resumeTile k u
      else stepTile k u
    if junk r 0 0x10FFF then badArg 0
    else if op = 3 ∨ junk r 4 0x103 then badArg 4
    else if !dieAlive s (8 + t / 512) then .no stAbsent 0
    else
      let s1 := l.foldl act s
      owned s (.ok [word (tileAt s1 t).state] s1)) b s)

def execDbgFreeze (b : Nat) (s : State) : Host.Outcome State Fault Refusal :=
  Next (serve 0x0A08 dbgBoth (fun r s =>
    let g := r.w 0
    if 8 ≤ g then badArg 0
    else if 2 ^ 18 ≤ r.w 4 then badArg 4
    else if 2 ≤ r.w 8 then badArg 8
    else if !dieAlive s (8 + g) then .no stAbsent 0
    else
      let m := word (r.w 4)
      let s1 := setFreeze g (if r.w 8 = 1 then rd s (dbgFreeze g) ||| m else rd s (dbgFreeze g) &&& ~~~m) s
      owned s (.ok [rd s1 (dbgFreeze g)] s1)) b s)

def execDbgAttach (b : Nat) (s : State) : Host.Outcome State Fault Refusal :=
  Next (serve 0x0A09 dbgBoth (fun r s =>
    let m := r.f 0 7 0
    let old := rd s dbgBase
    let new := if r.f 4 0 0 = 1 then old ||| word m else old &&& ~~~(word m)
    owned s (.ok [word (fld new 7 0)] (setAttach (fld new 7 0) s))) b s)

def execDbgDieStop (b : Nat) (s : State) : Host.Outcome State Fault Refusal :=
  Next (serve 0x0A0A [0xD3] (fun r s =>
    let d := r.w 0
    if d = 0 ∨ !isDie d then badArg 0
    else if 2 ≤ r.w 4 then badArg 4
    else if !dieAlive s d then .no stAbsent 0
    else
      let s1 := if r.w 4 = 1 then stopDie d s else startDie d s
      owned s (.ok [word (b2n (s1.dbg.stoppedDies.contains d))] s1)) b s)

/-- DBG_WARDEN_HALT. Booth 62 answers a second halt as it answers every other command. -/
def execDbgWardenHalt (b : Nat) (s : State) : Host.Outcome State Fault Refusal :=
  Next (serve 0x0A0B [0xD3] (fun r s =>
    let on := r.f 0 0 0 = 1
    if on ∧ s.dbg.wardenHalted then .no stNotReady 0x0A04
    else owned s (.ok [] (if on = s.dbg.wardenHalted then s else haltWarden on s))) b s)

/-- Writes of DBG_HALT_REQ, DBG_RESUME and DBG_STEP of a grove. -/
def execDbgHaltReqWrite (src : Writer) (g w : Nat) (bits : Word) (s : State) : Host.Outcome State Fault Refusal :=
  Next (if 8 ≤ g ∨ 16 ≤ w ∨ !dbgWriter s src ∨ !dieAlive s (8 + g) then s
    else (bitTiles g w bits).foldl (fun t k => if (tileAt t k).state = 0x75 then t else askHalt k false t) s)
def execDbgResumeWrite (src : Writer) (g w : Nat) (bits : Word) (s : State) : Host.Outcome State Fault Refusal :=
  Next (if 8 ≤ g ∨ 16 ≤ w ∨ !dbgWriter s src ∨ !dieAlive s (8 + g) then s
    else (bitTiles g w bits).foldl (fun t k => resumeTile k t) s)
def execDbgStepWrite (src : Writer) (g w : Nat) (bits : Word) (s : State) : Host.Outcome State Fault Refusal :=
  Next (if 8 ≤ g ∨ 16 ≤ w ∨ !dbgWriter s src ∨ !dieAlive s (8 + g) then s
    else (bitTiles g w bits).foldl (fun t k => stepTile k t) s)

/-- A tile takes its halt request, or the end of its step, at a stop boundary. -/
def execTileHalt (g t : Nat) (s : State) : Host.Outcome State Fault Refusal :=
  let k := g * 512 + t
  Next (if 8 ≤ g ∨ 512 ≤ t ∨ !haltDue s k ∨ s.dbg.stoppedDies.contains (8 + g) then s else takeHalt k s)

/-! ### Triggers (R547, R548) -/

/-- The trigger fires: on SRC 0 the samples up to the first that matches; on SRC 1 a tile of the set is HALTED. -/
def execProbeTrigger (g : Nat) (samples : List Nat) (s : State) : Host.Outcome State Fault Refusal :=
  Next (if trigReady s g 0 then
      (match samples.getLast? with
       | some v =>
         if trigMatch s g v ∧ samples.dropLast.all (fun x => !trigMatch s g x) then
           fireTrigger g (samples.foldl (fun t x => putSample g x t) s) else s
       | none => s)
    else if trigReady s g 1 ∧ (groveTiles s g).any (fun t =>
        (tileAt s t).state = 0x75 && inSet s g (rdF s (prbTctrl g) 27 24) (t % 512)) then fireTrigger g s
    else s)

/-- A pulse of grove `src` reaches grove `g`. -/
def execCrossTriggerPulse (src g : Nat) (s : State) : Host.Outcome State Fault Refusal :=
  Next (if !s.dbg.pulses.contains (src, g) then s
    else
      let s1 := { s with dbg := { s.dbg with pulses := s.dbg.pulses.erase (src, g) } }
      if dieState s (8 + g) ≠ 0x30 then s1
      else
        let s2 := wrB s1 (dbgBlk g + 0x300) 2 true
        if trigReady s2 g 3 then fireTrigger g s2 else s2)

/-! ### The host watchdog (R554) -/

def hostCtrl : Nat := dbgBase + 8
def hostCount : Nat := dbgBase + 0x10
/-- A write of the key reloads it. -/
def execDbgHostwdKick (src : Writer) (key : Word) (s : State) : Host.Outcome State Fault Refusal :=
  Next (if s.pkg.held ∨ src ≠ .host 0 ∨ key ≠ 0x4B1C then s
    else wrF { s with dbg := { s.dbg with hostWarned := false } } hostCount 15 0 (rdF s hostCtrl 15 0))
/-- Half the period has passed. -/
def execHostWatchdogHalf (s : State) : Host.Outcome State Fault Refusal :=
  Next (if s.pkg.held ∨ !rdB s hostCtrl 31 ∨ s.dbg.hostWarned then s
    else
      let n := rdF s hostCtrl 15 0 / 2
      raise 0x0A03 3 0x006 [word n] (wrF { s with dbg := { s.dbg with hostWarned := true } } hostCount 15 0 n))
/-- It reaches zero: a package reset, recorded in RST_CAUSE. -/
def execHostWatchdogExpiry (s : State) : Host.Outcome State Fault Refusal :=
  Next (if s.pkg.held ∨ !rdB s hostCtrl 31 then s else packageReset 3 s)

end Sys2Proof.Machine
end

