-- ==== Sys2Proof/Machine/View.lean ====
section
/-!
DEFINITION. What a read of a register, or of another word of a register window, returns, and what it changes (00 R4-R9;
01 R28-R32; 02 R45-R47, R61-R63; 07 R237, R238; 08 R278; 10 R303, R322; 15 R466, R472; 16 R510; 18 R546).
-/
namespace Sys2Proof.Machine

/-! ### Where an address lies -/

/-- The address lies in a register window, its peek mirror included. -/
def inWindow (a : Nat) : Bool :=
  (decide (0x030000000000 ≤ a) && decide (a < 0x03000B000000)) || (decide (0x030010000000 ≤ a) && decide (a < 0x030018000000))
  || (decide (0x030020000000 ≤ a) && decide (a < 0x030024000000))
/-- The address lies in a peek mirror (01 R28). -/
def inMirror (a : Nat) : Bool := inWindow a && decide (0x800000 ≤ winOff a)
/-- The register address that an address of a mirror shows. -/
def unmirror (a : Nat) : Nat := if inMirror a then a - 0x800000 else a

/-- The gateable block, by die and bit, that holds a word of a register window (03 R88). -/
def windowBlock (a : Nat) : Option (Nat × Nat) :=
  let d := dieOfAddr a
  let o := winOff a % 0x800000
  if d = 0 then (if hubPtrBase ≤ a ∧ a < hubPtrBase + 0x1000000 then some (0, 0) else none)
  else if isLaneDie d then (if 0x400000 ≤ o ∧ o < 0x500000 then some (d, (o - 0x400000) / 0x10000) else none)
  else if o < 0x40000 then none
  else if o < 0x50000 then some (d, 6)
  else if o < 0x90000 then some (d, 0)
  else if o < 0xA0000 then some (d, 1)
  else if o < 0xB0000 then some (d, 2)
  else if o < 0xC0000 then some (d, 3)
  else if o < 0xD0000 then some (d, 4)
  else if o < 0xE0000 then some (d, 5)
  else if 0x100000 ≤ o ∧ o < 0x10010C then some (d, 7)
  else if 0x200000 ≤ o ∧ o < 0x400000 then some (d, 8)
  else none
/-- The gateable block that holds a byte of an on-die memory window. -/
def onDieBlock (a : Nat) : Option (Nat × Nat) :=
  let g := (a - 0x020000000000) / 0x40000000
  let o := (a - 0x020000000000) % 0x40000000
  if o < 0x04000000 then some (8 + g, 8)
  else if o < 0x08000000 then none
  else if o < 0x0A000000 then some (8 + g, 6)
  else some (8 + g, 7)
/-- The block that holds an address. -/
def addrBlock (a : Nat) : Option (Nat × Nat) :=
  if inWindow a then windowBlock a
  else if 0x020000000000 ≤ a ∧ a < 0x020200000000 then onDieBlock a
  else none

/-- The block is under reset, or gated: its registers and memory read zero and discard writes (03 R88, R89). -/
def blockShut (s : State) (a : Nat) : Bool :=
  match addrBlock a with
  | some (d, b) => rdB s (clkBlk d + 0x108) b || gated s d b
  | none => false
/-- The access to a shut block counted, unless the block is under reset (R89). -/
def shutHit (a : Nat) (s : State) : State :=
  match addrBlock a with
  | some (d, b) => if rdB s (clkBlk d + 0x108) b then s else cnt s (clkBlk d + 0x14)
  | none => s

/-! ### Words that no register holds as it is read -/

/-- An entry of the event ring as eight words (02 R63). -/
def EvtEntry.words (e : EvtEntry) : List Word :=
  [ word (e.code + e.sev * 2 ^ 16), word e.seq, word e.ns,
    word (e.wraps + e.tb * 2 ^ 8 + b2n e.valid * 2 ^ 11 + e.src * 2 ^ 20) ] ++ e.detail

/-- A word of the booth window (02 R45, R47, R61). -/
def boothWord (s : State) (a : Nat) : Word :=
  let o := a - boothWin
  let b := o / 0x10000
  let x := o % 0x10000
  if 64 ≤ b then rd s a
  else if b = 63 ∧ 0x8000 ≤ x ∧ x < 0xA000 then
    (match sget none s.ward.ring ((x - 0x8000) / 32) with
     | some e => e.words.getD (x % 32 / 4) 0
     | none => 0)
  else if b = 63 then rd s a
  else if 0x1000 ≤ x ∧ x < 0x5000 then sget 0 s.ward.req (b * 4096 + (x - 0x1000) / 4)
  else if 0x8000 ≤ x ∧ x < 0xC000 then
    (if boothState s b = 3 then (sget [] s.ward.resp b).getD ((x - 0x8000) / 4) 0 else 0)
  else rd s a

/-- Word `w` of the register image that a save slot and the debug block show (08 R278): s, a, b, l, then v and acc. -/
def regsWord (r : TRegs) (w : Nat) : Nat :=
  if w < 40 then r.get w
  else if w < 168 then r.get (rV ((w - 40) / 8)) / 2 ^ (32 * ((w - 40) % 8)) % 2 ^ 32
  else r.get (rAcc ((w - 168) / 32)) / 2 ^ (32 * ((w - 168) % 32)) % 2 ^ 32

/-- Word `w` of the item record in a save slot (10 R328). -/
def itemWord (i : Item) (w : Nat) : Nat :=
  if w < 4 then wordAt i.desc (4 + w)
  else if w = 4 then i.slot + i.gen * 2 ^ 16 + min 255 i.restarts * 2 ^ 24
  else if w = 5 then b2n i.late + i.eclass * 2
  else if w = 6 then i.cycles
  else 0

/-- ST of a saved context. -/
def SavedTile.st (c : SavedTile) : Nat :=
  c.regs.get rSt % 4 + b2n c.spec * 8 + b2n c.restarted * 16 + b2n c.lockBroken * 32

/-- Word `w` of a tile's save slot image. -/
def slotWord (c : SavedTile) (w : Nat) : Nat :=
  if w < 296 then regsWord c.regs w
  else if w = 296 then c.st
  else if w = 297 then c.pc
  else if w = 298 then c.tmr
  else if w = 299 then c.wd
  else itemWord c.item (w - 300)

/-- Word `w` of the state of a HALTED tile (18 R546). -/
def haltedWord (x : Tile) (w : Nat) : Nat :=
  if w < 296 then regsWord x.regs w
  else if w = 296 then x.st
  else if w = 297 then x.pc
  else if w = 298 then x.tmr
  else x.wd

/-- A word of a tile's control block (08 R278). -/
def tilWord (s : State) (t o : Nat) : Word :=
  let x := tileAt s t
  if o = 0 then
    word (x.provPend + x.state * 2 ^ 8 + x.cbuf.length * 2 ^ 16 + b2n x.wake * 2 ^ 29 + b2n x.broken * 2 ^ 30
      + b2n x.saved.isSome * 2 ^ 31)
  else if o = 4 then 0
  else if o = 0xC then setFld (rd s (tilBlk t + o)) 19 0 x.wd
  else if o = 0x1C then word (if [0x74, 0x75, 0x77].contains x.state then x.pc else x.lastPc)
  else if 0x800 ≤ o ∧ o < 0xCD0 then
    (match x.saved with
     | some c => word (slotWord c ((o - 0x800) / 4))
     | none => 0)
  else rd s (tilBlk t + o)

/-- The tile that DBG_TILE_SEL of a grove selects. -/
def selTile (s : State) (g : Nat) : Nat := g * 512 + rdF s (dbgBlk g + 0x30C) 8 0

/-- A word of a grove's debug block (18 R546, R557). -/
def dbgWord (s : State) (g o : Nat) : Word :=
  if 0x2C0 ≤ o ∧ o < 0x300 then
    word ((upto 32).foldl (fun a j => a + b2n ((tileAt s (g * 512 + (o - 0x2C0) * 8 + j)).state = 0x75) * 2 ^ j) 0)
  else if 0x240 ≤ o ∧ o < 0x2C0 then 0
  else if 0x800 ≤ o ∧ o < 0xCB0 then
    (let x := tileAt s (selTile s g)
     if x.state = 0x75 then word (haltedWord x ((o - 0x800) / 4)) else 0)
  else rd s (dbgBlk g + o)

/-- RMC_PROBE: the way that RMC_PROBE_SEL names (07 R237). -/
def probeWord (s : State) (g : Nat) : Word :=
  let sel := rdF s (rmcBlk g + 8) 17 0
  let l := sget {} s.rmc.lines ((g * 16384 + sel / 16) * 16 + sel % 16)
  if l.st = 0 then 0 else word (l.line / 2 ^ 14 % 2 ^ 18 + b2n l.check * 2 ^ 26 + l.home * 2 ^ 27 + l.st * 2 ^ 30)

/-- ENC_KS_STATUS (13 R415). -/
def ksWord (s : State) : Word :=
  word (setVal s 1 % 16 + b2n (rdB s keyBase 5) * 2 ^ 5
    + (upto 16).foldl (fun a e => a + b2n (sget [] s.ward.keyHashes e ≠ []) * 2 ^ (16 + e)) 0)

/-- An entry of an engine's active or shadow gate list (14 R456). -/
def gateWord (s : State) (pe e : Nat) : Word :=
  match (if e < 256 then sget none s.lan.active pe else sget none s.lan.shadow pe) with
  | some l => l.entries.getD (e % 256) 0
  | none => 0

/-- The register of a 64-bit pair whose low word has been latched for a station (10 R322; 16 R510). -/
def latchOf (s : State) (station a : Nat) : Word :=
  if a < 0x030010000000 then sget (rd s a) s.tal.latch (station * 128 + (winOff a - 0x100) / 8)
  else match s.dsp.latches.find? (fun (e : Nat × Nat × Word) => e.1 = station && e.2.1 = a - 4) with
    | some e => e.2.2
    | none => rd s a

/-- The word read at an address in the lower half of a grove's register window. -/
def groveWord (s : State) (station a : Nat) : Word :=
  let g := (a - 0x030010000000) / 0x1000000
  let o := winOff a
  if o = 0x4000C then probeWord s g
  else if 0x70000 ≤ o ∧ o < 0x90000 then
    (let x := o - 0x70000
     if x % 0x40 = 0x20 then resultOf s g (x / 0x40) else if x % 0x40 < 0x20 then (postWords s g (x / 0x40)).getD (x % 0x40 / 4) 0 else 0)
  else if 0x50080 ≤ o ∧ o < 0x500C0 ∧ o % 8 = 4 then latchOf s station a
  else if 0x51000 ≤ o ∧ o < 0x52000 ∧ o % 16 = 0 ∧ rdF s a 22 20 = 0 then setFld (rd s a) 26 24 0
  else if 0x100000 ≤ o ∧ o < 0x110000 then dbgWord s g (o - 0x100000)
  else if 0x200000 ≤ o ∧ o < 0x400000 then tilWord s (g * 512 + (o - 0x200000) / 0x1000) (o % 0x1000)
  else rd s a

/-- The word read at an address in the lower half of a register window, as a station sees it. -/
def viewWord (s : State) (station a : Nat) : Word :=
  if a < boothWin then rd s a
  else if a < clkBase then boothWord s a
  else if tuBase ≤ a ∧ a < talBase then
    (let o := a - tuBase
     if 0x100 ≤ o ∧ o < 0x300 then tbWord s ((o - 0x100) / 0x40) ((o - 0x100) % 0x40) else tuWord s o)
  else if talBase + 0x100 ≤ a ∧ a < talBase + 0x350 ∧ a % 8 = 4 then latchOf s station a
  else if svpBase + 0x40 ≤ a ∧ a < svpBase + 0x58 then (svpIn ((a - svpBase - 0x40) / 4) s).1
  else if a = keyBase then ksWord s
  else if 0x030010000000 ≤ a ∧ a < 0x030018000000 then groveWord s station a
  else if 0x030020000000 ≤ a ∧ 0x401000 ≤ winOff a ∧ winOff a % 0x10000 / 0x800 = 2 then
    gateWord s (16 * ((a - 0x030020000000) / 0x1000000) + (winOff a - 0x400000) / 0x10000) (winOff a % 0x800 / 4)
  else rd s a

/-! ### What a read changes -/

/-- The high word of a 64-bit counter latched for a station by the read of the low word. -/
def latchHigh (station a : Nat) (s : State) : State :=
  if a < 0x030010000000 then
    { s with tal := { s.tal with latch := sset 0 s.tal.latch (station * 128 + (winOff a - 0x100) / 8) (rd s (a + 4)) } }
  else
    let rest := s.dsp.latches.filter (fun (e : Nat × Nat × Word) => !(e.1 = station && e.2.1 = a))
    { s with dsp := { s.dsp with latches := rest ++ [(station, a, rd s (a + 4))] } }

/-- The effects of a read of a word in the lower half of a register window: counters clear, latches are taken, the
oldest capture record leaves (00 R7; 10 R322; 15 R466, R472; 16 R510). -/
def readEffect (station a : Nat) (s : State) : State :=
  let o := winOff a
  if tuBase + 0x100 ≤ a ∧ a < tuBase + 0x300 then (readTb station ((o - 0x100) / 0x40) ((o - 0x100) % 0x40) s).2
  else if tuBase + 0x400 ≤ a ∧ a < tuBase + 0x600 ∧ o % 16 = 8 then capPop ((o - 0x400) / 16) s
  else if talBase + 0x100 ≤ a ∧ a < talBase + 0x350 ∧ a % 8 = 0 then latchHigh station a s
  else if svpBase + 0x40 ≤ a ∧ a < svpBase + 0x58 then (svpIn ((a - svpBase - 0x40) / 4) s).2
  else if 0x030010000000 ≤ a ∧ a < 0x030018000000 ∧ 0x50080 ≤ o ∧ o < 0x500C0 ∧ o % 8 = 0 then latchHigh station a s
  else match regAt a with
    | some r => if r.rc then wr s a 0 else s
    | none => s

/-- The word that a station reads in a time-unit block of latched registers; elsewhere the view. -/
def readWord (s : State) (station a : Nat) : Word :=
  if tuBase + 0x100 ≤ a ∧ a < tuBase + 0x300 then
    (readTb station ((winOff a - 0x100) / 0x40) ((winOff a - 0x100) % 0x40) s).1
  else viewWord s station a

/-- A 32-bit read of a register window by a station: the value, and the state after it. A gated block reads zero, and
a mirror has no side effect (01 R28; 03 R88). -/
def regRead (station a : Nat) (s : State) : Word × State :=
  let b := unmirror a
  if blockShut s b then (0, shutHit b s)
  else if inMirror a then (viewWord s station b, s)
  else (readWord s station b, readEffect station b s)

end Sys2Proof.Machine
end

