-- ==== Sys2Proof/Machine/RegWrite.lean ====
section
/-!
DEFINITION. What a 32-bit write of a register does: writer authority, access codes, unlisted encodings, and the
registers whose writes act (00 R4-R9; 01 R28; 02 R46, R50; 03 R78, R88; and the register tables of every chapter).
-/
namespace Sys2Proof.Machine

/-- The state that a meaning goes on to. -/
def after (s : State) (o : Host.Outcome State Fault Refusal) : State :=
  match o with
  | .next t => t
  | _ => s

/-! ### Authority and access codes -/

/-- The source may write a register of this authority at address `a`. -/
def authOk (s : State) (a : Nat) (src : Writer) : Auth → Bool
  | .warden => src = .warden
  | .wardenPf0 => wardenOrPf0 src
  | .wardenHost => src = .warden || src = .host 0 || src = .host 1
  | .pf0 => src = .host 0
  | .wardenTally => src = .warden || src = .tally
  | .wardenDebug => dbgWriter s src
  | .wardenFull => src = .warden || (dbgWriter s src && dbgAuth s = 0xD3)
  | .booth => boothWriter s ((a - boothWin) / 0x10000) src
  | .any => true

/-- A value under a row's access codes: RW bits take it, a 1 clears a W1C bit and sets a W1S bit (R7). -/
def codeValue (r : RegRow) (old v : Word) : Word :=
  (((old &&& ~~~(word r.rw)) ||| (v &&& word r.rw)) &&& ~~~(v &&& word r.w1c)) ||| (v &&& word r.w1s)

/-- Field [hi:lo] of a written value kept as it stands where the new encoding is not an accepted one (R6). -/
def keepUnless (ok : Nat → Bool) (hi lo : Nat) (old v : Word) : Word :=
  if ok (fld v hi lo) then v else setFld v hi lo (fld old hi lo)

/-- Fields of plain registers that accept only some values, by window and offset (R6). -/
def acceptValue (a : Nat) (old v : Word) : Word :=
  let o := winOff a
  if a < 0x030010000000 then
    (if a = talBase + 0x18 then keepUnless (· ≤ 16) 20 16 old v
     else if a = dbgBase + 8 then keepUnless (10 ≤ ·) 15 0 old v
     else if hubPtrBase ≤ a ∧ o % 0x100 = 0x1C then keepUnless (· ≤ 16) 20 16 old v
     else v)
  else if a < 0x030020000000 then
    (if o = 0x50014 then keepUnless (· ≤ 512) 9 0 old v
     else if 0x51000 ≤ o ∧ o < 0x52000 ∧ o % 16 = 0 then keepUnless (fun n => decide (1 ≤ n) && decide (n ≤ 65536)) 16 0 old v
     else if 0x52000 ≤ o ∧ o < 0x53000 ∧ o % 16 = 4 then keepUnless (· ≤ 16) 20 16 old v
     else if 0x90000 ≤ o ∧ o < 0xA0000 ∧ o % 0x100 = 0x1C then keepUnless (· ≤ 16) 20 16 old v
     else if o = 0xB000C ∨ o = 0xC000C then keepUnless (fun n => decide (16 ≤ n) && decide (n ≤ 1008)) 26 16 old v
     else if 0x200000 ≤ o ∧ o < 0x400000 ∧ o % 0x1000 = 8 then keepUnless (· ≠ 0) 15 0 old v
     else v)
  else if 0x200000 ≤ o ∧ o < 0x280000 then
    (if o % 0x1000 = 0 then keepUnless (· ≤ 7) 11 8 old (keepUnless (· ≤ 7) 7 4 old v) else v)
  else if 0x400000 ≤ o then
    (if o % 0x10000 < 0x20 then
       keepUnless (fun n => decide (1518 ≤ n) && decide (n ≤ 9216)) 13 0 old (keepUnless (· ≤ 9) 31 28 old v)
     else if o % 0x10000 = 0x74 then keepUnless (· ≤ 16) 20 16 old v
     else v)
  else v

/-- A write to a register by its access codes and the authority of its block; other sources, other bits and reserved
offsets are ignored (R5-R7). -/
def codeWrite (src : Writer) (a : Nat) (v : Word) (s : State) : State :=
  match regAt a with
  | some r => if authOk s a src r.auth then wr s a (codeValue r (rd s a) (acceptValue a (rd s a) v)) else s
  | none => s

/-- A ring control register: its producer count starts from zero when EN is set. -/
def ringWrite (src : Writer) (a prod : Nat) (v : Word) (s : State) : State :=
  let s1 := codeWrite src a v s
  if rdB s1 a 31 ∧ !rdB s a 31 then wr s1 prod 0 else s1

/-! ### Registers whose writes act -/

/-- A write of a word of the booth window (02 R45, R46, R50). -/
def boothWrite (src : Writer) (a : Nat) (v : Word) (s : State) : State :=
  let o := a - boothWin
  let b := o / 0x10000
  let x := o % 0x10000
  if 64 ≤ b then s
  else if b = 63 then
    (if x = 4 then after s (execEvtConsWrite src (fld v 15 0) s)
     else if !boothWriter s 63 src then boothDenied src 63 s
     else if x = 8 then codeWrite src a v s else s)
  else if !boothAllows s src b then boothDenied src b s
  else if x = 4 then
    (let s1 := if bit v 0 then after s (execBoothPost src b s) else s
     if bit v 1 then after s1 (execBoothRelease src b s1) else s1)
  else if 0x1000 ≤ x ∧ x < 0x5000 then after s (execBoothAreaWrite src b (x - 0x1000) v s)
  else codeWrite src a v s

/-- CLK_GATE_EN of a die written whole, by the Warden (03 R78, R88). -/
def gateWrite (src : Writer) (d : Nat) (v : Word) (s : State) : State :=
  if src ≠ .warden then s
  else
    let old := fld (rd s (clkBlk d + 0x10)) (gateBits d - 1) 0
    let new := fld v (gateBits d - 1) 0
    let s1 := setGates d (old &&& (2 ^ gateBits d - 1 - new)) false s
    setGates d (new &&& (2 ^ gateBits d - 1 - old)) true s1

/-- DBG_HOSTWD_CTRL: the count starts from PERIOD_MS when EN is set (18 R554, R556). -/
def hostwdWrite (src : Writer) (v : Word) (s : State) : State :=
  let s1 := codeWrite src hostCtrl v s
  if rdB s1 hostCtrl 31 ∧ !rdB s hostCtrl 31 then
    wrF { s1 with dbg := { s1.dbg with hostWarned := false } } hostCount 15 0 (rdF s1 hostCtrl 15 0)
  else s1

/-- INJ_CTRL: an unlisted MODE keeps the field (19 R562). -/
def injWrite (src : Writer) (a d n : Nat) (v : Word) (s : State) : State :=
  if src ≠ .warden ∨ pointsOf d ≤ n then s
  else if a = injPt d n then writeInjCtrl d n (keepUnless (· ≤ 4) 27 24 (rd s a) v) s
  else codeWrite src a v s

/-- PTR_CTRL: each bit written as 1 acts (11 R358). -/
def ptrCtrlWrite (src : Writer) (c : Nat) (v : Word) (s : State) : State :=
  let s1 := if bit v 0 then after s (execResume src c s) else s
  let s2 := if bit v 1 then after s1 (execSkip src c s1) else s1
  let s3 := if bit v 2 then after s2 (execAbort src c s2) else s2
  let s4 := if bit v 3 then after s3 (execGo src c s3) else s3
  if bit v 4 then after s4 (execCloseUnit src c s4) else s4

/-- A write of a porter channel's register (11 R348, R349, R358). -/
def ptrWrite (src : Writer) (c a : Nat) (v : Word) (s : State) : State :=
  let x := winOff a % 0x100
  if x = 0 then after s (execPtrChCfgWrite src c v s)
  else if x = 8 ∨ x = 0xC then
    (if !wardenOrPf0 src then s else if rdB s (ptrBlk c) 31 then wrB s (ptrBlk c + 4) 10 true else codeWrite src a v s)
  else if x = 0x10 then after s (execPtrProdWrite src c v s)
  else if x = 0x1C then ringWrite src a (ptrBlk c + 0x20) v s
  else if x = 0x2C then ptrCtrlWrite src c v s
  else codeWrite src a v s

/-- A write of a word of the hub's register windows. -/
def hubWrite (src : Writer) (a : Nat) (v : Word) (s : State) : State :=
  let o := winOff a
  if a < boothWin then codeWrite src a v s
  else if a < clkBase then boothWrite src a v s
  else if a < cfgBase then
    (if o = 4 then after s (execClkSourceSelectWrite src 0 v s)
     else if o = 0x10 then gateWrite src 0 v s
     else if o = 0x108 then after s (execBlockReset src 0 v s)
     else codeWrite src a v s)
  else if a < tuBase then
    (if 0x100000 ≤ o ∧ o < 0x200000 then after s (execStreamPortWrite (posterOf src) v s) else codeWrite src a v s)
  else if a < talBase then codeWrite src a v s
  else if a < svpBase then (if o = 0x18 then ringWrite src a (talBase + 0x1C) v s else codeWrite src a v s)
  else if a < dbgBase then
    (if o < 0x18 then after s (execSvpMaskedWrite src false (o / 4) v s)
     else if 0x20 ≤ o ∧ o < 0x38 then after s (execSvpMaskedWrite src true ((o - 0x20) / 4) v s)
     else codeWrite src a v s)
  else if a < injBase then
    (if o = 4 ∧ src = .host 0 then
       (let s1 := if bit v 0 then after s (execDbgClaim s) else s
        if bit v 1 then after s1 (execDbgRelease s1) else s1)
     else if o = 8 then hostwdWrite src v s
     else if o = 0xC then after s (execDbgHostwdKick src v s)
     else codeWrite src a v s)
  else if a < hubPtrBase then injWrite src a 0 (o / 0x20) v s
  else if a < keyBase then (if o < 0x1000 then ptrWrite src (0x10 + o / 0x100) a v s else s)
  else s

/-- RMC_CTRL: clearing EN begins a flush, clearing VEST_EN drops every V line; ignored while FLUSHING (07 R237). -/
def rmcCtrlWrite (src : Writer) (g : Nat) (v : Word) (s : State) : State :=
  if !wardenOrPf0 src ∨ rdB s (rmcBlk g + 4) 0 then s
  else
    let s1 := codeWrite src (rmcBlk g) v s
    let s2 := if rdB s (rmcBlk g) 0 ∧ !rdB s1 (rmcBlk g) 0 then wrB s1 (rmcBlk g + 4) 0 true else s1
    if rdB s (rmcBlk g) 1 ∧ !rdB s2 (rmcBlk g) 1 then dropVestiges g s2 else s2

/-- A write of a word of a grove's dispatcher block (10 R302, R307, R314, R318, R319, R331). -/
def dspWrite (src : Writer) (g a : Nat) (v : Word) (s : State) : State :=
  let o := winOff a - 0x50000
  if 0x20000 ≤ o then (if o % 0x40 < 0x20 then writePost g ((o - 0x20000) / 0x40) (o % 0x40 / 4) v s else s)
  else if o = 0 then
    (if bit v 31 then after s (execDspEnSet src g v s) else after s (execDspEnClear src g v s))
  else if o = 8 ∨ o = 0xC then
    (if rdB s (dspBlk g) 31 ∨ rdB s (dspBlk g + 4) 3 then s else codeWrite src a v s)
  else if o = 0x18 then after s (execDspFlowFlush src g v s)
  else if o = 0x1C then after s (execDspCancel g v s)
  else if 0x100 ≤ o ∧ o < 0x140 ∧ o % 8 = 0 then after s (execDspDlCfgWrite src g ((o - 0x100) / 8) v s)
  else if 0x1000 ≤ o ∧ o < 0x2000 ∧ o % 16 = 4 then after s (execDspQminWrite src g ((o - 0x1000) / 16) v s)
  else if 0x2000 ≤ o ∧ o < 0x3000 ∧ o % 16 = 4 then ringWrite src a (a + 4) v s
  else codeWrite src a v s

/-- Bits [31:0] of word `w` of a value replaced. -/
def setWord32 (n w v : Nat) : Nat := n - n / 2 ^ (32 * w) % 2 ^ 32 * 2 ^ (32 * w) + v * 2 ^ (32 * w)
/-- A register of a HALTED tile written, its taint cleared. -/
def haltedPut (x : Tile) (r v : Nat) : Tile :=
  let y := x.regs.put r v false
  { x with regs := y, old := y, older := y }
/-- A write of word `w` of a HALTED tile's state: ST takes SAT and OVF only (18 R546). -/
def haltedSet (x : Tile) (w v : Nat) : Tile :=
  if w < 40 then haltedPut x w v
  else if w < 168 then
    (let r := rV ((w - 40) / 8)
     haltedPut x r (setWord32 (x.get r) ((w - 40) % 8) v))
  else if w < 296 then
    (let r := rAcc ((w - 168) / 32)
     haltedPut x r (setWord32 (x.get r) ((w - 168) % 32) v))
  else if w = 296 then haltedPut x rSt (v % 4)
  else if w = 297 then { x with pc := v % 4096 }
  else if w = 298 then { x with tmr := v }
  else { x with wd := v % 2 ^ 20 }

/-- A write of a word of a grove's debug block (18 R546, R557). -/
def dbgBlkWrite (src : Writer) (g a : Nat) (v : Word) (s : State) : State :=
  let o := winOff a - 0x100000
  if !dbgWriter s src then s
  else if o = 0x100 then writePrbCtrl g v s
  else if o = 0x10C then writeTctrl g v s
  else if 0x200 ≤ o ∧ o < 0x240 then after s (execDbgHaltReqWrite src g ((o - 0x200) / 4) v s)
  else if 0x240 ≤ o ∧ o < 0x280 then after s (execDbgResumeWrite src g ((o - 0x240) / 4) v s)
  else if 0x280 ≤ o ∧ o < 0x2C0 then after s (execDbgStepWrite src g ((o - 0x280) / 4) v s)
  else if o = 0x308 then setFreeze g v s
  else if 0x800 ≤ o ∧ o < 0xCB0 then
    (let t := selTile s g
     let x := tileAt s t
     if x.state = 0x75 then setTile t (haltedSet x ((o - 0x800) / 4) v.toNat) s else s)
  else codeWrite src a v s

/-- A write of a word of a tile's control block (08 R278). -/
def tilWrite (src : Writer) (t a : Nat) (v : Word) (s : State) : State :=
  let o := winOff a % 0x1000
  if o = 0 then
    (if authOk s a src .wardenHost ∧ bit v 30 then setTile t { tileAt s t with broken := false } s else s)
  else if o = 4 then
    (let s1 := if bit v 0 then after s (execTileResume src t s) else s
     let s2 := if bit v 1 then after s1 (execTileKill src t s1) else s1
     let s3 := if bit v 2 then after s2 (execTileWake src t s2) else s2
     if bit v 3 then after s3 (execTileDiscardSlot src t s3) else s3)
  else codeWrite src a v s

/-- A write of a word of a grove's register window. -/
def groveWrite (src : Writer) (a : Nat) (v : Word) (s : State) : State :=
  let g := (a - 0x030010000000) / 0x1000000
  let o := winOff a
  if o = 0x10010 then gateWrite src (8 + g) v s
  else if o = 0x10108 then after s (execBlockReset src (8 + g) v s)
  else if o = 0x40000 then rmcCtrlWrite src g v s
  else if 0x50000 ≤ o ∧ o < 0x90000 then dspWrite src g a v s
  else if 0x90000 ≤ o ∧ o < 0xA0000 then
    (if o < 0x92000 then ptrWrite src ((8 + g) * 256 + 0x10 + (o - 0x90000) / 0x100) a v s else s)
  else if o = 0xA0004 then after s (execXltInvalWrite src g v s)
  else if o = 0xB0018 ∨ o = 0xC0018 then
    (let s1 := codeWrite src a v s
     if bit v 30 then after s1 (execCeLogClear src (2 * g + (o - 0xB0018) / 0x10000) s1) else s1)
  else if 0xF0000 ≤ o ∧ o < 0x100000 then injWrite src a (8 + g) ((o - 0xF0000) / 0x20) v s
  else if 0x100000 ≤ o ∧ o < 0x110000 then dbgBlkWrite src g a v s
  else if 0x200000 ≤ o ∧ o < 0x400000 then tilWrite src (g * 512 + (o - 0x200000) / 0x1000) a v s
  else codeWrite src a v s

/-- A write of a word of a lane die's register window. -/
def laneWrite (src : Writer) (a : Nat) (v : Word) (s : State) : State :=
  let d := 1 + (a - 0x030020000000) / 0x1000000
  let o := winOff a
  if o = 0x10004 then after s (execClkSourceSelectWrite src d v s)
  else if o = 0x10010 then gateWrite src d v s
  else if o = 0x10108 then after s (execBlockReset src d v s)
  else if 0xF0000 ≤ o ∧ o < 0x100000 then injWrite src a d ((o - 0xF0000) / 0x20) v s
  else if 0x400000 ≤ o ∧ o < 0x500000 ∧ o % 0x10000 = 0x74 then ringWrite src a (a + 4) v s
  else codeWrite src a v s

/-- A 32-bit write of a register window: mirrors ignore it, shut blocks discard it (01 R28; 03 R88). -/
def regWrite (src : Writer) (a : Nat) (v : Word) (s : State) : State :=
  if inMirror a then s
  else if blockShut s a then shutHit a s
  else if a < 0x030010000000 then hubWrite src a v s
  else if a < 0x030020000000 then groveWrite src a v s
  else laneWrite src a v s

end Sys2Proof.Machine
end

