-- ==== Sys2Proof/Machine/Access.lean ====
section
/-!
DEFINITION. Meanings of direct register accesses, of the TAP's access to booth 62, and of a packet's arrival at its
station (00 R4-R9; 01 R27, R28, R35; 03 R78, R88; 06 R172-R175, R181-R190, R576; 18 R538).
-/
namespace Sys2Proof.Machine

/-! ### Reach and waiting -/

/-- An access of a source reaches an address: PF1 as R35 says, the service port booths 60 and 61 (02 R52). -/
def srcReaches (src : Writer) (a : Nat) : Bool :=
  match src with
  | .host pf => pfReaches pf a
  | .service => decide (boothSlot 60 ≤ a) && decide (a < boothSlot 62)
  | .station id => populated id
  | _ => true

/-- An access to the address waits: its die or block is stopped by the debugger, or its block by DEEP (03 R95; 18 R549,
R550). -/
def accessWaits (s : State) (a : Nat) : Bool :=
  let d := dieOfAddr a
  s.dbg.stoppedDies.contains d ||
    (match windowBlock a with
     | some (e, b) => isGroveDie e && (frozen s (e - 8) b || ([0, 1, 3, 4, 8].contains b && dieState s e = 0x32))
     | none => false)

/-! ### Direct accesses -/

/-- A write to a register (00 R4-R8): its access codes, its block's authority, and what the register does. An access
that is not 32 bits wide and aligned is not performed. -/
def execRegisterWrite (src : Writer) (addr width : Nat) (value : Word) (s : State) : Host.Outcome State Fault Refusal :=
  Next (if s.pkg.held then s
    else if !srcReaches src addr then (if src = .service then s else cnt s (wdnBase + 0x24))
    else if !inWindow addr then (if mapped s addr then s else noteUnmapped (writerStation src) addr s)
    else if width ≠ 4 ∨ addr % 4 ≠ 0 ∨ !dieAlive s (dieOfAddr addr) ∨ accessWaits s (unmirror addr) then s
    else regWrite src addr value s)

/-- A read of an RC counter clears it, except through the peek mirror (R7, R9). -/
def execRcCounterRead (src : Writer) (addr : Nat) (s : State) : Host.Outcome State Fault Refusal :=
  Next (if s.pkg.held then s
    else if !srcReaches src addr then (if src = .service then s else cnt s (wdnBase + 0x24))
    else if !inWindow addr ∨ !dieAlive s (dieOfAddr addr) ∨ accessWaits s (unmirror addr) then s
    else if ((regAt (unmirror addr)).map (·.rc)).getD false then (regRead (writerStation src) addr s).2
    else s)

/-- Update-DR of DBGACC: one access to the slot of booth 62 (18 R538). Outcome 0 done, 2 refused. -/
def execDbgacc (op off : Nat) (data : Word) (s : State) : Host.Outcome State Fault Refusal :=
  Next (if s.pkg.held ∨ s.dbg.ir ≠ 0x11 ∨ !tapOpen s ∨ op % 4 = 0 ∨ op % 4 = 3 then s
    else if dbgOwner s ≠ 1 then { s with dbg := { s.dbg with accState := 2 } }
    else
      let a := boothSlot 62 + off % 0x10000
      if op % 4 = 1 then
        let r := if a % 4 = 0 then regRead 0x006 a s else (0, s)
        { r.2 with dbg := { r.2.dbg with accState := 0, accData := r.1 } }
      else
        let s1 := if a % 4 = 0 then regWrite (.debug 1) a data s else s
        { s1 with dbg := { s1.dbg with accState := 0 } })

/-! ### Requests served at once -/

/-- The source that a packet's sender is to a register. A packet of the host link is PF0's. -/
def packetWriter (s : State) (p : Packet) : Writer :=
  if p.src = 1 then .host 0
  else if p.src = 2 then .warden
  else if p.src = 5 then .tally
  else if p.src = 6 then .debug (dbgOwner s)
  else .station p.src

/-- A request that its station cannot serve (R576). -/
def unservable (p : Packet) (s : State) : State := respond p 0x06 [] (bghCnt (p.dst / 256) 1 s)

/-- Successive words written from an address on. -/
def writeWords (src : Writer) (a : Nat) (l : List Word) (s : State) : State :=
  (l.foldl (fun (t : State × Nat) w => (regWrite src t.2 w t.1, t.2 + 4)) (s, a)).1

/-- The address lies in a dispatcher's post-slot area (10 R302). -/
def inPosts (a : Nat) : Bool :=
  decide (0x030010000000 ≤ a) && decide (a < 0x030018000000) && decide (0x70000 ≤ winOff a) && decide (winOff a < 0x90000)

/-- A request for a word of a register window (00 R4). -/
def serveRegs (p : Packet) (s : State) : State :=
  if p.op = 1 then
    if p.len = 4 ∧ p.addr % 4 = 0 then
      let r := regRead p.src p.addr s
      respond p stOk (toBytes 4 r.1.toNat) r.2
    else respond p stOk (List.replicate p.len 0) s
  else
    let ok : Bool := p.addr % 4 = 0 && (p.len = 4 || (inPosts p.addr && p.len % 4 = 0 && decide (p.len ≤ 32)))
    respond p stOk [] (if ok then writeWords (packetWriter s p) p.addr (bytesToWords p.data) s else s)

/-- A request for bytes of a tile's memories: data memory and program memory, the rest of the slot reserved (01 R32). -/
def serveTileMem (p : Packet) (s : State) : State :=
  let inside : Bool := decide (p.addr % 0x20000 < 0x14000)
  if p.op = 1 then respond p stOk (if inside then memGet s p.addr p.len else List.replicate p.len 0) s
  else respond p stOk [] (if inside then memPut p.addr p.data s else s)

/-- The access waits at the tile's network port: the array is stopped, a locked sequence runs, or a read touches a
tainted unit (08 R256, R264). -/
def tileMemWaits (s : State) (p : Packet) : Bool :=
  let t := tileOf p.addr
  let x := tileAt s t
  let o := p.addr % 0x20000
  tileFrozen s t || dieState s (p.dst / 256) = 0x32 || (o < 0x10000 && x.locked)
    || (o < 0x10000 && p.op = 1 && (upto (p.len / 32 + 2)).any (fun i =>
          decide ((o / 32 + i) * 32 < o + p.len) && sget false x.units (o / 32 + i)))

/-- Pieces of a range within 8-byte words: address, length. -/
def words8 : Nat → Nat → Nat → List (Nat × Nat)
  | 0, _, _ => []
  | fuel + 1, a, n =>
    if n = 0 then []
    else
      let k := min n (8 - a % 8)
      (a, k) :: words8 fuel (a + k) (n - k)

/-- A request for bytes of an exported block RAM (05, Block RAM). -/
def serveBram (p : Packet) (s : State) : State :=
  let g := (p.addr - 0x020000000000) / 0x40000000
  let o := (p.addr - 0x020000000000) % 0x40000000 - 0x04000000
  let r := (words8 34 o p.len).foldl (fun (acc : Nat × List Byte × State) (e : Nat × Nat) =>
    let x := bramExport g (e.1 / 0x2000) (p.op ≠ 1) (e.1 % 0x2000) e.2 ((p.data.drop (e.1 - o)).take e.2) acc.2.2
    (max acc.1 x.1, acc.2.1 ++ x.2.1, x.2.2)) (0, [], s)
  respond p r.1 (if p.op = 1 ∧ r.1 = 0 then r.2.1 else []) r.2.2

/-- Bytes of the probe trace memory (05 R169), read a sample at a time. -/
def traceBytes (g o n : Nat) (s : State) : List Byte × State :=
  (words8 34 o n).foldl (fun (acc : List Byte × State) (e : Nat × Nat) =>
    let x := traceRead g (e.1 / 8) acc.2
    (acc.1 ++ ((toBytes 8 x.1).drop (e.1 % 8)).take e.2, x.2)) ([], s)
def serveTrace (p : Packet) (s : State) : State :=
  if p.op = 1 then
    let r := traceBytes ((p.addr - 0x020000000000) / 0x40000000) ((p.addr - 0x020000000000) % 0x40000000 - 0x0A000000) p.len s
    respond p stOk r.1 r.2
  else respond p stOk [] s

/-- A byte of the cache's or the directory's maintenance region (07 R238). -/
def maintByte (s : State) (g o : Nat) : Byte :=
  if o < 0x09000000 then
    (sget {} s.rmc.lines (g * 262144 + (o - 0x08000000) / 64)).data.getD (o % 64) 0
  else
    let e := sget {} s.rmc.dir (g * 1048576 + (o - 0x09000000) / 16)
    let w1 := e.holders % 256 + b2n e.owned * 2 ^ 8 + e.owner % 8 * 2 ^ 9 + b2n e.valid * 2 ^ 12
    if o % 16 < 8 then (toBytes 8 (e.line % 2 ^ 32 + w1 * 2 ^ 32)).getD (o % 16) 0 else 0
def serveMaint (p : Packet) (s : State) : State :=
  let g := (p.addr - 0x020000000000) / 0x40000000
  let o := (p.addr - 0x020000000000) % 0x40000000
  if p.op = 1 then respond p stOk ((upto p.len).map (fun i => maintByte s g (o + i))) s else respond p stOk [] s

/-- A request to a shut block's memory reads zero or is discarded, and is counted (03 R88). -/
def serveShut (p : Packet) (s : State) : State :=
  respond p stOk (if p.op = 1 then List.replicate p.len 0 else []) (shutHit p.addr s)

/-- A request to an unmapped address (01 R27). -/
def serveUnmapped (p : Packet) (s : State) : State :=
  respond p stOk (if p.op = 1 then List.replicate p.len 0 else []) (noteUnmapped p.src p.addr s)

/-! ### Arrival -/

/-- What arrives where: served at once, held for a later step of its station, waiting, or nothing to be done. -/
inductive Landing where
  /-- Removed from the Bough, with its effect. -/
  | done (s : State)
  /-- Into the station's inbox. -/
  | hold
  /-- Not yet taken. -/
  | wait

/-- A read request that a poisoned packet makes, or a write of poisoned data to a station that keeps no poison, is not
performed. -/
def orPoison (p : Packet) (s : State) (l : Landing) : Landing := if p.poison then .done (respond p stPoison [] s) else l

/-- A request at a grove's management station. -/
def landGrove (p : Packet) (s : State) : Landing :=
  let g := p.dst / 256 - 8
  let o := (p.addr - 0x020000000000) % 0x40000000
  if groveWin g ≤ p.addr ∧ p.addr < groveWin g + 0x1000000 then
    (if accessWaits s (unmirror p.addr) ∧ !(p.src = 6 ∧ p.op = 1 ∧ inMirror p.addr) then .wait
     else orPoison p s (.done (serveRegs p s)))
  else if 0x020000000000 + g * 0x40000000 ≤ p.addr ∧ p.addr < 0x020000000000 + (g + 1) * 0x40000000
      ∧ 0x04000000 ≤ o ∧ onDieMapped s g o ∧ !(0x08000000 ≤ o ∧ o < 0x0A000000) then
    (if s.dbg.stoppedDies.contains (8 + g) ∨ (0x0A000000 ≤ o ∧ frozen s g 7) then .wait
     else if blockShut s p.addr then .done (serveShut p s)
     else orPoison p s (.done (if o < 0x08000000 then serveBram p s else serveTrace p s)))
  else .done (unservable p s)

/-- The stream port holds a station's writes back: its buffer is full (04 R123). -/
def streamFull (s : State) (src : Nat) : Bool :=
  match streamLoad s with
  | some l => l.station = src && decide (16384 ≤ l.buffer.length)
  | none => false

/-- A request at a hub station other than a porter. -/
def landHub (p : Packet) (s : State) : Landing :=
  let booth : Bool := decide (boothWin ≤ p.addr) && decide (p.addr < clkBase)
  let port : Bool := decide (cfgBase + 0x100000 ≤ p.addr) && decide (p.addr < cfgBase + 0x200000)
  if p.dst = 0 then
    (if !mapped s p.addr then .done (serveUnmapped p s)
     else if decide (wdnBase ≤ p.addr) && decide (p.addr < 0x03000B000000) && !booth && !port then orPoison p s (.done (serveRegs p s))
     else .done (unservable p s))
  else if p.dst = 2 then (if booth then orPoison p s (.done (serveRegs p s)) else .done (unservable p s))
  else if p.dst = 3 then
    (if !port then .done (unservable p s)
     else if p.op ≠ 1 ∧ streamFull s p.src then .wait
     else orPoison p s (.done (serveRegs p s)))
  else .done (unservable p s)

/-- A request (RD, WR, WRP) at its destination. -/
def landRequest (p : Packet) (taken : Bool) (s : State) : Landing :=
  let d := p.dst / 256
  let k := p.dst % 256
  match kindOf p.dst with
  | .design => if !taken then .wait else if p.op = 3 then .done s else .hold
  | .tiles =>
    if !(decide (0x020000000000 ≤ p.addr) && decide (p.addr < 0x020200000000) && stationOf s p.addr = p.dst) then .done (unservable p s)
    else if blockShut s p.addr then .done (serveShut p s)
    else if tileMemWaits s p then .wait
    else orPoison p s (.done (serveTileMem p s))
  | .dram => if dramWin p.addr = none ∨ stationOf s p.addr ≠ p.dst then .done (unservable p s) else if p.op = 1 then orPoison p s .hold else .hold
  | .porter => if !ptrRecv s p.dst ∨ p.op = 1 then .done (unservable p s) else .hold
  | .engine => if p.op = 1 then .done (unservable p s) else .hold
  | .other =>
    if d = 0 then landHub p s
    else if isLaneDie d then
      (if laneWin (d - 1) ≤ p.addr ∧ p.addr < laneWin (d - 1) + 0x1000000 then
         (if s.dbg.stoppedDies.contains d ∧ !(p.src = 6 ∧ p.op = 1 ∧ inMirror p.addr) then .wait
          else orPoison p s (.done (serveRegs p s)))
       else .done (unservable p s))
    else if k = 0 then landGrove p s
    else if k = 3 then
      (if decide (0x020000000000 ≤ p.addr) && decide (p.addr < 0x020200000000) && stationOf s p.addr = p.dst then
         (if stationStopped s p.dst then .wait
          else if blockShut s p.addr then .done (serveShut p s)
          else orPoison p s (.done (serveMaint p s)))
       else if (dramWin p.addr).isSome && (p.src / 256 = d || isCacheMsg p) then .hold
       else .done (unservable p s))
    else .done (unservable p s)

/-- A response at its destination; its slots are freed as it is taken (R189). -/
def landResponse (p : Packet) (taken : Bool) (s : State) : Landing :=
  let s1 := freeSlots p.dst (if p.op = 4 then flitsOf p.len else 1) s
  match kindOf p.dst with
  | .design => if taken then .done s1 else if inSink s p.dst then .hold else .wait
  | .tiles => .done (toInbox p s1)
  | .porter => .done (toInbox p s1)
  | .other =>
    if p.dst = 6 then .done (dbgAnswer p s1)
    else if isGroveDie (p.dst / 256) ∧ (p.dst % 256 = 0 ∨ p.dst % 256 = 3 ∨ p.dst % 256 = 4) ∧ p.op = 4 then .done (toInbox p s1)
    else .done s1
  | _ => .done s1

/-- A packet on VC3: CONFIRM and RETRACT go to caches, tiles and designs; withdrawals and their answers to caches and
homes (R181; 07 R226, R231). -/
def landControl (p : Packet) (taken : Bool) (s : State) : Landing :=
  match kindOf p.dst with
  | .design => if taken then .done s else .wait
  | .tiles => .hold
  | .other => if isGroveDie (p.dst / 256) ∧ p.dst % 256 = 3 then .hold else .done (unservable p s)
  | _ => .done (unservable p s)

/-- The end-to-end check of a packet at its destination (R184). -/
def endCheck (p : Packet) (s : State) : State :=
  let d := p.dst / 256
  let s1 := countUncorr d (bghCnt d 0 s)
  let s2 := if isGroveDie d then wr s1 (bghBlk (d - 8) + 8) (word (p.dst + p.src * 2 ^ 16)) else s1
  let s3 := raise 0x0405 2 p.dst [word p.dst, word p.src] s2
  if p.marked then injSeen (p.src / 256) 7 0 s3 else s3

/-- The packet can have reached its destination: every die and link on its path carries it, its hop budget lasts, and no
packet of the same source, destination and channel is ahead of it (R187, R188). -/
def mayArrive (s : State) (i : Nat) (p : Packet) : Bool :=
  populated p.dst && dieAlive s (p.dst / 256) && dieAlive s (p.src / 256) && (1 ≤ p.op && p.op ≤ 9)
    && !(packetPath p).any (outputDown s) && decide ((packetPath p).length ≤ p.hops)
    && !(s.net.take i).any (fun q => sameLane p q && p.tdir = q.tdir)

/-- Packet `i` of the Bough arrives at its destination station; `fault` is an error on the way that its end-to-end check
finds, `taken` that a design station takes it (R184, R190, R576). -/
def execPacketArrival (i : Nat) (fault taken : Bool) (s : State) : Host.Outcome State Fault Refusal :=
  Next (match s.net[i]? with
    | none => s
    | some p =>
      if !mayArrive s i p then s
      else
        let bad := p.chkBad || fault
        let q := if bad then { p with poison := true, chkBad := false } else p
        let s1 := dropNet i (if bad then endCheck p s else s)
        match (if p.op ≤ 3 then landRequest q taken s1 else if p.op ≤ 5 then landResponse q taken s1 else landControl q taken s1) with
        | .done t => t
        | .hold => toInbox q s1
        | .wait => s)

end Sys2Proof.Machine
end

