-- ==== Sys2Proof/Machine/Sys.lean ====
section
/-!
DEFINITION. Meanings of the SYS and SET command groups, firmware slots and the hand-over (02 R65-R77), except
SET_CONFIRM, whose effects reach other units.
-/
namespace Sys2Proof.Machine

/-! ### Firmware slots (02 R65-R69) -/

def slotAt (s : State) (n : Nat) : Slot := if n = 0 then s.ward.slotA else s.ward.slotB
def setSlot (n : Nat) (x : Slot) (s : State) : State :=
  { s with ward := if n = 0 then { s.ward with slotA := x } else { s.ward with slotB := x } }
def setSlotState (n st : Nat) (s : State) : State := setSlot n { slotAt s n with state := st } s
/-- The slot in state BOOT (3), slot A if neither is. -/
def bootSlot (s : State) : Nat := if s.ward.slotA.state ≠ 3 ∧ s.ward.slotB.state = 3 then 1 else 0
/-- The slot in state TRIAL, if any. -/
def trialSlot (s : State) : Option Nat :=
  if s.ward.slotA.state = 2 then some 0 else if s.ward.slotB.state = 2 then some 1 else none
def standbyOk (s : State) : Bool := rdB s wardStatus 1

/-- An image is valid: its signature verifies, its length and its anti-rollback level pass (02 R66). -/
def slotValid (s : State) (x : Slot) : Bool := x.sigOk && decide (x.length ≤ 3145728) && decide (setVal s 0 ≤ x.level)

/-- SYS_INFO (02 R70). -/
def execSysInfo (b : Nat) (s : State) : Host.Outcome State Fault Refusal :=
  Next (serve 0x0101 allServed (fun _ s =>
    let w := s.ward
    .ok [ word (sysState s + rdF s wardStatus 0 0 * 2 ^ 8 + rdF s wardStatus 1 1 * 2 ^ 9), word w.runVersion,
          word w.slotA.state, word w.slotA.version, word w.slotB.state, word w.slotB.version,
          word (w.slotA.level % 256 + w.slotB.level % 256 * 2 ^ 8 + setVal s 0 % 256 * 2 ^ 16), word (nodeId s),
          word w.takeovers ] s) b s)

/-- SYS_EVENT_CONFIG (02 R64, R70): minimum severity 0-3, time base 0-7, mask bits 12:1. -/
def execSysEventConfig (b : Nat) (s : State) : Host.Outcome State Fault Refusal :=
  Next (serve 0x0102 [0x11, 0x12, 0x14] (fun r s =>
    if 8 ≤ r.w 0 then badArg 0
    else if r.w 4 ≠ nfld (r.w 4) 12 1 * 2 then badArg 4
    else if 4 ≤ r.w 8 then badArg 8
    else .ok [] { s with ward := { s.ward with evtTb := r.w 0, evtMask := r.w 4, evtMin := r.w 8 } }) b s)

/-- SYS_FW_STAGE (02 R65, R67, R70): the slot is erased and the image read; FW_STAGE_CHECKED answers. -/
def execSysFwStage (b : Nat) (s : State) : Host.Outcome State Fault Refusal :=
  Next (serve 0x0103 [0x11, 0x15] (fun r s =>
    let n := r.f 0 0 0
    if busyWith s [0x0103, 0x0104, 0x0106] then .no stBusy 0
    else if (slotAt s n).state = 3 ∨ (slotAt s n).state = 2 then refused 0x0002
    else
      let s1 := setSlot n {} { s with ward := { s.ward with stageBack := sysState s, stageSlot := some n } }
      .run (setSysState s1 0x12)) b s)

/-- The staged slot has been written and checked (02 R66): STAGED, or INVALID with BAD_IMAGE, ROLLBACK or POISON. -/
def execFwStageChecked (img : FwImage) (s : State) : Host.Outcome State Fault Refusal :=
  Next (match s.ward.stageSlot with
    | none => s
    | some n =>
      let sig := !keyKnown s || (Config.ecdsaOk img.epoch img.digest img.sig && img.epoch = setVal s 1)
      let x : Slot :=
        { state := 4, version := img.version, level := img.level, format := img.format, length := img.length,
          sigOk := sig }
      let back := s.ward.stageBack
      let s1 := setSysState { s with ward := { s.ward with stageSlot := none } } back
      if img.poisoned then finish 0x0103 stPoison back 0 [] (setSlot n { state := 4 } s1)
      else if !sig ∨ 3145728 < img.length then finish 0x0103 stRefused back 0x0003 [] (setSlot n x s1)
      else if img.level < setVal s 0 then finish 0x0103 stRefused back 0x0004 [] (setSlot n x s1)
      else finish 0x0103 stOk back 0 [1] (setSlot n { x with state := 1 } s1))

/-- SYS_FW_SWITCH (02 R68, R69): the hand-over begins; HANDOVER_COMPLETE answers. -/
def execSysFwSwitch (b : Nat) (s : State) : Host.Outcome State Fault Refusal :=
  Next (serve 0x0104 [0x11] (fun r s =>
    let n := r.f 0 0 0
    if !standbyOk s then .no stNotReady 0x0001
    else if (slotAt s n).state ≠ 1 then refused 0x0006
    else if !Config.acceptsFormat (slotAt s n).format s.ward.runFormat then refused 0x0005
    else .run (setSysState { s with ward := { s.ward with handSlot := some n, handRevert := false } } 0x13)) b s)

/-- SYS_FW_REVERT (02 R65, R70): hand-over back to the BOOT slot's firmware. -/
def execSysFwRevert (b : Nat) (s : State) : Host.Outcome State Fault Refusal :=
  Next (serve 0x0106 [0x14] (fun _ s =>
    if !standbyOk s then .no stNotReady 0x0001
    else .run (setSysState { s with ward := { s.ward with handSlot := some (bootSlot s), handRevert := true } } 0x13))
    b s)

/-- The hand-over of R68 ends: the standby pair is active with the new firmware and the former active pair becomes
the standby; or it failed without effect. Events raised in the pause are placed afterwards. -/
def execHandoverComplete (ok : Bool) (s : State) : Host.Outcome State Fault Refusal :=
  Next (match s.ward.handSlot with
    | none => s
    | some n =>
      let rev := s.ward.handRevert
      let op := if rev then 0x0106 else 0x0104
      let s0 := { s with ward := { s.ward with handSlot := none, handRevert := false } }
      if !ok then
        let st := if rev then 0x14 else 0x11
        placeHeld (finish op stFailed st 0 [] (setSysState s0 st))
      else
        let p := activePair s
        let old := s.ward.runVersion
        let x := slotAt s n
        let s1 := setPair (1 - p) .active (setPair p .standby (wrF s0 wardStatus 0 0 (1 - p)))
        let s2 := { s1 with ward := { s1.ward with runVersion := x.version, runFormat := x.format } }
        let booth := match running s op with | some t => t.booth | none => 0xFF
        let s3 := if rev then
            let s' := match trialSlot s2 with | some t => setSlotState t 1 s2 | none => s2
            audit 3 0xFF booth 0 old x.version 0 (setSysState s' 0x11)
          else setSysState (setSlotState n 2 s2) 0x14
        raise 0x0105 0 0 [word old, word x.version]
          (placeHeld (finish op stOk (if rev then 0x11 else 0x14) 0 [] s3)))

/-- SYS_FW_COMMIT (02 R65, R70). -/
def execSysFwCommit (b : Nat) (s : State) : Host.Outcome State Fault Refusal :=
  Next (serve 0x0105 [0x11, 0x14, 0x15] (fun r s =>
    let n := r.f 0 0 0
    let need := if sysState s = 0x14 then 2 else 1
    if (slotAt s n).state ≠ need then refused 0x0006
    else
      let o := 1 - n
      let old := (slotAt s (bootSlot s)).version
      let s1 := setSlotState n 3 (if (slotAt s o).state = 3 then setSlotState o 1 s else s)
      let s2 := if sysState s = 0x14 then setSysState s1 0x11 else s1
      .ok [] (audit 2 0xFF r.booth 0 old (slotAt s n).version 0 s2)) b s)

/-- SYS_FAILOVER (02 R69, R70): a takeover as under R41, without a mismatch. -/
def execSysFailover (b : Nat) (s : State) : Host.Outcome State Fault Refusal :=
  Next (serve 0x0107 runTrial (fun _ s =>
    if !standbyOk s then .no stNotReady 0x0001 else .ok [] (fencePair (activePair s) 2 s)) b s)

/-- SYS_RESET (02 R70): OK is answered and a package reset follows 1 ms later. -/
def execSysReset (b : Nat) (s : State) : Host.Outcome State Fault Refusal :=
  Next (serve 0x0108 allServed (fun r s =>
    if r.w 0 ≠ 0xB007C0DE then badArg 0 else .ok [] { s with ward := { s.ward with resetDue := true } }) b s)

/-- The package reset of a completed SYS_RESET (02 R70). -/
def execSysResetExpiry (s : State) : Host.Outcome State Fault Refusal :=
  Next (if s.ward.resetDue ∧ !s.ward.taken.any (fun t => t.op = 0x0108) then packageReset 2 s else s)

/-- SYS_BOOTH_RESET (02 R46, R70). -/
def execSysBoothReset (b : Nat) (s : State) : Host.Outcome State Fault Refusal :=
  Next (serve 0x0109 allServed (fun r s =>
    let k := r.w 0
    if 62 ≤ k ∨ k = r.booth then badArg 0
    else
      let found := boothState s k
      let s1 := if found = 1 then
          setBoothState { s with ward := { s.ward with posted := s.ward.posted.filter (· ≠ k) } } k 0
        else if found = 2 then wrB s (boothSlot k) 7 true
        else if found = 3 then dropResponse k s
        else s
      .ok [word found] s1) b s)

/-- The boot code runs the BOOT slot, falls back to the other slot when it is STAGED and valid, or enters SAFE; a
TRIAL slot becomes STAGED (02 R65-R67). -/
def execBootSlotStart (s : State) : Host.Outcome State Fault Refusal :=
  Next (if sysState s ≠ 0x10 ∨ s.pkg.held ∨ rdF s cfgBase 23 16 ≠ 5 then s
    else
      let s0 := match trialSlot s with | some t => setSlotState t 1 s | none => s
      let n := bootSlot s0
      let o := 1 - n
      let go (k : Nat) (x : State) : State :=
        let w := { x.ward with runVersion := (slotAt x k).version, runFormat := (slotAt x k).format }
        let y := setSysState { wrF x cfgBase 23 16 6 with ward := w } 0x11
        wrB y wardStatus 1 (decide (pairRole y (1 - activePair y) = .standby))
      if (slotAt s0 n).state = 3 ∧ slotValid s0 (slotAt s0 n) then go n s0
      else if (slotAt s0 o).state = 1 ∧ slotValid s0 (slotAt s0 o) then
        raise 0x0106 3 0 [word o] (go o (setSlotState o 3 (setSlotState n 4 s0)))
      else setSysState s0 0x15)

/-! ### Counted settings (02 R72-R77) -/

/-- Changes allowed of each counted setting (R72). -/
def setAllowed (i : Nat) : Nat := [64, 15, 7, 4, 4, 4, 4, 1, 3].getD i 0

/-- The value rule of a counted setting (R72). -/
def setRule (s : State) (i v : Nat) : Bool :=
  let cur := setVal s i
  match i with
  | 0 => v = cur + 1 && decide (v ≤ (slotAt s (bootSlot s)).level)
  | 1 => v = cur + 1
  | 2 => decide (v ≤ 0x3FFFE) && v ≠ cur
  | 7 => v = 1 && cur = 0
  | 8 => decide (v ≤ 1) && v ≠ cur
  | _ => decide (v < 65536)

/-- The first node-ID assignment burns a step of its own (R72). -/
def ownStep (s : State) (i : Nat) : Bool := i = 2 && setVal s 2 = 0x3FFFF && !s.ward.nodeFirst

/-- SET_QUERY (R77). -/
def execSetQuery (b : Nat) (s : State) : Host.Outcome State Fault Refusal :=
  Next (serve 0x0901 [0x20, 0x21] (fun _ s =>
    .ok ((upto 9).flatMap (fun i =>
      [word (i + setAllowed i * 2 ^ 8 + setUsed s i * 2 ^ 16), word (setVal s i)])) s) b s)

/-- SET_PREPARE (R72, R73, R77). The token is a free value other than 0. -/
def execSetPrepare (b : Nat) (s : State) : Host.Outcome State Fault Refusal :=
  Next (serve 0x0902 [0x20] (fun r s =>
    let i := r.w 0
    let v := r.w 4
    if 9 ≤ i then badArg 0
    else if !setRule s i v then refused 0x0102
    else if !ownStep s i ∧ setAllowed i ≤ setUsed s i then .no stExhausted 0
    else
      let token := Config.freeNat s.fresh % 65535 + 1
      let left := setAllowed i - setUsed s i - (if ownStep s i then 0 else 1)
      let p : Preparation := { booth := r.booth, index := i, value := v, token := token }
      .ok [word (token + left * 2 ^ 16), 10000] (tick1 { s with ward := { s.ward with prep := some p } })) b s)

/-- SET_CANCEL (R77). -/
def execSetCancel (b : Nat) (s : State) : Host.Outcome State Fault Refusal :=
  Next (serve 0x0904 [0x21] (fun r s =>
    match s.ward.prep with
    | none => refused 0x0101
    | some p =>
      if p.booth ≠ r.booth ∧ classOf r.booth ≠ .admin then refused 0x0101
      else .ok [] { s with ward := { s.ward with prep := none } }) b s)

/-- SET_AUDIT_INFO (R77). -/
def execSetAuditInfo (b : Nat) (s : State) : Host.Outcome State Fault Refusal :=
  Next (serve 0x0905 [0x20, 0x21] (fun _ s =>
    .ok [word s.ward.audit.length, word s.ward.auditNext, word s.ward.auditWraps] s) b s)

/-- SET_AUDIT_READ (R77): held records from a first INDEX onward, at most `count`. -/
def execSetAuditRead (b : Nat) (s : State) : Host.Outcome State Fault Refusal :=
  Next (serve 0x0906 [0x20, 0x21] (fun r s =>
    if r.w 4 = 0 ∨ 511 < r.w 4 then badArg 4
    else .ok (((s.ward.audit.filter (fun x => decide (r.w 0 ≤ x.index))).take (r.w 4)).flatMap (·.full)) s) b s)

/-- A preparation lapses 10 s after SET_PREPARE completed (R73). -/
def execSetPrepareExpired (s : State) : Host.Outcome State Fault Refusal :=
  Next (match s.ward.prep with
    | none => s
    | some p => raise 0x0902 0 0 [word p.index] { s with ward := { s.ward with prep := none } })

end Sys2Proof.Machine
end

