-- ==== Sys2Proof/Machine/Boot.lean ====
section
/-!
DEFINITION. The release of the package reset with boot steps 1 to 3, and SET_CONFIRM, whose effects reach other units
(01 R18-R24, R38; 02 R72-R77; 03 R87; 04 R98-R103; 18 R534).
-/
namespace Sys2Proof.Machine

/-- Straps as sampled, with STRAP_BAD (01 R22, R24). -/
def strapWord (straps : Nat) : Word :=
  word (straps % 2 ^ 16 + b2n (nfld straps 8 7 = 3 || nfld straps 10 9 = 3) * 2 ^ 16)

/-- At boot every burnt step without a record gets one, with RESULT 2 (02 R74, R76). -/
def ledgerRecovery (s : State) : State :=
  s.ward.unrecorded.foldl (fun t i => audit 1 i 0xFF 2 (setVal t i) (setVal t i) (setUsed t i) t)
    { s with ward := { s.ward with unrecorded := [] } }

/-- A copy of the boot header tried: accepted, or a signature failure counted (04 R103). -/
def tryHeader (h : List Word) (s : State) : Bool × State :=
  match hdrCheck s h with
  | none => (true, adoptHeader h s)
  | some (_, d) => (false, authFail d s)

/-- Boot step 3: primary copy, then backup; skipped in host boot (04 R98, R101, R103). -/
def readHeaders (primary backup : List Word) (s : State) : State :=
  if bootSrc s = 2 then wrB s cfgBase 3 true
  else
    let a := tryHeader primary s
    if a.1 then a.2
    else
      let b := tryHeader backup a.2
      if b.1 then wrB b.2 cfgBase 1 true
      else raise 0x0306 2 0 [3] (wrB b.2 cfgBase 3 true)

/-- Boot steps 1 to 3: hub logic released, straps and VSVC sampled, SRL locked to FOSC, the ledger recovered, the boot
header read. `straps` and `vsvc33` are what the board drives, `primary` and `backup` the 161 words in the flash. -/
def execPackageResetRelease (straps : Nat) (vsvc33 : Bool) (primary backup : List Word) (s : State) :
    Host.Outcome State Fault Refusal :=
  Next (if !s.pkg.held then s
    else
      let s1 := { s with pkg := { s.pkg with held := false, endpointUp := s.pkg.perst }, pins := { s.pins with pads33 := vsvc33 } }
      let s2 := wr (wr s1 (clkBase + 0x100) (word (s.pkg.causes % 16))) (wdnBase + 0x10) (strapWord straps)
      let s3 := wrB (wrB s2 (wdnBase + 0x14) 1 vsvc33) (wdnBase + 0x14) 2 (setVal s2 8 = 1)
      let s4 := wrB (wrB (wrB s3 clkReady 0 true) clkReady 1 true) clkReady 4 true
      let dis := setVal s4 7 = 1
      let s5 := if dis then wrB (wrF s4 dbgBase 23 16 0xD4) dbgBase 31 true else s4
      let s6 := wrB (wrB s5 dbgBase 30 (!keyKnown s5)) cfgBase 4 (!keyKnown s5)
      setBootStep 4 (readHeaders primary backup (ledgerRecovery s6)))

/-! ### SET_CONFIRM (02 R72-R77) -/

/-- A setting changed: its value, and at index 7 the debug authority DISABLED (18 R534, R535). -/
def changeSetting (i v : Nat) (s : State) : State :=
  let s1 := { s with ward := { s.ward with setVal := s.ward.setVal.set i v } }
  if i = 7 then wrB (dropAuthority 0xD4 s1) dbgBase 31 true
  else if i = 1 then wrB (wrB s1 dbgBase 30 (!keyKnown s1)) cfgBase 4 (!keyKnown s1)
  else s1

/-- One step of a setting burnt; the first node-ID assignment burns a step of its own. -/
def burnStep (i : Nat) (s : State) : State :=
  { s with ward := if ownStep s i then { s.ward with nodeFirst := true }
                   else { s.ward with setUsed := s.ward.setUsed.set i (setUsed s i + 1) } }

/-- SET_CONFIRM; `verified`, the burn verifies. -/
def execSetConfirm (b : Nat) (verified : Bool) (s : State) : Host.Outcome State Fault Refusal :=
  Next (serve 0x0903 [0x21] (fun r s =>
    let s0 := { s with ward := { s.ward with prep := none } }
    match s.ward.prep with
    | none => refused 0x0101
    | some p =>
      let i := p.index
      let old := setVal s i
      let n := s.ward.auditNext % 2 ^ 32
      if r.booth ≠ p.booth ∨ r.w 0 ≠ i ∨ r.w 4 ≠ p.value ∨ r.w 8 ≠ p.token then .fail stRefused 0x0101 [] s0
      else if !ownStep s i ∧ setAllowed i ≤ setUsed s i then .fail stExhausted 0 [] s0
      else
        let s1 := burnStep i s0
        if !verified then .fail stFailed 0x0103 [] (audit 1 i r.booth 1 old p.value (setUsed s1 i) s1)
        else
          let s2 := audit 1 i r.booth 0 old p.value (setUsed s1 i) (changeSetting i p.value s1)
          .ok [word n] (raise 0x0901 1 0 [word i, word old, word p.value, word n] s2)) b s)

end Sys2Proof.Machine
end

