-- ==== Sys2Proof/Machine/Link.lean ====
section
/-!
DEFINITION. Meanings of the die-link events: training rounds, replays, repairs, parity (07 R208-R219).
-/
namespace Sys2Proof.Machine

/-- A training round of a unit in TRAIN ends on both ends together. -/
def execLinkTrainRoundEnd (die unit : Nat) (round : TrainRound) (s : State) : Host.Outcome State Fault Refusal :=
  Next (if (linkPeer die unit).isNone ∨ unitState s die unit ≠ 0x61 then s else roundEnd die unit round s)

/-- A phase not ended within 150 µs of the round's start fails the round. -/
def execLinkRoundTimeout (die unit : Nat) (s : State) : Host.Outcome State Fault Refusal :=
  Next (if (linkPeer die unit).isNone ∨ unitState s die unit ≠ 0x61 then s
    else nextRound die unit (linkAt s die unit).cap s)

/-- The injection point of a sender's unit: grove 0x08, lane die 0x04. -/
def wirePoint (d : Nat) : Nat := if isLaneDie d then 4 else 8

/-- A retrain begun in service (R213, R214). -/
def retrain (d u : Nat) (afterReplay : Bool) (s : State) : State :=
  bothEnds d u (fun a t => cnt t (a + 0x10)) (startTrain d u afterReplay s)

/-- A receiver on a trunk port or bundle finds a CRC error or a gap and asks for a replay; `same`, the transfer that
failed before fails again. The eighth failure in succession retrains the unit (R213). -/
def execTransferCrcError (die unit : Nat) (same : Bool) (s : State) : Host.Outcome State Fault Refusal :=
  Next (if (linkPeer die unit).isNone ∨ isCrossing die unit ∨ !unitRuns s die unit then s
    else
      let p := (linkPeer die unit).getD (0, 0)
      let r := if p.1 ≠ 0 ∧ injTarget s p.1 (wirePoint p.1) % 16 = p.2 then inject p.1 (wirePoint p.1) s else (false, s)
      let s0 := if r.1 then injSeen p.1 (wirePoint p.1) 0 r.2 else r.2
      let s1 := if die = 0 then s0 else cnt (cnt s0 (lnkBlk die unit + 8)) (lnkBlk die unit + 0xC)
      let x := linkAt s1 die unit
      let n := if same then sget 0 x.fails (die * 16 + unit) + 1 else 1
      if 8 ≤ n then retrain die unit true s1
      else setLink die unit { x with fails := sset 0 x.fails (die * 16 + unit) n } s1)

/-- One differing wire charged an error; at 16 within 1 s it is mapped to a free spare, or the unit retrains (R214). -/
def chargeWire (die unit : Nat) (s : State) (wire : Nat) : State :=
  let x := linkAt s die unit
  let key := (die * 16 + unit) * 2048 + wire % 2048
  let recent := (x.charges.filter (fun c => decide (s.tu.tick < c.2 + 500000000))) ++ [(key, s.tu.tick)]
  if !unitRuns s die unit then s
  else if (recent.filter (fun c => c.1 = key)).length < 16 then setLink die unit { x with charges := recent } s
  else
    let s1 := setLink die unit { x with charges := recent.filter (fun c => c.1 ≠ key) } s
    let e := eventEnd die unit
    let used := if die = 0 then x.hubSpares else rdF s1 (lnkBlk die unit + 4) 9 0
    if 64 ≤ used then retrain die unit false s1
    else
      let s2 := if die = 0 then setLink die unit { linkAt s1 die unit with hubSpares := used + 1 } s1
        else wr (cnt (wrF s1 (lnkBlk die unit + 4) 9 0 (used + 1)) (lnkBlk die unit + 0x14))
          (lnkBlk die unit + 0x1C) (word (wire % 2048))
      if used + 1 = 64 then raise 0x0885 1 (256 * e.1) [word (e.1 + e.2 * 2 ^ 8), word (wire % 2048)] s2 else s2

/-- A replayed transfer arrives intact; `wires` differ from the failed copy (R214). -/
def execReplayArrival (die unit : Nat) (wires : List Nat) (s : State) : Host.Outcome State Fault Refusal :=
  Next (if (linkPeer die unit).isNone ∨ isCrossing die unit ∨ !unitRuns s die unit then s
    else
      let x := linkAt s die unit
      wires.eraseDups.foldl (chargeWire die unit) (setLink die unit { x with fails := sset 0 x.fails (die * 16 + unit) 0 } s))

/-- A parity mismatch on a crossing counts and corrects nothing (R219). -/
def execCrossingParityError (die unit : Nat) (s : State) : Host.Outcome State Fault Refusal :=
  Next (if !isCrossing die unit ∨ (linkPeer die unit).isNone ∨ !unitRuns s die unit then s
    else
      let r := if injTarget s die 9 % 16 = unit then inject die 9 s else (false, s)
      let s1 := cnt r.2 (lnkBlk die unit + 8)
      if r.1 then injSeen die 9 0 s1 else s1)

end Sys2Proof.Machine
end

