-- ==== Sys2Proof/Machine/Tal.lean ====
section
/-!
DEFINITION. Meanings of the Tally's events and of the NRG commands (16 R491-R515).
-/
namespace Sys2Proof.Machine

/-! ### Measuring (R491-R493, R509, R511) -/

/-- Die that a rail instance belongs to. -/
def railDie (r : Nat) : Nat :=
  if r < 4 then 0 else if r < 20 then 8 + (r - 4) % 8 else if r < 32 then 1 + (r - 20) % 4 else 8 + (r - 32) % 8

/-- The reading register of a rail in its die's sensor block; the hub's rails have none. -/
def railReg (r : Nat) : Option Nat :=
  let i := if r < 12 then 0 else if r < 20 then 1 else if r < 32 then (r - 20) / 4 else if r < 40 then 2 else 3
  if r < 4 then none else some (dieWin (railDie r) + 0x110000 + 4 * i)

/-- Die and sensor register of an on-die sensor. -/
def sensorPlace (t : Nat) : Nat × Option Nat :=
  if t < 2 then (0, none)
  else if t < 10 then (1 + (t - 2) / 2, some (laneWin ((t - 2) / 2) + 0x110010 + 4 * ((t - 2) % 2)))
  else (8 + (t - 10) / 4, some (groveWin ((t - 10) / 4) + 0x110010 + 4 * ((t - 10) % 4)))

/-- The regulator entry mapped to a rail. -/
def regOfRail (s : State) (r : Nat) : Option RegEntry :=
  ((upto 32).map (fun i => sget {} s.tal.regs i)).find? (fun e => e.valid && e.rail = r)

/-- Power of a rail in this sample, in microwatts, with the SRC code, mV and mA of its reading (none: unchanged). -/
def railPower (s : State) (r : Nat) (mv ma : List Nat) : Nat × Option (Nat × Nat × Nat) :=
  if outOfReach s (railDie r) then (sget 0 s.tal.power r, none)
  else if r < 32 then (mv.getD r 0 * ma.getD r 0, some (0, mv.getD r 0, ma.getD r 0))
  else match regOfRail s r with
    | some e =>
      (match e.power with
       | some p => (p, some (1, e.vout, e.iout))
       | none => (sget 0 s.tal.fixed r * 1000, some (2, e.vout, e.iout)))
    | none => (sget 0 s.tal.fixed r * 1000, some (2, 0, 0))

/-- Energy added to counter `i`: ten microseconds of `uw` microwatts, the remainder carried (R492). -/
def addEnergy (i uw : Nat) (s : State) : State :=
  let pj := sget 0 s.tal.frac i + 10 * uw
  setEnergy i (energy s i + pj / 1000000) { s with tal := { s.tal with frac := sset 0 s.tal.frac i (pj % 1000000) } }

/-- One rail sampled: its energy, the package's, and its reading register. -/
def sampleRail (mv ma : List Nat) (s : State) (r : Nat) : State :=
  let p := railPower s r mv ma
  let s1 := addEnergy 57 p.1 (addEnergy r p.1 { s with tal := { s.tal with power := sset 0 s.tal.power r p.1 } })
  match railReg r, p.2 with
  | some a, some (src, v, i) => wr s1 a (word (nfld v 11 0 * 2 ^ 20 + src * 2 ^ 18 + nfld i 17 0))
  | some a, none => wrF s1 a 19 18 2
  | _, _ => s1

/-- One on-die sensor read; VALID = 0 while its die is out of reach (R509). -/
def sampleTemp (temps : List (Option Int)) (s : State) (t : Nat) : State :=
  let p := sensorPlace t
  let v := if outOfReach s p.1 then none else (temps.getD t none)
  let s1 := wr s (tempReg t) (tempWord v)
  match p.2 with
  | some a => if outOfReach s p.1 then s1 else wr s1 a (tempWord v)
  | none => s1

/-- The Warden sets REF_2X of a channel whose module is above 85 °C and clears it below 80 °C (12 R371). -/
def refRate (temps : List (Option Int)) (s : State) (n : Nat) : State :=
  match temps.getD (42 + n) none with
  | none => s
  | some t =>
    if rdF s (memBlk n) 7 0 = 0x90 then s
    else if 85 * 8 < t then wrB s (memBlk n + 4) 29 true
    else if t < 80 * 8 then wrB s (memBlk n + 4) 29 false
    else s

/-- SENSOR_SAMPLE: voltages in mV and currents in mA of rails 0-31; temperatures in 1/8 degree of the on-die sensors
0-41 and, from position 42 on, of the module sensors 58-73. -/
def execSensorSample (mv ma : List Nat) (temps : List (Option Int)) (s : State) : Host.Outcome State Fault Refusal :=
  Next (if s.pkg.held then s
    else
      let e0 := energy s 57
      let s1 := (upto 48).foldl (sampleRail mv ma) s
      let s2 := (upto 42).foldl (sampleTemp temps) s1
      let s3 := (upto 16).foldl (fun t n => wr t (tempReg (58 + n)) (tempWord (temps.getD (42 + n) none))) s2
      let s3 := (upto 16).foldl (refRate temps) s3
      let s4 := { s3 with tal := { s3.tal with eUsed := s3.tal.eUsed + (energy s3 57 - e0), tEl := s3.tal.tEl + 10 } }
      showTally (thermal s4))

/-! ### Epochs (R494-R497, R502, R504) -/

/-- Length in ns of the epoch ending: by the plan's time base, else the plan's EPOCH_US. -/
def epochNs (s : State) : Nat :=
  let c := (tbAt s s.tal.plan.tb).core
  let n := (c.now40 + 2 ^ 40 - (s.tal.epochStart.1 + s.tal.epochStart.2.1 * 2 ^ 32)) % 2 ^ 40
  if c.run ∧ s.tal.epochStart.2.2.2 ∧ n ≠ 0 then n else s.tal.plan.epochUs * 1000

/-- Energy of counter `i` over the epoch ending. -/
def epochUj (s : State) (i : Nat) : Nat := energy s i - sget 0 s.tal.epochBase i

/-- DSP_CLS_CYC of a grove's class. -/
def clsCyc (s : State) (g c : Nat) : Nat :=
  (rd s (dspBlk g + 0x80 + 8 * c)).toNat + (rd s (dspBlk g + 0x84 + 8 * c)).toNat * 2 ^ 32

/-- Weight of a lane in RUN by its mode (R495). -/
def laneWeight (s : State) (n : Nat) : Nat :=
  if lanState s n = 0xB1 then [0, 1, 1, 2, 3, 6].getD (lanMode s n) 0 else 0
def engineWeight (s : State) (p : Nat) : Nat := (upto 8).foldl (fun w k => w + laneWeight s (8 * p + k)) 0

/-- Energy of the epoch that the rules charge to class `c` (R495). -/
def classUj (s : State) (len c : Nat) : Nat :=
  let groves := (upto 8).foldl (fun n g =>
    let inc := clsCyc s g c - sget 0 s.tal.cycBase (8 * g + c)
    let all := max (512 * len) ((upto 8).foldl (fun m k => m + (clsCyc s g k - sget 0 s.tal.cycBase (8 * g + k))) 0)
    n + epochUj s (12 + g) * inc / all
      + (if sget 8 s.tal.fabClass g = c then epochUj s (4 + g) + epochUj s (40 + g) else 0)
      + (if sget 8 s.tal.memClass g = c then epochUj s (32 + g) else 0)) 0
  (upto 4).foldl (fun n l =>
    let w := (upto 16).foldl (fun m j => m + engineWeight s (16 * l + j)) 0
    let mine := (upto 16).foldl (fun m j =>
      if sget 8 s.tal.peClass (16 * l + j) = c then m + engineWeight s (16 * l + j) else m) 0
    n + (epochUj s (20 + l) + epochUj s (24 + l) + epochUj s (28 + l)) * mine / max 1 w) groves

/-- Rungs taken again under a new plan's targets (R504). -/
def changePlan (s : State) : State :=
  match s.tal.pending with
  | none => s
  | some p =>
    let n := rungOf s
    let s1 := times n undoRung s
    times n takeRung { s1 with tal := { s1.tal with plan := p, pending := none } }

/-- Start enables held cleared by the allowances for the next epoch (R496). -/
def allowHeld (s : State) (len : Nat) (uj : Nat → Nat) : Nat :=
  (upto 8).foldl (fun m c =>
    let a := s.tal.allow.getD c 0
    if 1 ≤ c ∧ a ≠ 0 ∧ a * len < uj c * 1000000 then m + 2 ^ c else m) 0

/-- The ladder moved by the epoch's average power `p` in mW (R502, R505). -/
def moveLadder (p : Nat) (s : State) : State :=
  let t := s.tal
  let lim := limitMw s
  let above := decide (lim * (100 - t.plan.margin) < p * 100)
  let under := decide (p * 100 < lim * (100 - t.plan.margin - t.plan.hyst))
  let s1 := if above ∧ rungOf s = 6 then
      (if t.exhausted then s else raise 0x0604 2 5 [word p, word lim] { s with tal := { t with exhausted := true } })
    else if !above then { s with tal := { t with exhausted := false } } else s
  if above ∨ 2 ≤ t.level then takeRung { s1 with tal := { s1.tal with undoCount := 0 } }
  else if under ∧ !t.threat then
    if t.plan.hold ≤ t.undoCount + 1 then undoRung { s1 with tal := { s1.tal with undoCount := 0 } }
    else { s1 with tal := { s1.tal with undoCount := t.undoCount + 1 } }
  else { s1 with tal := { s1.tal with undoCount := 0 } }

/-- NRG_E0_OVER after 100 consecutive epochs of E0 energy more than 10 percent over its reservation (R499). -/
def e0Check (len uj : Nat) (s : State) : State :=
  let t := s.tal
  if uj * 10000000 ≤ reservedMw s * len * 11 then { s with tal := { t with e0Over := 0, e0Raised := false } }
  else
    let n := t.e0Over + 1
    let s1 := { s with tal := { t with e0Over := min 100 n } }
    if 100 ≤ n ∧ !t.e0Raised then
      raise 0x060A 1 5 [word (uj * 1000000 / len), word (reservedMw s)] { s1 with tal := { s1.tal with e0Raised := true } }
    else s1

/-- The record of the epoch (R497). -/
def epochRecord (s : State) (pkg ovh : Nat) (uj : Nat → Nat) : List Word :=
  let e := s.tal.epochStart
  let h := hottest s (upto 74)
  [word e.1, word (e.2.1 + e.2.2.1 * 2 ^ 8 + b2n e.2.2.2 * 2 ^ 11 + rungOf s * 2 ^ 12 + b2n s.tal.threat * 2 ^ 16
      + b2n (s.tal.level = 3) * 2 ^ 17 + s.tal.supply * 2 ^ 18), word pkg, word ovh]
  ++ (upto 8).map (fun c => word (uj c))
  ++ [word (match h with
      | some (i, t) => uint 16 t + i * 2 ^ 16
      | none => 0), word (limitMw s), word (floorMw s), 0]

/-- The record written into the ring when it is enabled. -/
def ringEpoch (r : List Word) (s : State) : State :=
  let hi := rd s (talBase + 0x18)
  if !bit hi 31 then s
  else
    let prod := (rd s (talBase + 0x1C)).toNat
    postWrite 5 ((rd s (talBase + 0x14)).toNat + fld hi 15 0 * 2 ^ 32 + 64 * (prod % 2 ^ fld hi 20 16)) (wordsToBytes r)
      (wr s (talBase + 0x1C) (word (prod + 1)))

/-- The bases of the next epoch. -/
def startEpoch (s : State) : State :=
  let t := stamp s s.tal.plan.tb
  { s with tal := { s.tal with
      epochBase := (upto 58).foldl (fun m i => sset 0 m i (energy s i)) s.tal.epochBase,
      cycBase := (upto 64).foldl (fun m i => sset 0 m i (clsCyc s (i / 8) (i % 8))) s.tal.cycBase,
      epochStart := (t.1, t.2.1, s.tal.plan.tb, t.2.2) } }

/-- EPOCH_BOUNDARY; `rpms` are the fans' tachometer readings. -/
def execEpochBoundary (rpms : List Nat) (s : State) : Host.Outcome State Fault Refusal :=
  Next (if s.pkg.held then s
    else
      let len := epochNs s
      let pkg := epochUj s 57
      let u := (upto 8).map (classUj s len)
      let uj (c : Nat) : Nat := u.getD c 0
      let ovh := pkg - u.foldl (· + ·) 0
      let p := pkg * 1000000 / len
      let s1 := (upto 8).foldl (fun t c => setEnergy (48 + c) (energy t (48 + c) + uj c) t)
        (setEnergy 56 (energy s 56 + ovh) { s with tal := { s.tal with lastP := p } })
      let s2 := changePlan s1
      let s3 := writeEnables { s2 with tal := { s2.tal with heldAllow := allowHeld s2 len uj } }
      let s4 := floorCheck (e0Check len (uj 0) (moveLadder p s3))
      let s5 := setFans { s4 with tal := { s4.tal with
        fans := (upto 8).foldl (fun m f => smod {} m f (fun x => { x with rpm := rpms.getD f x.rpm })) s4.tal.fans } }
      let r := epochRecord s5 pkg ovh uj
      let s6 := ringEpoch r { s5 with tal := { s5.tal with lastRecord := r } }
      startEpoch (wr s6 (talBase + 0x10) (rd s6 (talBase + 0x10) + 1)))

/-! ### Regulators, fans, supply (R500, R506, R508) -/

/-- One poll of a regulator entry: mV, mA, 1/8 degree and STATUS_WORD as read, or no answer. An armed hub point 0x05
makes it fail (19 R560). -/
def execPmbusPoll (entry : Nat) (ok : Bool) (vout iout : Nat) (temp : Int) (statusWord : Nat) (s : State) :
    Host.Outcome State Fault Refusal :=
  Next (let e := sget {} s.tal.regs entry
    if s.pkg.held ∨ 32 ≤ entry ∨ !e.valid then s
    else
      let r := if injTarget s 0 5 % 32 = entry then inject 0 5 s else (false, s)
      let put (x : RegEntry) (t : State) : State := { t with tal := { t.tal with regs := sset {} t.tal.regs entry x } }
      if ok ∧ !r.1 then
        let s1 := put { e with fails := 0, power := some (vout * iout), vout := vout, iout := iout, temp := temp,
                               status := statusWord % 2 ^ 16 } r.2
        let s2 := if entry < 16 then wr s1 (tempReg (42 + entry)) (tempWord (some temp)) else s1
        if statusWord % 2 ^ 16 = 0 then s2 else raise 0x0607 2 5 [word entry, word (statusWord % 2 ^ 16)] s2
      else
        let n := e.fails + 1
        let s1 := if r.1 then injSeen 0 5 0 r.2 else r.2
        if n < 3 then put { e with fails := n } s1
        else
          let s2 := put { e with fails := n, power := none } s1
          let s3 := if entry < 16 then wr s2 (tempReg (42 + entry)) 0 else s2
          if n = 3 then raise 0x0607 2 5 [word entry, word (e.status + 2 ^ 16)] (cnt s3 (talBase + 0x2C)) else s3)

/-- A fan's tachometer has read below its minimum speed for 3 s, or reads above it again (R508). -/
def execFanTachFault (fan rpm : Nat) (low : Bool) (s : State) : Host.Outcome State Fault Refusal :=
  Next (let x := sget {} s.tal.fans fan
    if s.pkg.held ∨ 8 ≤ fan ∨ !x.enable then s
    else
      let s1 := { s with tal := { s.tal with fans := sset {} s.tal.fans fan { x with rpm := rpm, fault := low } } }
      setFans (if low ∧ !x.fault then raise 0x0608 2 5 [word fan, word rpm] s1 else s1))

/-- No NRG_SUPPLY within SUPPLY_TIMEOUT while in BATTERY: NRG_SUPPLY_STALE once (R500). -/
def execSupplyTimeout (s : State) : Host.Outcome State Fault Refusal :=
  Next (if s.pkg.held ∨ s.tal.supply ≠ 2 ∨ s.tal.stale then s
    else showTally (raise 0x0606 2 5 [word (s.tal.tEl / 1000000), word (sustainMw s)]
      { s with tal := { s.tal with stale := true } }))

/-! ### NRG commands (R512) -/

def execNrgInfo (b : Nat) (s : State) : Host.Outcome State Fault Refusal :=
  Next (serve 0x0601 allServed (fun _ s =>
    .ok ([rd s talStatus, word (limitMw s), word (floorMw s), word (reservedMw s), word s.tal.plan.base]
      ++ (s.tal.lastRecord ++ List.replicate 16 0).take 16) s) b s)

/-- The plan of an NRG_PLAN. -/
def reqPlan (r : Req) : Plan :=
  { pkgLimit := r.w 0, base := r.w 4, e0Cap := r.w 8, tb := r.f 12 2 0, epochUs := r.w 16, margin := r.f 20 7 0,
    hyst := r.f 20 15 8, hold := r.f 20 31 16, tileCapMin := r.f 24 9 0,
    fulStop := (upto 8).map (fun g => r.f (28 + 4 * g) 23 0), deepGroves := r.f 60 7 0, deepLanes := r.f 60 11 8,
    chanMask := r.f 64 15 0,
    subs := (upto (r.f 68 7 0)).map (fun i => (8 * r.f (72 + 8 * i) 5 0 + r.f (72 + 8 * i) 10 8, r.w (76 + 8 * i))) }

/-- Byte offset of the first invalid field of an NRG_PLAN. -/
def planBad (r : Req) : Option Nat :=
  if r.w 0 = 0 ∨ 720000 < r.w 0 then some 0
  else if 8 ≤ r.w 12 then some 12
  else if r.w 16 < 100 ∨ 100000 < r.w 16 then some 16
  else if r.f 20 31 16 = 0 ∨ 100 < r.f 20 7 0 + r.f 20 15 8 then some 20
  else if 512 < r.w 24 then some 24
  else match (upto 8).find? (fun g => r.f (28 + 4 * g) 31 24 ≠ 0) with
    | some g => some (28 + 4 * g)
    | none =>
      if r.f 60 31 12 ≠ 0 then some 60
      else if r.f 64 31 16 ≠ 0 then some 64
      else if 128 < r.w 68 then some 68
      else ((upto (r.f 68 7 0)).find? (fun i => r.f (72 + 8 * i) 7 6 ≠ 0 || r.f (72 + 8 * i) 31 11 ≠ 0)).map (fun i => 72 + 8 * i)

def execNrgPlan (b : Nat) (s : State) : Host.Outcome State Fault Refusal :=
  Next (serve 0x0602 runTrial (fun r s =>
    match planBad r with
    | some o => badArg o
    | none =>
      if !(tbAt s (r.f 12 2 0)).core.run then .no stNotReady 0x0605
      else .ok [] (floorCheck { s with tal := { s.tal with pending := some (reqPlan r) } })) b s)

def execNrgAllow (b : Nat) (s : State) : Host.Outcome State Fault Refusal :=
  Next (serve 0x0603 runTrial (fun r s =>
    match (upto 8).find? (fun c => decide (1 ≤ c ∧ 720000 < r.w (4 * c))) with
    | some c => badArg (4 * c)
    | none => .ok [] { s with tal := { s.tal with allow := (upto 8).map (fun c => r.w (4 * c)) } }) b s)

def execNrgSupply (b : Nat) (s : State) : Host.Outcome State Fault Refusal :=
  Next (serve 0x0604 runTrial (fun r s =>
    if 3 ≤ r.w 0 then badArg 0
    else if r.w 16 = 0 ∨ 600 < r.w 16 then badArg 16
    else
      let s1 := floorCheck { s with tal := { s.tal with
        supply := r.w 0, supplyMw := r.w 4, eRem := r.w 8, tOut := r.w 12, timeout := r.w 16,
        eUsed := 0, tEl := 0, stale := false } }
      .ok [word (limitMw s1)] s1) b s)

def execNrgClassMap (b : Nat) (s : State) : Host.Outcome State Fault Refusal :=
  Next (serve 0x0605 runTrial (fun r s =>
    let nib (off i : Nat) : Nat := nfld (r.w (off + 4 * (i / 8))) (4 * (i % 8) + 3) (4 * (i % 8))
    match (upto 16).find? (fun i => decide (720000 < r.w (40 + 4 * i))) with
    | some i => badArg (40 + 4 * i)
    | none => .ok [] { s with tal := { s.tal with
        fabClass := (upto 8).foldl (fun m i => sset 8 m i (nib 0 i)) s.tal.fabClass,
        memClass := (upto 8).foldl (fun m i => sset 8 m i (nib 4 i)) s.tal.memClass,
        peClass := (upto 64).foldl (fun m i => sset 8 m i (nib 8 i)) s.tal.peClass,
        fixed := (upto 16).foldl (fun m i => sset 0 m (32 + i) (r.w (40 + 4 * i))) s.tal.fixed } }) b s)

def execNrgRegMap (b : Nat) (s : State) : Host.Outcome State Fault Refusal :=
  Next (serve 0x0606 runTrial (fun r s =>
    let rail := r.f 8 5 0
    if r.f 0 7 5 ≠ 0 ∨ r.f 0 31 9 ≠ 0 then badArg 0
    else if r.f 4 7 2 ≠ 0 ∨ r.f 4 15 15 ≠ 0 ∨ r.f 4 31 24 ≠ 0 then badArg 4
    else if 64 ≤ r.w 8 ∨ (rail ≠ 63 ∧ (rail < 32 ∨ 47 < rail)) then .no stBadArg 0x0601
    else if r.w 12 < 5 ∨ 1000 < r.w 12 then badArg 12
    else
      let e : RegEntry := { valid := r.f 0 8 8 = 1, master := r.f 4 1 0, addr := r.f 4 14 8, page := r.f 4 23 16,
                            rail := rail, pollMs := r.w 12 }
      .ok [] { s with tal := { s.tal with regs := sset {} s.tal.regs (r.f 0 4 0) e } }) b s)

/-- The PMBus commands NRG_REG_CMD accepts (R507). -/
def pmbusAccepted (code : Nat) (read : Bool) : Bool :=
  match code with
  | 0x01 => true
  | 0x03 => !read
  | 0x21 => true
  | 0x79 => read
  | 0x8B => read
  | 0x8C => read
  | 0x8D => read
  | _ => false

/-- NRG_REG_CMD: `ok`, the regulator answered; `data`, what it read; `near`, the VOUT written lies within 5 percent of
the mapped rail's nominal in the regulator's own format. -/
def execNrgRegCmd (b : Nat) (ok : Bool) (data : Nat) (near : Bool) (s : State) : Host.Outcome State Fault Refusal :=
  Next (serve 0x0607 runTrial (fun r s =>
    let e := sget {} s.tal.regs (r.f 0 4 0)
    let read := r.f 4 8 8 = 1
    if !e.valid then refused 0x0606
    else if !pmbusAccepted (r.f 4 7 0) read then refused 0x0602
    else if r.f 4 7 0 = 0x21 ∧ !read ∧ (!near ∨ e.rail = 63) then refused 0x0603
    else if !ok then .no stFailed 0x0604
    else .ok [word (if read then data % 2 ^ 16 else 0)] s) b s)

def execNrgFanCfg (b : Nat) (s : State) : Host.Outcome State Fault Refusal :=
  Next (serve 0x0608 runTrial (fun r s =>
    let pt (i : Nat) : Int × Nat := (sint 16 (r.f (16 + 4 * i) 15 0), r.f (16 + 4 * i) 23 16)
    if r.f 0 7 3 ≠ 0 ∨ r.f 0 31 9 ≠ 0 then badArg 0
    else if r.f 12 31 10 ≠ 0 then badArg 12
    else match (upto 4).find? (fun i => decide (100 < (pt i).2 ∨ r.f (16 + 4 * i) 31 24 ≠ 0 ∨ (1 ≤ i ∧ (pt i).1 ≤ (pt (i - 1)).1))) with
      | some i => badArg (16 + 4 * i)
      | none =>
        let x := sget {} s.tal.fans (r.f 0 2 0)
        let y : Fan := { x with enable := r.f 0 8 8 = 1, mask := r.w 4 + r.w 8 * 2 ^ 32 + r.w 12 * 2 ^ 64,
                                points := (upto 4).map pt, fault := x.fault && r.f 0 8 8 = 1 }
        .ok [] { s with tal := { s.tal with fans := sset {} s.tal.fans (r.f 0 2 0) y } }) b s)

def execNrgRead (b : Nat) (s : State) : Host.Outcome State Fault Refusal :=
  Next (serve 0x0609 allServed (fun r s =>
    let e (i : Nat) : List Word := [rd s (eReg i), rd s (eReg i + 4)]
    if 4 ≤ r.w 0 then badArg 0
    else match r.w 0 with
      | 0 => .ok ((upto 48).flatMap e) s
      | 1 => .ok ((upto 10).flatMap (fun i => e (48 + i))) s
      | 2 => .ok ((upto 74).map (fun t => rd s (tempReg t))) s
      | _ => .ok ((upto 8).map (fun f =>
          let x := sget {} s.tal.fans f
          word (x.rpm % 2 ^ 16 + x.duty * 2 ^ 16 + b2n x.fault * 2 ^ 24))) s) b s)

end Sys2Proof.Machine
end

