-- ==== Sys2Proof/Machine/Tick.lean ====
section
/-!
DEFINITION. One cycle of CK_TIME: what the device does while no command waits (03 R80, R82; 06 R196; 08 R275, R299;
12 R376; 14 R436; 15 R461, R468; 18 R554; 19 R560, R561), and the two rows of the time bases' counts.
-/
namespace Sys2Proof.Machine

/-! ### What time moves -/

/-- Every time base and its twin on the hub, and every replica that a die holds, count one cycle (15 R461, R469). -/
def tickTime (s : State) : State :=
  { s with tu := { s.tu with
      tick := s.tu.tick + 1,
      tbs := smapAll {} s.tu.tbs (fun _ t => t.tick),
      replicas := smapAll {} s.tu.replicas (fun _ r => { r with cores := smapAll {} r.cores (fun _ c => c.advN 1) }) } }

/-- The contracts' allowances fill (06 R196). -/
def tickMeters (s : State) : State :=
  { s with bough := { s.bough with contracts := smapAll {} s.bough.contracts (fun _ c => meterFill c) } }

/-- A tile whose cycles pass by themselves: every one but a tile in RUN that can issue. -/
def tickTile (t : Nat) (s : State) : State :=
  let x := tileAt s t
  if tileFrozen s t ∨ (x.state = 0x71 ∧ x.stall.isNone) then s else passCycles t 2 s
def tickTiles (s : State) : State := (skeys s.tiles (fun _ _ => true)).foldl (fun u t => tickTile t u) s

/-- CK_MEM cycles spent in panic: 8 in 5 cycles of CK_TIME (03 R80; 12 R376). -/
def tickPanic (c : Nat) (s : State) : State :=
  if !inPanic s c ∨ !dieAlive s (8 + c / 2) then s
  else
    let x := chanAt s c
    cntBy (setChan c { x with panicTicks := (x.panicTicks + 8) % 5 } s) (memCnt c 8) ((x.panicTicks + 8) / 5)

/-- The host watchdog counts milliseconds (18 R554). -/
def tickHost (s : State) : State :=
  if !rdB s hostCtrl 31 then s
  else
    let s1 := wrF s hostCount 15 0 (rdF s hostCount 15 0 - 1)
    if rdF s1 hostCount 15 0 = 0 then packageReset 3 s1
    else if rdF s1 hostCount 15 0 ≤ rdF s1 hostCtrl 15 0 / 2 then after s1 (execHostWatchdogHalf s1)
    else s1

/-! ### Conditions that armed points force (19 R560, R561) -/

/-- A forced condition of a point: its effect, and its finding. -/
def forced (d n : Nat) (f : State → State) (s : State) : State :=
  let r := inject d n s
  if r.1 then injSeen d n 0 (f r.2) else r.2

/-- Hub points 0x00 and 0x01: a comparator mismatch, and the Warden watchdog at zero. -/
def forceWarden (s : State) : State :=
  let p := injTarget s 0 0 % 2
  let runs : Bool := pairRole s p = .active || pairRole s p = .standby
  let s1 := if injArmed s 0 0 ∧ runs ∧ !wardenDown s then forced 0 0 (fencePair p 0) s else s
  let counts : Bool := !(s1.dbg.wardenHalted && rdB s1 (dbgBase + 0x14) 31)
  if injArmed s1 0 1 ∧ counts ∧ !wardenDown s1 then forced 0 1 (fun t => after t (execWardenWatchdogExpiry t)) s1 else s1

/-- Grove point 0x0B: the watchdog of the target's tile at zero. -/
def forceTile (s : State) (g : Nat) : State :=
  let t := g * 512 + injTarget s (8 + g) 0xB % 512
  let x := tileAt s t
  if injArmed s (8 + g) 0xB ∧ x.wdLoad ≠ 0 ∧ x.item.isSome ∧ wdogCounts s t x then
    forced (8 + g) 0xB (fun u => after u (execTileWatchdogExpiry t (setTile t { tileAt u t with wd := 0 } u))) s
  else s

/-- Hub point 0x03: one of the monitors M0 to M4. -/
def forceMonitor (s : State) : State :=
  let m := injTarget s 0 3 % 8
  if injArmed s 0 3 ∧ m ≤ 4 then
    forced 0 3 (fun u => after u
      (if m = 0 then execSoscMonitorFault 0 u else if m ≤ 2 then execXinMonitorFault (m - 1) 0 u
       else if m = 3 then execSrlLockLost u else execTlLockLost u)) s
  else s

/-- Grove point 0x0A: M5, the loss of the root clock at the die, or M7, a peer's clock. -/
def forceGroveMonitor (s : State) (g : Nat) : State :=
  let d := 8 + g
  let x := injTarget s d 0xA
  if injArmed s d 0xA ∧ (x % 16 = 5 ∨ x % 16 = 7) then
    forced d 0xA (fun u => if x % 16 = 5 then after u (execDclLockLost d u) else peerClockLost d (nfld x 11 8) u) s
  else s

/-- Lane-die points 0x03 and 0x05: LOS or LOL of a lane, and monitor M6. -/
def forceLane (s : State) (l : Nat) : State :=
  let d := 1 + l
  let x := injTarget s d 3
  let n := 128 * l + x % 128
  let s1 := if injArmed s d 3 then forced d 3 (fun u => if x.testBit 8 then lolAssert n u else losAssert n u) s else s
  if injArmed s1 d 5 then forced d 5 (lrlLost l) s1 else s1

/-- Hub point 0x04: the host watchdog's warning or expiry. -/
def forceHost (s : State) : State :=
  if injArmed s 0 4 ∧ rdB s hostCtrl 31 then
    forced 0 4 (fun u => after u (if (injTarget s 0 4).testBit 0 then execHostWatchdogExpiry u else execHostWatchdogHalf u)) s
  else s

/-- The points whose eligible operation a cycle, a microsecond or a millisecond is, on dies that are in service. -/
def tickForced (s : State) : State :=
  let gs : List Nat := (upto 8).filter (fun g => dieAlive s (8 + g))
  let ls : List Nat := (upto 4).filter (fun l => dieAlive s (1 + l))
  let s1 := gs.foldl forceTile (forceWarden s)
  let s2 := if s.tu.tick % 500 = 0 then ls.foldl forceLane (gs.foldl forceGroveMonitor (forceMonitor s1)) else s1
  if s.tu.tick % tickMs = 0 then forceHost s2 else s2

/-! ### The cycle -/

/-- One cycle of CK_TIME, 2 ns, in which no command is taken. The package reset holds everything. -/
def deviceTick (s : State) : State :=
  if s.pkg.held then s
  else
    let s1 := tickTiles (tickMeters (tickTime s))
    let s2 := (skeys s1.dram.chans (fun _ _ => true)).foldl (fun u c => tickPanic c u) s1
    let s3 := uartTick 1 (uartTick 0 s2)
    let s4 := tickForced s3
    if s4.tu.tick % tickMs = 0 then tickHost s4 else s4

/-! ### WRAPS and the end of a slew (15 R462, R464) -/

/-- The cycle in which the time base's WRAPS goes from 255 to 0 and ORIGIN gains 2^40 ns. In any other state the
occasion has not come. -/
def execWrapsWrap (tb : Nat) (s : State) : Host.Outcome State Fault Refusal :=
  Next (let c := (tbAt s tb).core
    if c.run ∧ (c.advN 1).origin ≠ c.origin then deviceTick s else s)

/-- The cycle that adds the remainder of the time base's slew and ends it. -/
def execSlewEnd (tb : Nat) (s : State) : Host.Outcome State Fault Refusal :=
  Next (let c := (tbAt s tb).core
    if c.run ∧ c.slewRem ≠ 0 ∧ (c.advN 1).slewRem = 0 then deviceTick s else s)

end Sys2Proof.Machine
end

