-- ==== Sys2Proof/Machine/TileControl.lean ====
section
/-!
DEFINITION. Meanings of the tiles' branches, repeats, locks and work-item instructions (08 R252, R253, R256, R261,
R274, R275; 09 R294-R300).
-/
namespace Sys2Proof.Machine

/-! ### Branches (09 R294-R296) -/

/-- A scalar as a unit issued two cycles before reads it, and its taint. -/
def Tile.early (x : Tile) (n : Nat) : Nat := x.older.get (rS n)
def Tile.earlyTaint (x : Tile) (n : Nat) : Bool := x.older.tnt (rS n)
/-- CTAINT set when a register is tainted. -/
def Tile.branchTaint (x : Tile) (t : Bool) : Tile := { x with ctaint := x.ctaint || t }

/-- A branch issued: its result, then two delay slots and the target when it is taken. -/
def branchTo (t : Nat) (target : Option Nat) (f : Tile → Tile) (s : State) : State :=
  let s1 := endM t f s
  setTile t { tileAt s1 t with slots := 2, target := target } s1

/-- Branch to TARGET if COND holds. -/
def execB (t cond a b target : Nat) (s : State) : Host.Outcome State Fault Refusal :=
  Next (issueM t (wordM 0x10 (fields [(a, if cond = 0 then 1 else 16), (b, if cond = 0 ∨ 7 ≤ cond then 1 else 16)]
      (fmtMB cond a b target))) .branch (fun s1 =>
    let x := tileAt s1 t
    let taint := decide (cond ≠ 0) && (x.earlyTaint a || (decide (cond < 7) && x.earlyTaint b))
    branchTo t (if condHolds cond (x.early a) (x.early b) then some target else none) (fun y => y.branchTaint taint) s1) s)

/-- Words of the issue unit at an index: 2 for a pair. -/
def unitWidthAt (s : State) (t i : Nat) : Nat := if progWord s t i / 2 ^ 30 = 2 then 2 else 1

/-- s[D] := the index after the second delay slot; issue continues at TARGET. -/
def execJal (t d target : Nat) (s : State) : Host.Outcome State Fault Refusal :=
  Next (issueM t (wordM 0x11 (fmtMB 0 d 0 target)) .branch (fun s1 =>
    let x := tileAt s1 t
    let p1 := x.pc + 1
    let p2 := p1 + unitWidthAt s1 t p1
    let link := (p2 + unitWidthAt s1 t p2) % 4096
    branchTo t (some target) (fun y => y.put (rS d) link y.ctaint 0) s1) s)

/-- Issue continues at s[A][11:0]. -/
def execJr (t a : Nat) (s : State) : Host.Outcome State Fault Refusal :=
  Next (issueM t (wordM 0x12 (fmtMB 0 a 0 0)) .branch (fun s1 =>
    let x := tileAt s1 t
    branchTo t (some (x.early a % 4096)) (fun y => y.branchTaint (x.earlyTaint a)) s1) s)

/-- s[A] := s[A] - 1, wrapping; taken when the new value is not 0. -/
def execDbnz (t a target : Nat) (s : State) : Host.Outcome State Fault Refusal :=
  Next (issueM t (wordM 0x13 (fmtMB 0 a 0 target)) .branch (fun s1 =>
    let x := tileAt s1 t
    let v := (x.early a + (2 ^ 32 - 1)) % 2 ^ 32
    branchTo t (if v = 0 then none else some target)
      (fun y => (y.put (rS a) v (x.earlyTaint a || y.ctaint) 0).branchTaint (x.earlyTaint a)) s1) s)

/-! ### Repeat and lock (09 R297) -/

/-- The next issue unit repeated `n` times: skipped for 0, a REP_LIMIT fault above TIL_CFG.REP_LIMIT (08 R253). -/
def repeatUnit (t n : Nat) (taint : Bool) (s : State) : State :=
  if rdF s (tilBlk t + 8) 15 0 < n then abortItem t fRepLimit 0 false true s
  else
    let s1 := endM t (fun x => x.branchTaint taint) s
    let x := tileAt s1 t
    setTile t (if n = 0 then { x with pc := (x.pc + unitWidthAt s1 t x.pc) % 4096 } else { x with rep := n, repPc := x.pc }) s1

/-- REP: COUNT times. -/
def execRep (t count : Nat) (s : State) : Host.Outcome State Fault Refusal :=
  Next (issueM t (wordM 0x18 (fields [(count, 65536)] count)) .alone (repeatUnit t count false) s)

/-- REPR: s[A] times, unsigned. -/
def execRepr (t a : Nat) (s : State) : Host.Outcome State Fault Refusal :=
  Next (issueM t (wordM 0x19 (fields [(a, 16)] a)) .alone (fun s1 =>
    let x := tileAt s1 t
    repeatUnit t (x.uS a) (x.tnt (rS a)) s1) s)

/-- LOCK: the next N instructions form a locked sequence (08 R256). -/
def execLock (t n : Nat) (s : State) : Host.Outcome State Fault Refusal :=
  Next (issueM t (wordM 0x1A (if 1 ≤ n ∧ n ≤ 4 then n else noWord)) .alone (fun s1 =>
    let pc := (tileAt s1 t).pc
    let s2 := endM t (fun x => x) s1
    setTile t { tileAt s2 t with locked := true, lock := n, lockPc := pc } s2) s)

/-! ### Work-item and synchronisation instructions (09 R298-R300) -/

/-- WAIT: the tile's clock stops until the end condition (08 R274). -/
def execWait (t : Nat) (timed : Bool) (s : State) : Host.Outcome State Fault Refusal :=
  Next (issueM t (wordM 0x20 (b2n timed)) .alone (fun s1 =>
    let s2 := endM t (fun x => x) s1
    setTile t { (tileAt s2 t).settle with state := 0x72, waitT := timed } s2) s)

/-- EXIT: the item ends with CODE once R261 is satisfied. -/
def execExit (t code : Nat) (s : State) : Host.Outcome State Fault Refusal :=
  Next (issueM t (wordM 0x21 (fields [(code, 256)] code)) .alone (fun s1 =>
    let s2 := endM t (fun x => x) s1
    setTile t { (tileAt s2 t).settle with state := 0x73, exitCode := code } s2) s)

/-- SETTMR: TMR := zext(IMM), or s[A] with REG = 1. -/
def execSettmr (t : Nat) (reg : Bool) (v : Nat) (s : State) : Host.Outcome State Fault Refusal :=
  Next (issueM t (wordM 0x22 (if reg then fields [(v, 16)] (2 ^ 23 + v) else fields [(v, 2 ^ 20)] v)) .free
    (endM t (fun x =>
      let x1 := { x with tmr := if reg then x.uS v else v }
      x1.branchTaint (reg && x.tnt (rS v)))) s)

/-- KICK: the watchdog reloaded with the item's value; no effect while it is off. -/
def execKick (t : Nat) (s : State) : Host.Outcome State Fault Refusal :=
  Next (issueM t (wordM 0x23 0) .noRep (endM t (fun x => { x with wd := x.wdLoad })) s)

/-- FENCE: the tile stalls until the commit buffer is empty and every external WR issued earlier is acknowledged; the
network interface has accepted every WRP. -/
def execFence (t : Nat) (s : State) : Host.Outcome State Fault Refusal :=
  Next (issueM t (wordM 0x24 0) .free (fun s1 =>
    let x := tileAt s1 t
    if x.drained then endM t (fun y => y) s1 else setTile t { x with stall := some .fence } s1) s)

end Sys2Proof.Machine
end

