-- ==== Sys2Proof/Machine/TileVector.lean ====
section
/-!
DEFINITION. Meanings of the tiles' vector, multiply-accumulate and narrowing instructions (09 R290-R293).
-/
namespace Sys2Proof.Machine

/-! ### Shared forms -/

/-- A vector result of 32 exact bytes under SAT: 1 delay cycle. -/
def vecSat (d : Nat) (srcs : List Nat) (f : Nat → Int) (x : Tile) : Tile :=
  let t := srcs.any (fun r => x.tnt r) || x.ctaint || x.tnt rSt
  (x.put (rV d) (packN 8 ((upto 32).map (fun k => fitN 8 x.sat (f k)))) t 1).putOvf ((upto 32).any (fun k => ovfN 8 (f k))) t 1
/-- A result of another vector operation. -/
def vecPlain (reg : Nat) (srcs : List Nat) (v : Nat) (x : Tile) : Tile :=
  x.put reg v (srcs.any (fun r => x.tnt r) || x.ctaint) 1

def vvSat (op : Nat) (f : Int → Int → Int) (t : Nat) (pair : Bool) (d a b : Nat) (s : State) : State :=
  issueC t pair (wordC pair op (fmtCV d a b 0))
    (fun x => vecSat d [rV a, rV b] (fun k => f (vByte (x.get (rV a)) k) (vByte (x.get (rV b)) k)) x) s
def vvPlain (op : Nat) (f : Nat → Nat → Nat) (t : Nat) (pair : Bool) (d a b : Nat) (s : State) : State :=
  issueC t pair (wordC pair op (fmtCV d a b 0)) (fun x => vecPlain (rV d) [rV a, rV b] (f (x.get (rV a)) (x.get (rV b))) x) s

/-! ### Vector instructions (R290) -/

/-- byte k := fit8(byte k of v[A] + byte k of v[B]). -/
def execVadd (t : Nat) (pair : Bool) (d a b : Nat) (s : State) : Host.Outcome State Fault Refusal :=
  Next (vvSat 0x20 (· + ·) t pair d a b s)

/-- As VADD, subtracting. -/
def execVsub (t : Nat) (pair : Bool) (d a b : Nat) (s : State) : Host.Outcome State Fault Refusal :=
  Next (vvSat 0x21 (· - ·) t pair d a b s)

/-- byte k := fit8(- byte k of v[A]). -/
def execVneg (t : Nat) (pair : Bool) (d a : Nat) (s : State) : Host.Outcome State Fault Refusal :=
  Next (issueC t pair (wordC pair 0x22 (fmtCV d a 0 0))
    (fun x => vecSat d [rV a] (fun k => -vByte (x.get (rV a)) k) x) s)

/-- I bytes copied; Q bytes := fit8(- Q). -/
def execVconj (t : Nat) (pair : Bool) (d a : Nat) (s : State) : Host.Outcome State Fault Refusal :=
  Next (issueC t pair (wordC pair 0x23 (fmtCV d a 0 0))
    (fun x => vecSat d [rV a] (fun k => if k % 2 = 0 then vByte (x.get (rV a)) k else -vByte (x.get (rV a)) k) x) s)

/-- v[D] := v[A] AND v[B]. -/
def execVand (t : Nat) (pair : Bool) (d a b : Nat) (s : State) : Host.Outcome State Fault Refusal :=
  Next (vvPlain 0x24 (· &&& ·) t pair d a b s)

/-- v[D] := v[A] OR v[B]. -/
def execVor (t : Nat) (pair : Bool) (d a b : Nat) (s : State) : Host.Outcome State Fault Refusal :=
  Next (vvPlain 0x25 (· ||| ·) t pair d a b s)

/-- v[D] := v[A] XOR v[B]. -/
def execVxor (t : Nat) (pair : Bool) (d a b : Nat) (s : State) : Host.Outcome State Fault Refusal :=
  Next (vvPlain 0x26 (· ^^^ ·) t pair d a b s)

/-- byte k := byte k of v[A] >> X[2:0], sign in. -/
def execVsrai (t : Nat) (pair : Bool) (d a sh : Nat) (s : State) : Host.Outcome State Fault Refusal :=
  Next (issueC t pair (wordC pair 0x27 (fields [(sh, 8)] (fmtCV d a 0 sh)))
    (fun x => vecPlain (rV d) [rV a] (packN 8 ((upto 32).map (fun k => uint 8 (sraI (vByte (x.get (rV a)) k) sh)))) x) s)

/-- v[D] := v[A]. -/
def execVmov (t : Nat) (pair : Bool) (d a : Nat) (s : State) : Host.Outcome State Fault Refusal :=
  Next (issueC t pair (wordC pair 0x28 (fmtCV d a 0 0)) (fun x => vecPlain (rV d) [rV a] (x.get (rV a)) x) s)

/-- Every lane: I := s[A][7:0], Q := s[A][15:8]. -/
def execVsplat (t : Nat) (pair : Bool) (d a : Nat) (s : State) : Host.Outcome State Fault Refusal :=
  Next (issueC t pair (wordC pair 0x29 (fmtCV d a 0 0))
    (fun x => vecPlain (rV d) [rS a] (packN 16 (List.replicate 16 (x.uS a))) x) s)

/-- s[D] := zext(lane X of v[A]). -/
def execVext (t : Nat) (pair : Bool) (d a x : Nat) (s : State) : Host.Outcome State Fault Refusal :=
  Next (issueC t pair (wordC pair 0x2A (fmtCV d a 0 x))
    (fun y => vecPlain (rS d) [rV a] (y.get (rV a) / 2 ^ (16 * x) % 2 ^ 16) y) s)

/-- Lane X of v[D] := s[A][15:0]; other lanes unchanged. -/
def execVins (t : Nat) (pair : Bool) (d a x : Nat) (s : State) : Host.Outcome State Fault Refusal :=
  Next (issueC t pair (wordC pair 0x2B (fmtCV d a 0 x))
    (fun y => vecPlain (rV d) [rS a, rV d]
      (packN 16 ((upto 16).map (fun i => if i = x then y.uS a else y.get (rV d) / 2 ^ (16 * i)))) y) s)

/-! ### Complex multiply-accumulate (R291, R292) -/

/-- I and Q of the product of a lane by a weight (R292). -/
def cprod (conj : Bool) (xi xq wi wq : Int) : Int × Int :=
  if conj then (xi * wi + xq * wq, xq * wi - xi * wq) else (xi * wi - xq * wq, xi * wq + xq * wi)

/-- Component `k` of the 16 products: I of lane k/2 for even `k`. Weight of lane `i`: lane `wl i` of `w`. -/
def prodComp (conj : Bool) (v w : Nat) (wl : Nat → Nat) (k : Nat) : Int :=
  let i := k / 2
  let p := cprod conj (vByte v (2 * i)) (vByte v (2 * i + 1)) (vByte w (2 * wl i)) (vByte w (2 * wl i + 1))
  if k % 2 = 0 then p.1 else p.2

/-- A multiply-accumulate: 3 delay cycles toward any reader, the sum in flight for the next into the accumulator. -/
def macInto (conj add : Bool) (k xv wv : Nat) (wl : Nat → Nat) (x : Tile) : Tile :=
  let acc := x.accNow k
  let e (c : Nat) : Int := prodComp conj (x.get (rV xv)) (x.get (rV wv)) wl c + (if add then accComp acc.1 c else 0)
  let t := x.tnt (rV xv) || x.tnt (rV wv) || (add && acc.2) || x.ctaint || x.tnt rSt
  (x.put (rAcc k) (packN 32 ((upto 32).map (fun c => fitN 32 x.sat (e c)))) t 3).putOvf ((upto 32).any (fun c => ovfN 32 (e c))) t 3

/-- The multiply-accumulates by one weight lane, and the element-wise ones. -/
def macLane (op : Nat) (conj add : Bool) (t : Nat) (pair : Bool) (k x w lane : Nat) (s : State) : State :=
  issueC t pair (wordC pair op (fmtCM k x w lane)) (macInto conj add k x w (fun _ => lane)) s
def macElem (op : Nat) (add : Bool) (t : Nat) (pair : Bool) (k x w : Nat) (s : State) : State :=
  issueC t pair (wordC pair op (fmtCM k x w 0)) (macInto false add k x w (fun i => i)) s

/-- acc[K] added to by x * w, w lane LANE of v[W]. -/
def execCmac (t : Nat) (pair : Bool) (k x w lane : Nat) (s : State) : Host.Outcome State Fault Refusal :=
  Next (macLane 0x30 false true t pair k x w lane s)

/-- acc[K] replaced by x * w. -/
def execCmacz (t : Nat) (pair : Bool) (k x w lane : Nat) (s : State) : Host.Outcome State Fault Refusal :=
  Next (macLane 0x31 false false t pair k x w lane s)

/-- acc[K] added to by x * conj(w). -/
def execCmacj (t : Nat) (pair : Bool) (k x w lane : Nat) (s : State) : Host.Outcome State Fault Refusal :=
  Next (macLane 0x32 true true t pair k x w lane s)

/-- acc[K] replaced by x * conj(w). -/
def execCmacjz (t : Nat) (pair : Bool) (k x w lane : Nat) (s : State) : Host.Outcome State Fault Refusal :=
  Next (macLane 0x33 true false t pair k x w lane s)

/-- acc[K] added to by x * w, w lane i of v[W]. -/
def execCmace (t : Nat) (pair : Bool) (k x w : Nat) (s : State) : Host.Outcome State Fault Refusal :=
  Next (macElem 0x34 true t pair k x w s)

/-- acc[K] replaced by the element-wise products. -/
def execCmacez (t : Nat) (pair : Bool) (k x w : Nat) (s : State) : Host.Outcome State Fault Refusal :=
  Next (macElem 0x35 false t pair k x w s)

/-! ### Narrowing (R293) -/

/-- byte of v[D] := fit8(component >> shift). -/
def narrowInto (d k sh : Nat) (srcs : List Nat) (x : Tile) : Tile :=
  vecSat d (rAcc k :: srcs) (fun c => sraI (accComp (x.get (rAcc k)) c) sh) x

/-- NARROW: the shift is SH. -/
def execNarrow (t : Nat) (pair : Bool) (d k sh : Nat) (s : State) : Host.Outcome State Fault Refusal :=
  Next (issueC t pair (wordC pair 0x38 (fmtCN d k sh 0)) (narrowInto d k sh []) s)

/-- NARROWS: the shift is s[A][4:0]. -/
def execNarrows (t : Nat) (pair : Bool) (d k a : Nat) (s : State) : Host.Outcome State Fault Refusal :=
  Next (issueC t pair (wordC pair 0x39 (fmtCN d k 0 a)) (fun x => narrowInto d k (x.uS a % 32) [rS a] x) s)

end Sys2Proof.Machine
end

