-- ==== Sys2Proof/Machine/TimeServo.lean ====
section
/-!
DEFINITION. Meanings of the servo, the oscillator model, holdover, PTP, SyncE and the ensemble (15 R465, R474-R485).
-/
namespace Sys2Proof.Machine

/-! ### The servo (R465, R474) -/

/-- Steps of at most 10^9 ns that add up to `n` ns (R463). -/
def stepParts (n : Int) : List Int :=
  let sg : Int := if n < 0 then -1 else 1
  List.replicate (n.natAbs / 1000000000) (sg * 1000000000)
    ++ (if n.natAbs % 1000000000 = 0 then [] else [sg * (n.natAbs % 1000000000 : Nat)])
/-- One measurement against LOCK_NS: inside, and the run of measurements beyond four times it. -/
def outRun (lockNs : Nat) (o : Int) (n : Nat) : Nat := if 4 * lockNs < o.natAbs then n + 1 else 0

/-- A measurement of a time base's primary source: `offset` in ns, its filtered magnitude, the RATE that the servo
sets and the slew in ns of its proportional part. -/
def measurePrimary (tb : Nat) (offset : Int) (filtered : Nat) (rate slew : Int) (s : State) : State :=
  let t := tbAt s tb
  let t1 := { t with offset := offset, filt := filtered, priValid := true, inside := decide (offset.natAbs ≤ t.lockNs) }
  let steer (x : State) : State :=
    sendChange tb (.slew (slew * (2 ^ 40 : Nat)) t.slewPpb) (sendChange tb (.rate rate) x)
  if t.state = 0xC1 ∨ t.state = 0xC4 ∨ t.state = 0xC5 then
    let s1 := setTbState tb 0xC2 (setTb s tb { t1 with outCount := 0 })
    let s2 := sendChange tb (.rate rate) s1
    if t.state = 0xC1 ∨ t.stepOk then (stepParts (-offset)).foldl (fun x n => sendChange tb (.step n) x) s2
    else sendChange tb (.slew (-offset * (2 ^ 40 : Nat)) t.slewPpb) s2
  else if t.state = 0xC3 then
    let n := outRun t.lockNs offset t.outCount
    let s1 := setTb s tb { t1 with outCount := if n < 16 then n else 0 }
    steer (if n < 16 then s1 else setTbState tb 0xC2 s1)
  else if t.state = 0xC2 then steer (setTb s tb t1)
  else s

/-- A measurement of the twin's source: the twin is stepped once and then slewed, on the hub only (R478). -/
def measureTwin (tb : Nat) (offset rate slew : Int) (s : State) : State :=
  let t := tbAt s tb
  let c := t.twin.change (.rate rate)
  let c1 := if t.twinValid then c.change (.slew (slew * (2 ^ 40 : Nat)) t.slewPpb) else c.change (.step (-offset))
  let n := outRun t.lockNs offset t.twinOut
  setTb s tb { t with twin := c1, twinValid := true, twinInside := decide (offset.natAbs ≤ t.lockNs),
                      twinOut := if n < 16 then n else 0, twinLocked := t.twinLocked && decide (n < 16) }

def execServoMeasurement (tb : Nat) (twin : Bool) (offset : Int) (filtered : Nat) (rate slew : Int) (s : State) :
    Host.Outcome State Fault Refusal :=
  let t := tbAt s tb
  Next (if 8 ≤ tb ∨ !t.core.run ∨ s.ward.takeover then s
    else if twin then (if t.twinKind = 0 ∨ !t.twin.run then s else measureTwin tb offset rate slew s)
    else if t.priKind = 0 then s
    else measurePrimary tb offset filtered rate slew s)

/-- A source is lost; both lost in one evaluation count as lost together (R465, R474). -/
def execSourceLost (tb : Nat) (primary twin : Bool) (cause : Nat) (s : State) : Host.Outcome State Fault Refusal :=
  let t := tbAt s tb
  let p := primary && t.priKind ≠ 0 && t.priValid
  let w := twin && t.twinKind ≠ 0 && t.twinValid
  Next (if 8 ≤ tb ∨ !t.core.run ∨ (!p ∧ !w) then s
    else
      let s1 := raise 0x0504 2 0x004 [word tb, word (b2n p + 2 * b2n w), word cause] s
      let s2 := if w then setTb s1 tb { t with twinValid := false, twinLocked := false } else s1
      if p then primaryGone tb s2 else s2)

/-- Sixteen seconds within LOCK_NS: LOCKED, of the time base or its twin (R465, R478). -/
def execLockQualified (tb : Nat) (twin : Bool) (s : State) : Host.Outcome State Fault Refusal :=
  let t := tbAt s tb
  Next (if 8 ≤ tb ∨ !t.core.run then s
    else if twin then
      (if t.twin.run ∧ t.twinValid ∧ t.twinInside then setTb s tb { t with twinLocked := true } else s)
    else if t.state = 0xC2 ∧ t.priValid ∧ t.inside then
      setTbState tb 0xC3 (setTb s tb { t with everLocked := true, outCount := 0, lostSecs := 0 })
    else s)

/-! ### Model and holdover (R479, R480) -/

/-- Once per second while LOCKED: the fit's results are operands; C2 is zero until the temperature has spanned 5 °C;
the model becomes valid after four hours. -/
def execModelUpdate (tb : Nat) (y0 a c1 c2 t0 : Int) (sigmaY sigmaA : Nat) (s : State) :
    Host.Outcome State Fault Refusal :=
  let t := tbAt s tb
  Next (if 8 ≤ tb ∨ t.state ≠ 0xC3 ∨ !t.core.run then s
    else
      let m := t.model
      let temp := (tempOf s m.sensor).map (· * 100)
      let low := match temp, m.tLow with
        | some v, some l => some (min v l)
        | some v, none => some v
        | none, l => l
      let high := match temp, m.tHigh with
        | some v, some h => some (max v h)
        | some v, none => some v
        | none, h => h
      let wide : Bool := match low, high with
        | some l, some h => decide (5000 ≤ h - l)
        | _, _ => false
      let n := m.lockedSecs + 1
      let m1 := { m with valid := m.valid || decide (14400 ≤ n), y0 := y0, a := a, c1 := c1, c2 := if wide then c2 else 0,
                         t0 := t0, sigmaY := sigmaY, sigmaA := sigmaA, age := 0, lockedSecs := n, tLow := low, tHigh := high }
      let s1 := setTb s tb { t with model := m1 }
      if n = 14400 then raise 0x0509 0 0x004 [word tb] s1 else s1)

/-- Once per second in HOLDOVER: RATE from the model, rounded toward zero, and the error estimate. In ENSEMBLE only
the seconds are counted. -/
def execHoldoverUpdate (tb : Nat) (s : State) : Host.Outcome State Fault Refusal :=
  let t := tbAt s tb
  Next (if 8 ≤ tb ∨ !t.core.run ∨ (t.state ≠ 0xC4 ∧ t.state ≠ 0xC5) then s
    else
      let en := s.tu.ens.enable && s.tu.ens.tb = tb
      let t1 := { t with lostSecs := t.lostSecs + 1, enSecs := if en then t.enSecs + 1 else 0,
                         model := { t.model with age := t.model.age + 1 } }
      if t.state = 0xC5 then setTb s tb t1
      else
        let dy := t1.model.y (modelTemp s t1.model) - t.yL
        let above := !t.limitRaised && decide (2000000 * t.holdLimit < t1.u2)
        let s1 := setTb s tb { t1 with errEst := t1.ownU, limitRaised := t.limitRaised || above }
        let s2 := if t.model.valid then
            sendChange tb (.rate (clampS 32 (t.rateL - (dy * (2 ^ 40 : Nat)).tdiv 86400000000000000000000000))) s1
          else s1
        if above then raise 0x050A 2 0x004 [word tb, word (min (2 ^ 32 - 1) t1.ownU), word t1.lostSecs] s2 else s2)

/-! ### PTP (R475) -/

/-- Port mask of a payload: 512 bits from byte offset `off`. -/
def reqMask (r : Req) (off : Nat) : Nat := (upto 16).foldl (fun a i => a + r.w (off + 4 * i) * 2 ^ (32 * i)) 0
/-- A MAC address held in wire order as six payload bytes, and back. -/
def macOf (lo hi : Nat) : Nat := ofBytes (toBytes 6 (lo + hi % 2 ^ 16 * 2 ^ 32)).reverse
def macWire (m : Nat) : Nat := ofBytes (toBytes 6 m).reverse

def execTimePtpPort (b : Nat) (s : State) : Host.Outcome State Fault Refusal :=
  Next (serve 0x0508 [0xC1, 0xC2, 0xC3, 0xC4, 0xC5, 0xC6] (fun r s =>
    let pe := r.f 0 5 0
    let k := r.f 0 10 8
    let here := (upto 32).find? (fun i => match sget none s.tu.ptp i with
      | some p => p.pe = pe && p.port = k
      | none => false)
    let dom := r.f 4 7 0
    let put (i : Nat) (v : Option PtpPort) : Reply :=
      let s1 := { s with tu := { s.tu with ptp := sset none s.tu.ptp i v } }
      match syncKeys (timeKeys s) s1 with
      | some s2 => .ok [word i] s2
      | none => .no stExhausted 0x050A
    if junk r 0 0x107073F then badArg 0
    else if r.f 0 24 24 = 0 then
      (match here with
       | some i => put i none
       | none => badArg 0)
    else if junk r 4 0xFF07FF ∨ dom < 24 ∨ 43 < dom then badArg 4
    else if (ptpPorts s).any (fun p => p.tb = r.f 0 18 16 && p.clockId ≠ r.w64 8 && (p.pe ≠ pe || p.port ≠ k)) then
      refused 0x0505
    else if r.f 4 9 9 = 1 ∧ !rdB s (penBlk pe + 0x74) 31 then refused 0x0508
    else match here.orElse (fun _ => (upto 32).find? (fun i => sget none s.tu.ptp i = none)) with
      | none => .no stExhausted 0x0506
      | some i => put i (some { pe := pe, port := k, tb := r.f 0 18 16, domain := dom, masterOnly := r.f 4 8 8 = 1,
                                twoStep := r.f 4 9 9 = 1, nonForward := r.f 4 10 10 = 1, localPriority := r.f 4 23 16,
                                clockId := r.w64 8, asym := r.i 16 })) b s)

def execTimePtpStatus (b : Nat) (s : State) : Host.Outcome State Fault Refusal :=
  Next (serve 0x0509 allServed (fun r s =>
    if junk r 0 0x1F then badArg 0
    else match sget none s.tu.ptp (r.w 0) with
      | none => badArg 0
      | some p => .ok [word p.portState, word (uint 32 (clampS 32 p.offset)), word p.delay, word p.parent,
                       hi32 p.parent, word (p.parent / 2 ^ 64 % 2 ^ 16), word (p.clockClass % 256)] s) b s)

/-- A PTP message reaches the Warden on a port; its effect on the servo comes as SERVO_MEASUREMENT. -/
def execPtpMessageReceive (index : Nat) (msg : PtpMsg) (s : State) : Host.Outcome State Fault Refusal :=
  Next (match sget none s.tu.ptp index with
    | none => s
    | some p =>
      let set (q : PtpPort) : State := { s with tu := { s.tu with ptp := sset none s.tu.ptp index (some q) } }
      match msg with
      | .announce parent cls st =>
        if !([4, 6, 7, 9].contains st) ∨ (st = 9 ∧ p.masterOnly) then s
        else if st = 9 then set { p with portState := 9, parent := parent, clockClass := cls }
        else set { p with portState := st }
      | .sync offset => if p.portState = 9 then set { p with offset := offset } else s
      | .delayResp delay => if p.portState = 9 then set { p with delay := delay } else s
      | .delayReq => if p.portState = 6 then set { p with sent := smod 0 p.sent 9 (· + 1) } else s)

/-- The Warden sends a message of a messageType at its interval: Sync and Announce as a master, Delay_Req as a slave;
a two-step Sync is followed by Follow_Up. -/
def execPtpMessageSend (index kind : Nat) (s : State) : Host.Outcome State Fault Refusal :=
  Next (match sget none s.tu.ptp index with
    | none => s
    | some p =>
      let may := (p.portState = 6 ∧ (kind = 0 ∨ kind = 0xB)) ∨ (p.portState = 9 ∧ kind = 1)
      if !may ∨ s.ward.takeover then s
      else
        let n := smod 0 p.sent kind (· + 1)
        let m := if kind = 0 ∧ p.twoStep then smod 0 n 8 (· + 1) else n
        { s with tu := { s.tu with ptp := sset none s.tu.ptp index (some { p with sent := m }) } })

/-! ### SyncE (R476) -/

/-- The QL sent changes: TIME_QL_CHANGED, and an ESMC PDU at once. -/
def setQl (ql : Nat) (s : State) : State :=
  let e := s.tu.synce
  if ql = e.ql then s
  else
    raise 0x0505 1 0x004 [word e.sel, word (e.ql % 256 + ql % 256 * 2 ^ 8)]
      { s with tu := { s.tu with synce := { e with ql := ql, sent := if e.ports = 0 then e.sent else e.sent + 1 } } }

def execTimeSynce (b : Nat) (s : State) : Host.Outcome State Fault Refusal :=
  Next (serve 0x050A runTrial (fun r s =>
    let bad := (upto 8).find? (fun i => junk r (4 + 4 * i) 0xF1FF)
    if junk r 0 3 then badArg 0
    else match bad with
      | some i => badArg (4 + 4 * i)
      | none =>
        if 720 < r.w 36 then badArg 36
        else if r.w 40 < 300 ∨ 1800 < r.w 40 then badArg 40
        else
          let e := s.tu.synce
          let e1 : SyncE :=
            { enable := r.f 0 0 0 = 1, qlOn := r.f 0 1 1 = 1
              srcs := (upto 8).map (fun i => { lane := r.f (4 + 4 * i) 8 0, prio := r.f (4 + 4 * i) 15 12 })
              wtr := r.w 36, holdOff := r.w 40, ports := reqMask r 44, sel := 0xF, ql := e.ql, sent := e.sent }
          match syncKeys (timeKeys s) { s with tu := { s.tu with synce := e1 } } with
          | none => .no stExhausted 0x050A
          | some s1 => .ok [word e1.sel, word (e1.ql % 256)] s1) b s)

/-- The best candidate: ready, not failed nor DO NOT USE, by QL, then by priority, then by place. -/
def bestSource (s : State) : Option Nat :=
  let e := s.tu.synce
  let at_ (i : Nat) : SyncSrc := e.srcs.getD i {}
  let ok := (upto (min 8 e.srcs.length)).filter (fun i => (at_ i).prio ≠ 0 && tlReady s 2 (at_ i).lane
    && (!e.qlOn || ((at_ i).ql < 0x100 && (at_ i).ql ≠ 0xF)))
  (sortBy (fun i => (if e.qlOn then (at_ i).ql else 0) * 256 + (at_ i).prio * 16 + i) ok).head?

/-- The Warden selects a source, after hold-off or wait-to-restore, and switches TL to it (R84-R86). -/
def execSynceSelection (s : State) : Host.Outcome State Fault Refusal :=
  let e := s.tu.synce
  Next (if !e.enable ∨ s.ward.takeover then s
    else match bestSource s with
      | some i =>
        let x := e.srcs.getD i {}
        if i = e.sel ∧ refOf s 1 = 2 ∧ rdF s rootSel 24 16 = x.lane then s
        else if switching s 1 then s
        else
          let s1 := clkSelectTo 1 2 x.lane { s with tu := { s.tu with synce := { e with sel := i } } }
          if e.qlOn then setQl x.ql s1 else s1
      | none =>
        if e.sel = 0xF then s
        else
          let s1 := { s with tu := { s.tu with synce := { e with sel := 0xF } } }
          if e.qlOn then setQl 0xB s1 else s1)

/-- One ESMC PDU per second on each port named. -/
def execEsmcSend (s : State) : Host.Outcome State Fault Refusal :=
  let e := s.tu.synce
  Next (if !e.enable ∨ e.ports = 0 ∨ s.ward.takeover then s
    else { s with tu := { s.tu with synce := { e with sent := e.sent + 1 } } })

/-- The QL of a candidate set; that of the selected one is the QL sent. -/
def sourceQl (index ql : Nat) (s : State) : State :=
  let e := s.tu.synce
  let x := e.srcs.getD index {}
  { s with tu := { s.tu with synce := { e with srcs := e.srcs.set index { x with ql := ql } } } }
def execEsmcTimeout (index : Nat) (s : State) : Host.Outcome State Fault Refusal :=
  Next (if !s.tu.synce.enable ∨ 8 ≤ index then s else sourceQl index 0x100 s)
def execEsmcReceive (index ql : Nat) (s : State) : Host.Outcome State Fault Refusal :=
  Next (if !s.tu.synce.enable ∨ 8 ≤ index ∨ 256 ≤ ql then s
    else
      let s1 := sourceQl index ql s
      if s.tu.synce.qlOn ∧ s.tu.synce.sel = index then setQl ql s1 else s1)

/-! ### The ensemble (R481-R485) -/

def execTimeEnsembleCfg (b : Nat) (s : State) : Host.Outcome State Fault Refusal :=
  Next (serve 0x050E [0xC1, 0xC2, 0xC3, 0xC4, 0xC5, 0xC6] (fun r s =>
    let n := r.f 0 2 0
    let on := r.f 0 8 8 = 1
    let e := s.tu.ens
    let ports := reqMask r 36
    if junk r 0 0x307 then badArg 0
    else if junk r 4 0xFFFF then badArg 4
    else if junk r 12 0xFFFFFF then badArg 12
    else if junk r 16 0xFF07 then badArg 16
    else if r.w 20 < 100 ∨ 100000 < r.w 20 then badArg 20
    else if r.w 32 < 1 ∨ 16 < r.w 32 then badArg 32
    else if on ∧ nodeId s = 0x3FFFF then .no stNotReady 0x0503
    else if on ∧ (maskPorts ports).any (fun x => !rdB s (penBlk x.1 + 0x74) 31) then refused 0x0508
    else
      let e1 := { e with enable := on, learn := r.f 0 9 9 = 1, tb := n, ether := r.f 4 15 0, dest := macOf (r.w 8) (r.w 12),
                         domain := r.f 12 23 16, k := r.f 16 2 0, minPeers := r.f 16 15 8, tau := r.w 20,
                         asymUnc := r.w 24, delay := r.w 28, derate := r.w 32, ports := ports }
      let s1 := { s with tu := { s.tu with ens := e1, peers := if n = e.tb then s.tu.peers else [] } }
      let s2 := if e.enable ∧ n = e.tb then s1 else setTb s1 n { (tbAt s1 n) with enSecs := 0 }
      match syncKeys (timeKeys s) s2 with
      | none => .no stExhausted 0x050A
      | some s3 => .ok [] s3) b s)

/-- One table entry as TIME_PEER reads it. -/
def peerWords (total : Nat) (p : Peer) : List Word :=
  let w := macWire p.mac
  [word (p.node + p.st * 2 ^ 20 + p.peerState * 2 ^ 24), word w, word (w / 2 ^ 32 + p.pe * 2 ^ 16 + p.port * 2 ^ 24),
   word (uint 32 (clampS 32 (p.x.tdiv 512))), word (uint 32 (p.delay.tdiv 512)), word p.uncert,
   word (if total = 0 then 0 else p.weight * 2 ^ 16 / total), word p.seq]

def execTimePeer (b : Nat) (s : State) : Host.Outcome State Fault Refusal :=
  Next (serve 0x050F allServed (fun r s =>
    let op := r.w 0
    let n := r.w 4
    let l := s.tu.peers
    if 3 ≤ op then badArg 0
    else if op = 0 then
      let total := (l.map (fun p => p.weight)).sum + (if l.any (fun p => p.weight ≠ 0) then s.tu.ens.w0 else 0)
      .ok ((l.flatMap (peerWords total) ++ List.replicate 512 0).take 512) s
    else if 2 ^ 18 ≤ n then badArg 4
    else if op = 2 then
      (if l.any (fun p => p.node = n) then .ok [] { s with tu := { s.tu with peers := l.filter (fun p => p.node ≠ n) } }
       else refused 0x050B)
    else if l.any (fun p => p.node = n) then
      .ok [] { s with tu := { s.tu with peers := l.map (fun p => if p.node = n then { p with added := true, asym := r.i 8 } else p) } }
    else if 64 ≤ l.length then .no stExhausted 0x0507
    else .ok [] { s with tu := { s.tu with peers := l ++ [{ node := n, added := true, st := 0, asym := r.i 8 }] } }) b s)

/-- Echo of a peer heard (R482). -/
def echoWords (p : Peer) : List Word :=
  [word (p.node + p.rx % 256 * 2 ^ 24), word p.seq, lo32 (p.rx / 256), hi32 (p.rx / 256)]
/-- Report number `seq` of the device on port `k` (R482). -/
def reportWords (s : State) (seq k : Nat) : List Word :=
  let e := s.tu.ens
  let t := tbAt s e.tb
  let heard := s.tu.peers.filter (fun p => p.heard)
  let prev := (e.own.find? (fun x => (x.1 + 1) % 65536 = seq)).bind (fun x => (x.2.find? (fun y => y.1 = k)).map (·.2))
  let tx := prev.getD 0
  [word (1 + e.domain * 2 ^ 8 + heard.length * 2 ^ 16 + t.state * 2 ^ 24), word (nodeId s),
   word (seq + tx % 256 * 2 ^ 16 + b2n prev.isSome * 2 ^ 24), lo32 (tx / 256), hi32 (tx / 256),
   word (min (2 ^ 32 - 1) (if t.state = 0xC3 then t.filt else t.errEst)), word (if t.state = 0xC3 then 0 else t.lostSecs)]
  ++ List.replicate 9 0 ++ heard.flatMap echoWords

/-- A report on every ensemble port; `tx` holds its transmit times in 1/256 ns by port, as the records give them. -/
def execEnsembleReportSend (tx : List (Nat × Nat)) (s : State) : Host.Outcome State Fault Refusal :=
  let e := s.tu.ens
  Next (if !e.enable ∨ nodeId s = 0x3FFFF ∨ s.ward.takeover then s
    else
      let seq := (e.seq + 1) % 65536
      let out := (upto 512).foldl (fun (m : Sparse (List Word)) k =>
        if e.ports.testBit k then sset [] m k (reportWords s seq k) else m) []
      { s with tu := { s.tu with
          ens := { e with seq := seq, own := ((seq, tx) :: e.own).take 2, out := out }
          peers := s.tu.peers.map (fun p => { p with heard := false }) } })

/-- A report that is not taken: counted in TU_ENS_DROP. -/
def dropReport (s : State) : State := cnt s (tuBase + 0x10)
/-- A sender that the table does not take: TIME_PEER_TABLE_FULL at most once per hour (R485). -/
def tableFull (node : Nat) (s : State) : State :=
  let soon : Bool := match s.tu.ens.fullLast with
    | some t => decide (s.tu.tick < t + 3600000 * tickMs)
    | none => false
  if soon then s
  else raise 0x0506 1 0x004 [word node] { s with tu := { s.tu with ens := { s.tu.ens with fullLast := some s.tu.tick } } }

/-- Offset and path delay of R483 in 1/512 ns from a report of a peer: `t1` own transmit time, `t2` its echo, `t3` the
peer's previous transmit time, `t4` its reception. -/
def peerOffset (p : Peer) (t1 t2 t3 t4 : Nat) : Int × Int :=
  (((t2 : Int) - t1) - ((t4 : Int) - t3) + p.asym * 512, ((t2 : Int) - t1) + ((t4 : Int) - t3))

/-- A peer after a report of it (R483, R485). -/
def peerHeard (s : State) (p : Peer) (pe port mac : Nat) (l : List Word) (rx : Nat) : Peer :=
  let seq := nfld (wordAt l 2) 15 0
  let k := 8 * pe + port
  let echo := ((upto (nfld (wordAt l 0) 23 16)).map (fun e => l.drop (16 + 4 * e))).find?
    (fun e => nfld (wordAt e 0) 17 0 = nodeId s)
  let t12 := echo.bind (fun e => (s.tu.ens.own.find? (fun x => x.1 = nfld (wordAt e 1) 15 0)).bind (fun x =>
    (x.2.find? (fun y => y.1 = k)).map (fun y => (y.2, word64At e 2 * 256 + nfld (wordAt e 0) 31 24))))
  let t34 := if (wordAt l 2).testBit 24 ∧ p.st ≠ 0 ∧ (p.seq + 1) % 65536 = seq ∧ p.pe = pe ∧ p.port = port then
      some (word64At l 3 * 256 + nfld (wordAt l 2) 23 16, p.rx) else none
  let q := { p with peerState := nfld (wordAt l 0) 31 24, mac := mac, pe := pe, port := port, uncert := wordAt l 5,
                    seq := seq, rx := rx, heard := true, st := if p.st = 0 ∨ p.st = 3 then 1 else p.st }
  match t12, t34 with
  | some (t1, t2), some (t3, t4) =>
    let o := peerOffset p t1 t2 t3 t4
    { q with x := o.1, delay := o.2, st := if p.st = 4 then 4 else 2 }
  | _, _ => q

def execEnsembleReportReceive (pe port mac : Nat) (payload : List Word) (rx : Nat) (s : State) :
    Host.Outcome State Fault Refusal :=
  let e := s.tu.ens
  let w := wordAt payload 0
  let node := nfld (wordAt payload 1) 17 0
  Next (if !e.enable ∨ 64 ≤ pe ∨ 8 ≤ port then s
    else if nfld w 7 0 ≠ 1 ∨ nfld w 15 8 ≠ e.domain ∨ payload.length < 16 + 4 * nfld w 23 16 then dropReport s
    else if node = nodeId s then
      raise 0x0507 2 0x004 [word (pe + port * 2 ^ 8), word mac, word (mac / 2 ^ 32 % 2 ^ 16)] s
    else match s.tu.peers.find? (fun p => p.node = node) with
      | some _ =>
        { s with tu := { s.tu with peers := s.tu.peers.map (fun p =>
            if p.node = node then peerHeard s p pe port mac payload rx else p) } }
      | none =>
        if e.learn ∧ s.tu.peers.length < 64 then
          { s with tu := { s.tu with peers := s.tu.peers ++
              [peerHeard s { node := node, added := false, st := 0 } pe port mac payload rx] } }
        else tableFull node (dropReport s))

/-- Four periods without a report: STALE; a learned entry STALE for sixteen is freed (R485). -/
def execPeerStale (node : Nat) (s : State) : Host.Outcome State Fault Refusal :=
  Next { s with tu := { s.tu with
    peers := (s.tu.peers.filter (fun p => p.node ≠ node || p.st ≠ 3 || p.added)).map (fun p =>
      if p.node = node then { p with st := 3, weight := 0 } else p) } }

/-- HOLDOVER enters ENSEMBLE after ENSEMBLE_DELAY with enough better peers (R484). -/
def execEnsembleEntry (s : State) : Host.Outcome State Fault Refusal :=
  let t := tbAt s s.tu.ens.tb
  Next (if t.state ≠ 0xC4 ∨ !t.core.run ∨ t.enSecs < s.tu.ens.delay ∨ !ensembleMet s then s
    else setTbState s.tu.ens.tb 0xC5 s)

/-- A round of R484: kept peers with their weights, and the sum of weights with the device's own. -/
structure Round where
  kept : List (Peer × Nat)
  w0 : Nat
  sum : Nat

def roundOf (s : State) : Round :=
  let e := s.tu.ens
  let u := (tbAt s e.tb).ownU
  let v := validPeers s.tu.peers
  let m := median2 (sortInts (0 :: v.map (fun p => p.x)))
  let kept := (v.filter (fun p => decide ((2 * p.x - m) * (2 * p.x - m) ≤ ((16 * peerQ e p * 2 ^ 20 : Nat) : Int)))).map
    (fun p => (p, weightOf (peerQ e p)))
  { kept := kept, w0 := weightOf (u * u), sum := weightOf (u * u) + (kept.map (·.2)).sum }

/-- x of a round in 2^-40 ns, and u_ens in ns. Where an uncertainty is zero its weight is no number: both are free. -/
def roundResult (s : State) : Int × Nat × State :=
  let e := s.tu.ens
  let r := roundOf s
  if (tbAt s e.tb).ownU = 0 ∨ r.kept.any (fun k => peerQ e k.1 = 0) then
    (Config.freeInt s.fresh, Config.freeNat s.fresh, tick1 s)
  else
    ((r.kept.foldl (fun (a : Int) k => a + k.1.x * (k.2 : Int)) 0 * (2 ^ 31 : Nat)).tdiv (r.sum : Int),
     isqrt (2 ^ 160 / r.sum), s)

/-- One period in ENSEMBLE (R484); back to HOLDOVER when its conditions no longer hold. -/
def execEnsembleRound (s : State) : Host.Outcome State Fault Refusal :=
  let e := s.tu.ens
  let t := tbAt s e.tb
  Next (if t.state ≠ 0xC5 ∨ !t.core.run then s
    else if !ensembleMet s then
      setTbState e.tb 0xC4 (setTb s e.tb { t with rateL := heldRate s e.tb, yL := t.model.y (modelTemp s t.model) })
    else
      let r := roundOf s
      let x := roundResult s
      let s1 := { x.2.2 with tu := { x.2.2.tu with
        ens := { e with w0 := r.w0 }
        peers := s.tu.peers.map (fun p =>
          if p.st ≠ 2 ∧ p.st ≠ 4 then { p with weight := 0 }
          else match r.kept.find? (fun k => k.1.node = p.node) with
            | some k => { p with st := 2, weight := k.2 }
            | none => { p with st := 4, weight := 0 }) } }
      let s2 := setTb s1 e.tb { t with errEst := x.2.1 }
      sendChange e.tb (.rate (clampS 32 (heldRate s e.tb + x.1.tdiv (e.tau * 1000000000))))
        (sendChange e.tb (.slewNew x.1 t.slewPpb) s2))

end Sys2Proof.Machine
end

