-- ==== Sys2Proof/Machine/Families.lean ====
section
/-!
DEFINITION. Every family of meanings, for the dispatch.
-/
end

