-- ==== Sys2Proof/Machine/Dispatch.lean ====
section
/-!
DEFINITION. What each command does: one arm per constructor, each one call of its meaning.
-/
namespace Sys2Proof.Machine

def exec (i : Instr) (s : State) : Host.Outcome State Fault Refusal :=
  match i with
  | .packageReset cause => Sys2Proof.Machine.execPackageReset cause s
  | .packageResetRelease straps vsvc33 primary backup => Sys2Proof.Machine.execPackageResetRelease straps vsvc33 primary backup s
  | .railOrderViolation => Sys2Proof.Machine.execRailOrderViolation s
  | .railBelowTolerance => Sys2Proof.Machine.execRailBelowTolerance s
  | .perstNRise => Sys2Proof.Machine.execPerstNRise s
  | .unmappedAccess station addr => Sys2Proof.Machine.execUnmappedAccess station addr s
  | .pfDeniedAccess addr => Sys2Proof.Machine.execPfDeniedAccess addr s
  | .wdnApertureWrite pf base => Sys2Proof.Machine.execWdnApertureWrite pf base s
  | .registerWrite src addr width value => Sys2Proof.Machine.execRegisterWrite src addr width value s
  | .boothAreaWrite src b off value => Sys2Proof.Machine.execBoothAreaWrite src b off value s
  | .boothPost src b => Sys2Proof.Machine.execBoothPost src b s
  | .boothRelease src b => Sys2Proof.Machine.execBoothRelease src b s
  | .wardenTake => Sys2Proof.Machine.execWardenTake s
  | .wardenComplete b => Sys2Proof.Machine.execWardenComplete b s
  | .sysEventsLost => Sys2Proof.Machine.execSysEventsLost s
  | .evtConsWrite src cons => Sys2Proof.Machine.execEvtConsWrite src cons s
  | .lockstepMismatch pair => Sys2Proof.Machine.execLockstepMismatch pair s
  | .wardenWatchdogExpiry => Sys2Proof.Machine.execWardenWatchdogExpiry s
  | .wardenSramUncorrectable pair index uncorrectable => Sys2Proof.Machine.execWardenSramUncorrectable pair index uncorrectable s
  | .takeoverResume => Sys2Proof.Machine.execTakeoverResume s
  | .pairSelfTestDone pair pass => Sys2Proof.Machine.execPairSelfTestDone pair pass s
  | .sysInfo b => Sys2Proof.Machine.execSysInfo b s
  | .sysEventConfig b => Sys2Proof.Machine.execSysEventConfig b s
  | .sysFwStage b => Sys2Proof.Machine.execSysFwStage b s
  | .fwStageChecked img => Sys2Proof.Machine.execFwStageChecked img s
  | .sysFwSwitch b => Sys2Proof.Machine.execSysFwSwitch b s
  | .handoverComplete ok => Sys2Proof.Machine.execHandoverComplete ok s
  | .sysFwCommit b => Sys2Proof.Machine.execSysFwCommit b s
  | .sysFwRevert b => Sys2Proof.Machine.execSysFwRevert b s
  | .sysFailover b => Sys2Proof.Machine.execSysFailover b s
  | .sysReset b => Sys2Proof.Machine.execSysReset b s
  | .sysResetExpiry => Sys2Proof.Machine.execSysResetExpiry s
  | .sysBoothReset b => Sys2Proof.Machine.execSysBoothReset b s
  | .bootSlotStart => Sys2Proof.Machine.execBootSlotStart s
  | .setQuery b => Sys2Proof.Machine.execSetQuery b s
  | .setPrepare b => Sys2Proof.Machine.execSetPrepare b s
  | .setConfirm b verified => Sys2Proof.Machine.execSetConfirm b verified s
  | .setCancel b => Sys2Proof.Machine.execSetCancel b s
  | .setAuditInfo b => Sys2Proof.Machine.execSetAuditInfo b s
  | .setAuditRead b => Sys2Proof.Machine.execSetAuditRead b s
  | .setPrepareExpired => Sys2Proof.Machine.execSetPrepareExpired s
  | .xinStartDelayExpiry x satisfied => Sys2Proof.Machine.execXinStartDelayExpiry x satisfied s
  | .bootReferenceSwitch => Sys2Proof.Machine.execBootReferenceSwitch s
  | .referenceWaitTimeout => Sys2Proof.Machine.execReferenceWaitTimeout s
  | .clkSourceSelectWrite src die value => Sys2Proof.Machine.execClkSourceSelectWrite src die value s
  | .referenceSlewEnd domain => Sys2Proof.Machine.execReferenceSlewEnd domain s
  | .refLost => Sys2Proof.Machine.execRefLost s
  | .soscMonitorFault ppm => Sys2Proof.Machine.execSoscMonitorFault ppm s
  | .xinMonitorFault x ppm => Sys2Proof.Machine.execXinMonitorFault x ppm s
  | .srlLockLost => Sys2Proof.Machine.execSrlLockLost s
  | .srlRelockTimeout => Sys2Proof.Machine.execSrlRelockTimeout s
  | .tlLockLost => Sys2Proof.Machine.execTlLockLost s
  | .dclLockLost die => Sys2Proof.Machine.execDclLockLost die s
  | .lrlLockLost l => Sys2Proof.Machine.execLrlLockLost l s
  | .lrlRelock l => Sys2Proof.Machine.execLrlRelock l s
  | .peerClockLost die unit => Sys2Proof.Machine.execPeerClockLost die unit s
  | .blockClockStop die blk => Sys2Proof.Machine.execBlockClockStop die blk s
  | .gatedBlockAccess die blk => Sys2Proof.Machine.execGatedBlockAccess die blk s
  | .blockReset src die bits => Sys2Proof.Machine.execBlockReset src die bits s
  | .blockResetDone die blk => Sys2Proof.Machine.execBlockResetDone die blk s
  | .clkInfo b => Sys2Proof.Machine.execClkInfo b s
  | .clkSelect b => Sys2Proof.Machine.execClkSelect b s
  | .clkFulSet b => Sys2Proof.Machine.execClkFulSet b s
  | .clkGate b => Sys2Proof.Machine.execClkGate b s
  | .clkPowerState b => Sys2Proof.Machine.execClkPowerState b s
  | .clkDieReset b => Sys2Proof.Machine.execClkDieReset b s
  | .dieRelockComplete die => Sys2Proof.Machine.execDieRelockComplete die s
  | .dieRejoinTimeout die => Sys2Proof.Machine.execDieRejoinTimeout die s
  | .dieRelease die vio => Sys2Proof.Machine.execDieRelease die vio s
  | .wakeRequest die => Sys2Proof.Machine.execWakeRequest die s
  | .cfgInfo b => Sys2Proof.Machine.execCfgInfo b s
  | .cfgHeader b => Sys2Proof.Machine.execCfgHeader b s
  | .cfgLoad b hdr desc outcome => Sys2Proof.Machine.execCfgLoad b hdr desc outcome s
  | .cfgRelease b => Sys2Proof.Machine.execCfgRelease b s
  | .cfgSwap b => Sys2Proof.Machine.execCfgSwap b s
  | .cfgRollback b => Sys2Proof.Machine.execCfgRollback b s
  | .cfgClear b => Sys2Proof.Machine.execCfgClear b s
  | .loadFrame g region frame ports outcome => Sys2Proof.Machine.execLoadFrame g region frame ports outcome s
  | .loadDigestCheck g region => Sys2Proof.Machine.execLoadDigestCheck g region s
  | .streamPortWrite station value => Sys2Proof.Machine.execStreamPortWrite station value s
  | .streamIdle => Sys2Proof.Machine.execStreamIdle s
  | .releaseEdge g region => Sys2Proof.Machine.execReleaseEdge g region s
  | .swapEdge g region => Sys2Proof.Machine.execSwapEdge g region s
  | .configSweepRead g far shadow finding => Sys2Proof.Machine.execConfigSweepRead g far shadow finding s
  | .rejoinReload g entry hdr desc outcome => Sys2Proof.Machine.execRejoinReload g entry hdr desc outcome s
  | .autoRelease => Sys2Proof.Machine.execAutoRelease s
  | .bramPortOperation g r port write addr din be => Sys2Proof.Machine.execBramPortOperation g r port write addr din be s
  | .bramPartialWrite g r port addr din be => Sys2Proof.Machine.execBramPartialWrite g r port addr din be s
  | .bramWriteBack g r => Sys2Proof.Machine.execBramWriteBack g r s
  | .bramSweepRead g r => Sys2Proof.Machine.execBramSweepRead g r s
  | .bramExportAccess src tag g r write off len data => Sys2Proof.Machine.execBramExportAccess src tag g r write off len data s
  | .nvmRead g addr upset => Sys2Proof.Machine.execNvmRead g addr upset s
  | .nvmProgram g addr wdata => Sys2Proof.Machine.execNvmProgram g addr wdata s
  | .nvmErase g addr => Sys2Proof.Machine.execNvmErase g addr s
  | .nvmCount g addr => Sys2Proof.Machine.execNvmCount g addr s
  | .nvmDone g => Sys2Proof.Machine.execNvmDone g s
  | .fabricSerialTransfer g port kind item => Sys2Proof.Machine.execFabricSerialTransfer g port kind item s
  | .probeArm src g value => Sys2Proof.Machine.execProbeArm src g value s
  | .probeTrigger g samples => Sys2Proof.Machine.execProbeTrigger g samples s
  | .probeCaptureEnd g samples => Sys2Proof.Machine.execProbeCaptureEnd g samples s
  | .traceRead g j => Sys2Proof.Machine.execTraceRead g j s
  | .boughRequestSend src op tag addr len data flow prov => Sys2Proof.Machine.execBoughRequestSend src op tag addr len data flow prov s
  | .contractMeterRelease src dst => Sys2Proof.Machine.execContractMeterRelease src dst s
  | .responseSlotReserved src dst => Sys2Proof.Machine.execResponseSlotReserved src dst s
  | .hopsExpired j => Sys2Proof.Machine.execHopsExpired j s
  | .badOpDiscard j => Sys2Proof.Machine.execBadOpDiscard j s
  | .trunkTurn j => Sys2Proof.Machine.execTrunkTurn j s
  | .packetArrival j fault taken => Sys2Proof.Machine.execPacketArrival j fault taken s
  | .sinkViolation station => Sys2Proof.Machine.execSinkViolation station s
  | .trunkReroute => Sys2Proof.Machine.execTrunkReroute s
  | .trunkRestore => Sys2Proof.Machine.execTrunkRestore s
  | .flowInfo b => Sys2Proof.Machine.execFlowInfo b s
  | .flowOpen b => Sys2Proof.Machine.execFlowOpen b s
  | .flowClose b => Sys2Proof.Machine.execFlowClose b s
  | .flowQuery b => Sys2Proof.Machine.execFlowQuery b s
  | .flowStation b => Sys2Proof.Machine.execFlowStation b s
  | .flowRouteWrite b => Sys2Proof.Machine.execFlowRouteWrite b s
  | .flowRouteRead b => Sys2Proof.Machine.execFlowRouteRead b s
  | .flowStats b => Sys2Proof.Machine.execFlowStats b s
  | .linkTrainRoundEnd die unit round => Sys2Proof.Machine.execLinkTrainRoundEnd die unit round s
  | .linkRoundTimeout die unit => Sys2Proof.Machine.execLinkRoundTimeout die unit s
  | .transferCrcError die unit same => Sys2Proof.Machine.execTransferCrcError die unit same s
  | .replayArrival die unit wires => Sys2Proof.Machine.execReplayArrival die unit wires s
  | .narrowReevaluation => Sys2Proof.Machine.execNarrowReevaluation s
  | .crossingParityError die unit => Sys2Proof.Machine.execCrossingParityError die unit s
  | .cacheableRequest j => Sys2Proof.Machine.execCacheableRequest j s
  | .cacheFillArrival j => Sys2Proof.Machine.execCacheFillArrival j s
  | .homeRequest j => Sys2Proof.Machine.execHomeRequest j s
  | .directoryEvict j => Sys2Proof.Machine.execDirectoryEvict j s
  | .withdrawalArrival j => Sys2Proof.Machine.execWithdrawalArrival j s
  | .surrenderArrival j => Sys2Proof.Machine.execSurrenderArrival j s
  | .checkAnswerArrival j => Sys2Proof.Machine.execCheckAnswerArrival j s
  | .confirmWindowExpiry j => Sys2Proof.Machine.execConfirmWindowExpiry j s
  | .vc0DramWrite j => Sys2Proof.Machine.execVc0DramWrite j s
  | .rmcFlush g => Sys2Proof.Machine.execRmcFlush g s
  | .rmcFlushDone g => Sys2Proof.Machine.execRmcFlushDone g s
  | .rmcBlockReset g => Sys2Proof.Machine.execRmcBlockReset g s
  | .nop t pair => Sys2Proof.Machine.execNop t pair s
  | .add t pair d a b => Sys2Proof.Machine.execAdd t pair d a b s
  | .sub t pair d a b => Sys2Proof.Machine.execSub t pair d a b s
  | .mul t pair d a b => Sys2Proof.Machine.execMul t pair d a b s
  | .min t pair d a b => Sys2Proof.Machine.execMin t pair d a b s
  | .max t pair d a b => Sys2Proof.Machine.execMax t pair d a b s
  | .and t pair d a b => Sys2Proof.Machine.execAnd t pair d a b s
  | .or t pair d a b => Sys2Proof.Machine.execOr t pair d a b s
  | .xor t pair d a b => Sys2Proof.Machine.execXor t pair d a b s
  | .sll t pair d a b => Sys2Proof.Machine.execSll t pair d a b s
  | .srl t pair d a b => Sys2Proof.Machine.execSrl t pair d a b s
  | .sra t pair d a b => Sys2Proof.Machine.execSra t pair d a b s
  | .slt t pair d a b => Sys2Proof.Machine.execSlt t pair d a b s
  | .sltu t pair d a b => Sys2Proof.Machine.execSltu t pair d a b s
  | .addi t pair d a imm => Sys2Proof.Machine.execAddi t pair d a imm s
  | .andi t pair d a imm => Sys2Proof.Machine.execAndi t pair d a imm s
  | .ori t pair d a imm => Sys2Proof.Machine.execOri t pair d a imm s
  | .xori t pair d a imm => Sys2Proof.Machine.execXori t pair d a imm s
  | .slli t pair d a imm => Sys2Proof.Machine.execSlli t pair d a imm s
  | .srli t pair d a imm => Sys2Proof.Machine.execSrli t pair d a imm s
  | .srai t pair d a imm => Sys2Proof.Machine.execSrai t pair d a imm s
  | .li t pair d imm => Sys2Proof.Machine.execLi t pair d imm s
  | .lui t pair d imm => Sys2Proof.Machine.execLui t pair d imm s
  | .mts t pair a => Sys2Proof.Machine.execMts t pair a s
  | .mfs t pair d sel => Sys2Proof.Machine.execMfs t pair d sel s
  | .amov t kind n sc => Sys2Proof.Machine.execAmov t kind n sc s
  | .aseti t kind n imm => Sys2Proof.Machine.execAseti t kind n imm s
  | .astep t n imm => Sys2Proof.Machine.execAstep t n imm s
  | .mfa t kind n sc => Sys2Proof.Machine.execMfa t kind n sc s
  | .lw t r n am imm => Sys2Proof.Machine.execLw t r n am imm s
  | .sw t r n am imm => Sys2Proof.Machine.execSw t r n am imm s
  | .vld t r n am imm => Sys2Proof.Machine.execVld t r n am imm s
  | .vst t r n am imm => Sys2Proof.Machine.execVst t r n am imm s
  | .vadd t pair d a b => Sys2Proof.Machine.execVadd t pair d a b s
  | .vsub t pair d a b => Sys2Proof.Machine.execVsub t pair d a b s
  | .vneg t pair d a => Sys2Proof.Machine.execVneg t pair d a s
  | .vconj t pair d a => Sys2Proof.Machine.execVconj t pair d a s
  | .vand t pair d a b => Sys2Proof.Machine.execVand t pair d a b s
  | .vor t pair d a b => Sys2Proof.Machine.execVor t pair d a b s
  | .vxor t pair d a b => Sys2Proof.Machine.execVxor t pair d a b s
  | .vsrai t pair d a sh => Sys2Proof.Machine.execVsrai t pair d a sh s
  | .vmov t pair d a => Sys2Proof.Machine.execVmov t pair d a s
  | .vsplat t pair d a => Sys2Proof.Machine.execVsplat t pair d a s
  | .vext t pair d a x => Sys2Proof.Machine.execVext t pair d a x s
  | .vins t pair d a x => Sys2Proof.Machine.execVins t pair d a x s
  | .cmac t pair k x w lane => Sys2Proof.Machine.execCmac t pair k x w lane s
  | .cmacz t pair k x w lane => Sys2Proof.Machine.execCmacz t pair k x w lane s
  | .cmacj t pair k x w lane => Sys2Proof.Machine.execCmacj t pair k x w lane s
  | .cmacjz t pair k x w lane => Sys2Proof.Machine.execCmacjz t pair k x w lane s
  | .cmace t pair k x w => Sys2Proof.Machine.execCmace t pair k x w s
  | .cmacez t pair k x w => Sys2Proof.Machine.execCmacez t pair k x w s
  | .narrow t pair d k sh => Sys2Proof.Machine.execNarrow t pair d k sh s
  | .narrows t pair d k a => Sys2Proof.Machine.execNarrows t pair d k a s
  | .b t cond a b target => Sys2Proof.Machine.execB t cond a b target s
  | .jal t d target => Sys2Proof.Machine.execJal t d target s
  | .jr t a => Sys2Proof.Machine.execJr t a s
  | .dbnz t a target => Sys2Proof.Machine.execDbnz t a target s
  | .rep t count => Sys2Proof.Machine.execRep t count s
  | .repr t a => Sys2Proof.Machine.execRepr t a s
  | .lock t n => Sys2Proof.Machine.execLock t n s
  | .wait t timed => Sys2Proof.Machine.execWait t timed s
  | .exit t code => Sys2Proof.Machine.execExit t code s
  | .settmr t reg v => Sys2Proof.Machine.execSettmr t reg v s
  | .kick t => Sys2Proof.Machine.execKick t s
  | .fence t => Sys2Proof.Machine.execFence t s
  | .tileItemEntry t => Sys2Proof.Machine.execTileItemEntry t s
  | .externalLoadAnswer j => Sys2Proof.Machine.execExternalLoadAnswer j s
  | .externalWriteAnswer j => Sys2Proof.Machine.execExternalWriteAnswer j s
  | .commitBufferDrain t => Sys2Proof.Machine.execCommitBufferDrain t s
  | .provisionalConfirm j => Sys2Proof.Machine.execProvisionalConfirm j s
  | .retractRestart j => Sys2Proof.Machine.execRetractRestart j s
  | .itemCompletionReport t => Sys2Proof.Machine.execItemCompletionReport t s
  | .tileAbort t => Sys2Proof.Machine.execTileAbort t s
  | .preemptionStop t => Sys2Proof.Machine.execPreemptionStop t s
  | .contextSaveDone t => Sys2Proof.Machine.execContextSaveDone t s
  | .contextRestoreDone t => Sys2Proof.Machine.execContextRestoreDone t s
  | .tileResume src t => Sys2Proof.Machine.execTileResume src t s
  | .tileKill src t => Sys2Proof.Machine.execTileKill src t s
  | .tileWake src t => Sys2Proof.Machine.execTileWake src t s
  | .tileDiscardSlot src t => Sys2Proof.Machine.execTileDiscardSlot src t s
  | .waitEnd t => Sys2Proof.Machine.execWaitEnd t s
  | .tileWatchdogExpiry t => Sys2Proof.Machine.execTileWatchdogExpiry t s
  | .tileOff t => Sys2Proof.Machine.execTileOff t s
  | .descriptorPost g p value => Sys2Proof.Machine.execDescriptorPost g p value s
  | .postSlotStore g p w value => Sys2Proof.Machine.execPostSlotStore g p w value s
  | .resultRead station g p tag => Sys2Proof.Machine.execResultRead station g p tag s
  | .dspCancel g handle => Sys2Proof.Machine.execDspCancel g handle s
  | .delayListRelease g k => Sys2Proof.Machine.execDelayListRelease g k s
  | .flowContextFill j => Sys2Proof.Machine.execFlowContextFill j s
  | .entryBacklogEnter g => Sys2Proof.Machine.execEntryBacklogEnter g s
  | .itemStart g => Sys2Proof.Machine.execItemStart g s
  | .preemptRequest g => Sys2Proof.Machine.execPreemptRequest g s
  | .itemCompletion g => Sys2Proof.Machine.execItemCompletion g s
  | .restartReport g => Sys2Proof.Machine.execRestartReport g s
  | .dspQminWrite src g q value => Sys2Proof.Machine.execDspQminWrite src g q value s
  | .dspDlCfgWrite src g k value => Sys2Proof.Machine.execDspDlCfgWrite src g k value s
  | .dspEnClear src g value => Sys2Proof.Machine.execDspEnClear src g value s
  | .dspEnSet src g value => Sys2Proof.Machine.execDspEnSet src g value s
  | .drainEnd g => Sys2Proof.Machine.execDrainEnd g s
  | .dspFlowFlush src g value => Sys2Proof.Machine.execDspFlowFlush src g value s
  | .flowFlushDone g => Sys2Proof.Machine.execFlowFlushDone g s
  | .clsCycLowRead station g c => Sys2Proof.Machine.execClsCycLowRead station g c s
  | .ptrProdWrite src c value => Sys2Proof.Machine.execPtrProdWrite src c value s
  | .descriptorReadAnswer j => Sys2Proof.Machine.execDescriptorReadAnswer j s
  | .moverTake die => Sys2Proof.Machine.execMoverTake die s
  | .moverPreempt c => Sys2Proof.Machine.execMoverPreempt c s
  | .beatReadAnswer c j data status => Sys2Proof.Machine.execBeatReadAnswer c j data status s
  | .beatWriteAnswer c j status => Sys2Proof.Machine.execBeatWriteAnswer c j status s
  | .porterTranslationFault c => Sys2Proof.Machine.execPorterTranslationFault c s
  | .descriptorComplete c => Sys2Proof.Machine.execDescriptorComplete c s
  | .cqRecordAck j => Sys2Proof.Machine.execCqRecordAck j s
  | .unitPacketReceive j => Sys2Proof.Machine.execUnitPacketReceive j s
  | .resume src c => Sys2Proof.Machine.execResume src c s
  | .skip src c => Sys2Proof.Machine.execSkip src c s
  | .abort src c => Sys2Proof.Machine.execAbort src c s
  | .go src c => Sys2Proof.Machine.execGo src c s
  | .closeUnit src c => Sys2Proof.Machine.execCloseUnit src c s
  | .ptrChCfgWrite src c value => Sys2Proof.Machine.execPtrChCfgWrite src c value s
  | .translationWalkDone j => Sys2Proof.Machine.execTranslationWalkDone j s
  | .xltInvalWrite src g value => Sys2Proof.Machine.execXltInvalWrite src g value s
  | .invalDone g => Sys2Proof.Machine.execInvalDone g s
  | .peerLossCloseUnit c => Sys2Proof.Machine.execPeerLossCloseUnit c s
  | .memInfo b => Sys2Proof.Machine.execMemInfo b s
  | .memConfig b => Sys2Proof.Machine.execMemConfig b s
  | .memTrain b => Sys2Proof.Machine.execMemTrain b s
  | .memFill b => Sys2Proof.Machine.execMemFill b s
  | .memScrub b => Sys2Proof.Machine.execMemScrub b s
  | .memErrlog b => Sys2Proof.Machine.execMemErrlog b s
  | .memDisable b => Sys2Proof.Machine.execMemDisable b s
  | .trainingDone c pass phase rank trn => Sys2Proof.Machine.execTrainingDone c pass phase rank trn s
  | .trainingPhaseTimeout c phase rank => Sys2Proof.Machine.execTrainingPhaseTimeout c phase rank s
  | .selfRefreshEntry c => Sys2Proof.Machine.execSelfRefreshEntry c s
  | .selfRefreshExit c quick pass rank trn => Sys2Proof.Machine.execSelfRefreshExit c quick pass rank trn s
  | .dramRequest c bank => Sys2Proof.Machine.execDramRequest c bank s
  | .dramReadDecode c bank => Sys2Proof.Machine.execDramReadDecode c bank s
  | .correctedWriteBack c => Sys2Proof.Machine.execCorrectedWriteBack c s
  | .dramRmw c bank => Sys2Proof.Machine.execDramRmw c bank s
  | .refreshDue c rank want => Sys2Proof.Machine.execRefreshDue c rank want s
  | .rtPortWrite c late drain => Sys2Proof.Machine.execRtPortWrite c late drain s
  | .alertNFall c parity => Sys2Proof.Machine.execAlertNFall c parity s
  | .fillLineWrite c => Sys2Proof.Machine.execFillLineWrite c s
  | .memFillDone c => Sys2Proof.Machine.execMemFillDone c s
  | .scrubRead c => Sys2Proof.Machine.execScrubRead c s
  | .ceLogClear src c => Sys2Proof.Machine.execCeLogClear src c s
  | .memEncInfo b => Sys2Proof.Machine.execMemEncInfo b s
  | .memRegionSetup b drbg => Sys2Proof.Machine.execMemRegionSetup b drbg s
  | .memRegionClear b => Sys2Proof.Machine.execMemRegionClear b s
  | .memRekeySubtree b => Sys2Proof.Machine.execMemRekeySubtree b s
  | .memKeyProvision b verified => Sys2Proof.Machine.execMemKeyProvision b verified s
  | .treeBuildDone g r => Sys2Proof.Machine.execTreeBuildDone g r s
  | .subtreeRebuildDone g r => Sys2Proof.Machine.execSubtreeRebuildDone g r s
  | .encLineRead c bank => Sys2Proof.Machine.execEncLineRead c bank s
  | .encFullWrite c bank => Sys2Proof.Machine.execEncFullWrite c bank s
  | .encPartialWrite c bank => Sys2Proof.Machine.execEncPartialWrite c bank s
  | .counterCacheEvict g set => Sys2Proof.Machine.execCounterCacheEvict g set s
  | .metaAccess c bank => Sys2Proof.Machine.execMetaAccess c bank s
  | .laneInfo b => Sys2Proof.Machine.execLaneInfo b s
  | .laneLrlSet b => Sys2Proof.Machine.execLaneLrlSet b s
  | .laneConfig b => Sys2Proof.Machine.execLaneConfig b s
  | .laneTune b eyes => Sys2Proof.Machine.execLaneTune b eyes s
  | .laneTest b => Sys2Proof.Machine.execLaneTest b s
  | .lanePrbsRead b errors => Sys2Proof.Machine.execLanePrbsRead b errors s
  | .lanePortConfig b => Sys2Proof.Machine.execLanePortConfig b s
  | .laneEngineConfig b => Sys2Proof.Machine.execLaneEngineConfig b s
  | .laneClsWrite b => Sys2Proof.Machine.execLaneClsWrite b s
  | .laneClsDelete b => Sys2Proof.Machine.execLaneClsDelete b s
  | .laneClsRead b => Sys2Proof.Machine.execLaneClsRead b s
  | .lanePolicerSet b => Sys2Proof.Machine.execLanePolicerSet b s
  | .laneGateLoad b => Sys2Proof.Machine.execLaneGateLoad b s
  | .laneTrimTry b => Sys2Proof.Machine.execLaneTrimTry b s
  | .laneStats b => Sys2Proof.Machine.execLaneStats b s
  | .losAssert lane => Sys2Proof.Machine.execLosAssert lane s
  | .losClear lane => Sys2Proof.Machine.execLosClear lane s
  | .lolAssert lane => Sys2Proof.Machine.execLolAssert lane s
  | .lolClear lane => Sys2Proof.Machine.execLolClear lane s
  | .portLinkChange pe port up => Sys2Proof.Machine.execPortLinkChange pe port up s
  | .fecCodeword pe port errs correctable => Sys2Proof.Machine.execFecCodeword pe port errs correctable s
  | .frameReceive pe port frame touched => Sys2Proof.Machine.execFrameReceive pe port frame touched s
  | .txUnitQueued pe src => Sys2Proof.Machine.execTxUnitQueued pe src s
  | .frameTransmit pe port => Sys2Proof.Machine.execFrameTransmit pe port s
  | .txDownDrop pe port => Sys2Proof.Machine.execTxDownDrop pe port s
  | .gateEntryEnd pe => Sys2Proof.Machine.execGateEntryEnd pe s
  | .gateListSwitch pe => Sys2Proof.Machine.execGateListSwitch pe s
  | .rawBlockReceive pe port block => Sys2Proof.Machine.execRawBlockReceive pe port block s
  | .rawUnderrun pe port => Sys2Proof.Machine.execRawUnderrun pe port s
  | .laneSettingsReapply l => Sys2Proof.Machine.execLaneSettingsReapply l s
  | .timeInfo b => Sys2Proof.Machine.execTimeInfo b s
  | .timeSet b => Sys2Proof.Machine.execTimeSet b s
  | .timeAdjust b => Sys2Proof.Machine.execTimeAdjust b s
  | .timeSource b => Sys2Proof.Machine.execTimeSource b s
  | .timeTwinSwitch b => Sys2Proof.Machine.execTimeTwinSwitch b s
  | .timeHost b => Sys2Proof.Machine.execTimeHost b s
  | .timeStop b => Sys2Proof.Machine.execTimeStop b s
  | .timePtpPort b => Sys2Proof.Machine.execTimePtpPort b s
  | .timePtpStatus b => Sys2Proof.Machine.execTimePtpStatus b s
  | .timeSynce b => Sys2Proof.Machine.execTimeSynce b s
  | .timeCaptureCfg b => Sys2Proof.Machine.execTimeCaptureCfg b s
  | .timeOutputCfg b => Sys2Proof.Machine.execTimeOutputCfg b s
  | .timeModel b => Sys2Proof.Machine.execTimeModel b s
  | .timeEnsembleCfg b => Sys2Proof.Machine.execTimeEnsembleCfg b s
  | .timePeer b => Sys2Proof.Machine.execTimePeer b s
  | .timeTsComp b => Sys2Proof.Machine.execTimeTsComp b s
  | .wrapsWrap tb => Sys2Proof.Machine.execWrapsWrap tb s
  | .slewEnd tb => Sys2Proof.Machine.execSlewEnd tb s
  | .tuTbNsRead station tb => Sys2Proof.Machine.execTuTbNsRead station tb s
  | .timePacketApply die => Sys2Proof.Machine.execTimePacketApply die s
  | .spineMarkCheck die drift => Sys2Proof.Machine.execSpineMarkCheck die drift s
  | .captureEdge ch falling => Sys2Proof.Machine.execCaptureEdge ch falling s
  | .tuCapInfoRead ch => Sys2Proof.Machine.execTuCapInfoRead ch s
  | .outputEdge o => Sys2Proof.Machine.execOutputEdge o s
  | .servoMeasurement tb twin offset filtered rate slew => Sys2Proof.Machine.execServoMeasurement tb twin offset filtered rate slew s
  | .sourceLost tb primary twin cause => Sys2Proof.Machine.execSourceLost tb primary twin cause s
  | .lockQualified tb twin => Sys2Proof.Machine.execLockQualified tb twin s
  | .modelUpdate tb y0 a c1 c2 t0 sigmaY sigmaA => Sys2Proof.Machine.execModelUpdate tb y0 a c1 c2 t0 sigmaY sigmaA s
  | .holdoverUpdate tb => Sys2Proof.Machine.execHoldoverUpdate tb s
  | .ensembleReportSend tx => Sys2Proof.Machine.execEnsembleReportSend tx s
  | .ensembleReportReceive pe port mac payload rx => Sys2Proof.Machine.execEnsembleReportReceive pe port mac payload rx s
  | .ensembleRound => Sys2Proof.Machine.execEnsembleRound s
  | .ensembleEntry => Sys2Proof.Machine.execEnsembleEntry s
  | .peerStale node => Sys2Proof.Machine.execPeerStale node s
  | .ptpMessageReceive index msg => Sys2Proof.Machine.execPtpMessageReceive index msg s
  | .ptpMessageSend index kind => Sys2Proof.Machine.execPtpMessageSend index kind s
  | .synceSelection => Sys2Proof.Machine.execSynceSelection s
  | .esmcSend => Sys2Proof.Machine.execEsmcSend s
  | .esmcTimeout index => Sys2Proof.Machine.execEsmcTimeout index s
  | .sensorSample mv ma temps => Sys2Proof.Machine.execSensorSample mv ma temps s
  | .epochBoundary rpms => Sys2Proof.Machine.execEpochBoundary rpms s
  | .pmbusPoll entry ok vout iout temp statusWord => Sys2Proof.Machine.execPmbusPoll entry ok vout iout temp statusWord s
  | .fanTachFault fan rpm low => Sys2Proof.Machine.execFanTachFault fan rpm low s
  | .supplyTimeout => Sys2Proof.Machine.execSupplyTimeout s
  | .nrgInfo b => Sys2Proof.Machine.execNrgInfo b s
  | .nrgPlan b => Sys2Proof.Machine.execNrgPlan b s
  | .nrgAllow b => Sys2Proof.Machine.execNrgAllow b s
  | .nrgSupply b => Sys2Proof.Machine.execNrgSupply b s
  | .nrgClassMap b => Sys2Proof.Machine.execNrgClassMap b s
  | .nrgRegMap b => Sys2Proof.Machine.execNrgRegMap b s
  | .nrgRegCmd b ok data near => Sys2Proof.Machine.execNrgRegCmd b ok data near s
  | .nrgFanCfg b => Sys2Proof.Machine.execNrgFanCfg b s
  | .nrgRead b => Sys2Proof.Machine.execNrgRead b s
  | .svpMaskedWrite src oe g value => Sys2Proof.Machine.execSvpMaskedWrite src oe g value s
  | .pinSwitchEnd pin => Sys2Proof.Machine.execPinSwitchEnd pin s
  | .refOkLoss missing range => Sys2Proof.Machine.execRefOkLoss missing range s
  | .uartByteReceive port byte => Sys2Proof.Machine.execUartByteReceive port byte s
  | .pinInfo b => Sys2Proof.Machine.execPinInfo b s
  | .pinConfig b => Sys2Proof.Machine.execPinConfig b s
  | .pinRefCfg b => Sys2Proof.Machine.execPinRefCfg b s
  | .pinTwXfer b outcome data => Sys2Proof.Machine.execPinTwXfer b outcome data s
  | .pinSpiXfer b data => Sys2Proof.Machine.execPinSpiXfer b data s
  | .pinUartCfg b => Sys2Proof.Machine.execPinUartCfg b s
  | .pinUartIo b => Sys2Proof.Machine.execPinUartIo b s
  | .dbgClaim => Sys2Proof.Machine.execDbgClaim s
  | .dbgRelease => Sys2Proof.Machine.execDbgRelease s
  | .dbgclaim shift => Sys2Proof.Machine.execDbgclaim shift s
  | .dbgacc op off data => Sys2Proof.Machine.execDbgacc op off data s
  | .trstN => Sys2Proof.Machine.execTrstN s
  | .dbgChallengeLapse => Sys2Proof.Machine.execDbgChallengeLapse s
  | .dbgInfo b => Sys2Proof.Machine.execDbgInfo b s
  | .dbgChallenge b => Sys2Proof.Machine.execDbgChallenge b s
  | .dbgUnlock b => Sys2Proof.Machine.execDbgUnlock b s
  | .dbgLock b => Sys2Proof.Machine.execDbgLock b s
  | .dbgRead b => Sys2Proof.Machine.execDbgRead b s
  | .dbgWrite b => Sys2Proof.Machine.execDbgWrite b s
  | .dbgTileRun b => Sys2Proof.Machine.execDbgTileRun b s
  | .dbgFreeze b => Sys2Proof.Machine.execDbgFreeze b s
  | .dbgAttach b => Sys2Proof.Machine.execDbgAttach b s
  | .dbgDieStop b => Sys2Proof.Machine.execDbgDieStop b s
  | .dbgWardenHalt b => Sys2Proof.Machine.execDbgWardenHalt b s
  | .dbgHaltReqWrite src g w bits => Sys2Proof.Machine.execDbgHaltReqWrite src g w bits s
  | .dbgResumeWrite src g w bits => Sys2Proof.Machine.execDbgResumeWrite src g w bits s
  | .dbgStepWrite src g w bits => Sys2Proof.Machine.execDbgStepWrite src g w bits s
  | .tileHalt g t => Sys2Proof.Machine.execTileHalt g t s
  | .crossTriggerPulse src g => Sys2Proof.Machine.execCrossTriggerPulse src g s
  | .dbgHostwdKick src key => Sys2Proof.Machine.execDbgHostwdKick src key s
  | .hostWatchdogHalf => Sys2Proof.Machine.execHostWatchdogHalf s
  | .hostWatchdogExpiry => Sys2Proof.Machine.execHostWatchdogExpiry s
  | .rasInfo b => Sys2Proof.Machine.execRasInfo b s
  | .rasInjEnable b => Sys2Proof.Machine.execRasInjEnable b s
  | .rasInjDisable b => Sys2Proof.Machine.execRasInjDisable b s
  | .rasInject b => Sys2Proof.Machine.execRasInject b s
  | .rasInjDisarm b => Sys2Proof.Machine.execRasInjDisarm b s
  | .rasInjRead b => Sys2Proof.Machine.execRasInjRead b s
  | .readyFlagSet source => Sys2Proof.Machine.execReadyFlagSet source s
  | .peerClockReturn die unit => Sys2Proof.Machine.execPeerClockReturn die unit s
  | .rcCounterRead src addr => Sys2Proof.Machine.execRcCounterRead src addr s
  | .prbsLockAcquired lane => Sys2Proof.Machine.execPrbsLockAcquired lane s
  | .prbsLockLost lane errors => Sys2Proof.Machine.execPrbsLockLost lane errors s
  | .alertNRise c => Sys2Proof.Machine.execAlertNRise c s
  | .perstNAssert => Sys2Proof.Machine.execPerstNAssert s
  | .timeSetNoEdge tb => Sys2Proof.Machine.execTimeSetNoEdge tb s
  | .esmcReceive index ql => Sys2Proof.Machine.execEsmcReceive index ql s
  | .pcieConfigurationRequest pf off write value => Sys2Proof.Machine.execPcieConfigurationRequest pf off write value s
  | .tapInstruction shift code boundary => Sys2Proof.Machine.execTapInstruction shift code boundary s

end Sys2Proof.Machine
end

