-- ==== Sys2Proof/Machine/TileWords.lean ====
section
/-!
DEFINITION. The word of each tile instruction, by the tables of 09 R279-R301, and the instruction that a word spells.
The meanings issue the same words; the reading of a word is written from the tables on its own.
-/
namespace Sys2Proof.Machine

/-- The tile that an instruction names, and the word that stands for it. -/
def tileWord : Instr → Option (Nat × Nat)
  | .nop t p => some (t, wordC p 0x00 0)
  | .add t p d a b => some (t, wordC p 0x01 (fmtCR d a b))
  | .sub t p d a b => some (t, wordC p 0x02 (fmtCR d a b))
  | .mul t p d a b => some (t, wordC p 0x03 (fmtCR d a b))
  | .min t p d a b => some (t, wordC p 0x04 (fmtCR d a b))
  | .max t p d a b => some (t, wordC p 0x05 (fmtCR d a b))
  | .and t p d a b => some (t, wordC p 0x06 (fmtCR d a b))
  | .or t p d a b => some (t, wordC p 0x07 (fmtCR d a b))
  | .xor t p d a b => some (t, wordC p 0x08 (fmtCR d a b))
  | .sll t p d a b => some (t, wordC p 0x09 (fmtCR d a b))
  | .srl t p d a b => some (t, wordC p 0x0A (fmtCR d a b))
  | .sra t p d a b => some (t, wordC p 0x0B (fmtCR d a b))
  | .slt t p d a b => some (t, wordC p 0x0C (fmtCR d a b))
  | .sltu t p d a b => some (t, wordC p 0x0D (fmtCR d a b))
  | .addi t p d a imm => some (t, wordC p 0x10 (fmtCI d a imm))
  | .andi t p d a imm => some (t, wordC p 0x11 (fmtCI d a imm))
  | .ori t p d a imm => some (t, wordC p 0x12 (fmtCI d a imm))
  | .xori t p d a imm => some (t, wordC p 0x13 (fmtCI d a imm))
  | .slli t p d a imm => some (t, wordC p 0x14 (fmtCI d a imm))
  | .srli t p d a imm => some (t, wordC p 0x15 (fmtCI d a imm))
  | .srai t p d a imm => some (t, wordC p 0x16 (fmtCI d a imm))
  | .li t p d imm => some (t, wordC p 0x17 (fmtCI d 0 imm))
  | .lui t p d imm => some (t, wordC p 0x18 (fmtCI d 0 imm))
  | .mts t p a => some (t, wordC p 0x1C (fmtCI 0 a 0))
  | .mfs t p d sel => some (t, wordC p 0x1D (fmtCI d 0 sel))
  | .vadd t p d a b => some (t, wordC p 0x20 (fmtCV d a b 0))
  | .vsub t p d a b => some (t, wordC p 0x21 (fmtCV d a b 0))
  | .vneg t p d a => some (t, wordC p 0x22 (fmtCV d a 0 0))
  | .vconj t p d a => some (t, wordC p 0x23 (fmtCV d a 0 0))
  | .vand t p d a b => some (t, wordC p 0x24 (fmtCV d a b 0))
  | .vor t p d a b => some (t, wordC p 0x25 (fmtCV d a b 0))
  | .vxor t p d a b => some (t, wordC p 0x26 (fmtCV d a b 0))
  | .vsrai t p d a sh => some (t, wordC p 0x27 (fmtCV d a 0 sh))
  | .vmov t p d a => some (t, wordC p 0x28 (fmtCV d a 0 0))
  | .vsplat t p d a => some (t, wordC p 0x29 (fmtCV d a 0 0))
  | .vext t p d a x => some (t, wordC p 0x2A (fmtCV d a 0 x))
  | .vins t p d a x => some (t, wordC p 0x2B (fmtCV d a 0 x))
  | .cmac t p k x w lane => some (t, wordC p 0x30 (fmtCM k x w lane))
  | .cmacz t p k x w lane => some (t, wordC p 0x31 (fmtCM k x w lane))
  | .cmacj t p k x w lane => some (t, wordC p 0x32 (fmtCM k x w lane))
  | .cmacjz t p k x w lane => some (t, wordC p 0x33 (fmtCM k x w lane))
  | .cmace t p k x w => some (t, wordC p 0x34 (fmtCM k x w 0))
  | .cmacez t p k x w => some (t, wordC p 0x35 (fmtCM k x w 0))
  | .narrow t p d k sh => some (t, wordC p 0x38 (fmtCN d k sh 0))
  | .narrows t p d k a => some (t, wordC p 0x39 (fmtCN d k 0 a))
  | .lw t r n am imm => some (t, wordM 0x01 (fmtML r n am imm))
  | .sw t r n am imm => some (t, wordM 0x02 (fmtML r n am imm))
  | .vld t r n am imm => some (t, wordM 0x03 (fmtML r n am imm))
  | .vst t r n am imm => some (t, wordM 0x04 (fmtML r n am imm))
  | .amov t kind n sc => some (t, wordM 0x08 (fmtMA kind n sc))
  | .aseti t kind n imm => some (t, wordM 0x09 (fmtMA kind n imm))
  | .astep t n imm => some (t, wordM 0x0A (fmtMA 0 n imm))
  | .mfa t kind n sc => some (t, wordM 0x0B (fmtMA kind n sc))
  | .b t cond a b target => some (t, wordM 0x10 (fmtMB cond a b target))
  | .jal t d target => some (t, wordM 0x11 (fmtMB 0 d 0 target))
  | .jr t a => some (t, wordM 0x12 (fmtMB 0 a 0 0))
  | .dbnz t a target => some (t, wordM 0x13 (fmtMB 0 a 0 target))
  | .rep t count => some (t, wordM 0x18 count)
  | .repr t a => some (t, wordM 0x19 a)
  | .lock t n => some (t, wordM 0x1A n)
  | .wait t timed => some (t, wordM 0x20 (b2n timed))
  | .exit t code => some (t, wordM 0x21 code)
  | .settmr t reg v => some (t, wordM 0x22 (b2n reg * 2 ^ 23 + v))
  | .kick t => some (t, wordM 0x23 0)
  | .fence t => some (t, wordM 0x24 0)
  | _ => none

/-- An instruction where the rest of its word is as the tables list it. -/
def whenOk (ok : Bool) (i : Instr) : Option Instr := if ok then some i else none

/-- The scalar instructions' words (R284, R285). -/
def scalarDecode (t w op : Nat) (p : Bool) : Option Instr :=
  let d := nfld w 23 20
  let a := nfld w 19 16
  let b := nfld w 15 12
  let imm := nfld w 15 0
  let cr := whenOk (zeroF w 11 0)
  match op with
  | 0x00 => whenOk (zeroF w 23 0) (.nop t p)
  | 0x01 => cr (.add t p d a b)
  | 0x02 => cr (.sub t p d a b)
  | 0x03 => cr (.mul t p d a b)
  | 0x04 => cr (.min t p d a b)
  | 0x05 => cr (.max t p d a b)
  | 0x06 => cr (.and t p d a b)
  | 0x07 => cr (.or t p d a b)
  | 0x08 => cr (.xor t p d a b)
  | 0x09 => cr (.sll t p d a b)
  | 0x0A => cr (.srl t p d a b)
  | 0x0B => cr (.sra t p d a b)
  | 0x0C => cr (.slt t p d a b)
  | 0x0D => cr (.sltu t p d a b)
  | 0x10 => some (.addi t p d a imm)
  | 0x11 => some (.andi t p d a imm)
  | 0x12 => some (.ori t p d a imm)
  | 0x13 => some (.xori t p d a imm)
  | 0x14 => whenOk (zeroF w 15 5) (.slli t p d a imm)
  | 0x15 => whenOk (zeroF w 15 5) (.srli t p d a imm)
  | 0x16 => whenOk (zeroF w 15 5) (.srai t p d a imm)
  | 0x17 => whenOk (zeroF w 19 16) (.li t p d imm)
  | 0x18 => whenOk (zeroF w 19 16) (.lui t p d imm)
  | 0x1C => whenOk (zeroF w 23 20 && zeroF w 15 0) (.mts t p a)
  | 0x1D => whenOk (zeroF w 19 16 && decide (imm ≤ 1)) (.mfs t p d imm)
  | _ => none

/-- The vector, multiply-accumulate and narrowing instructions' words (R290-R293). -/
def vectorDecode (t w op : Nat) (p : Bool) : Option Instr :=
  let d := nfld w 23 20
  let a := nfld w 19 16
  let b := nfld w 15 12
  let x := nfld w 3 0
  let k := nfld w 23 22
  let mx := nfld w 21 18
  let mw := nfld w 17 14
  let lane := nfld w 13 10
  let cm := whenOk (zeroF w 9 0)
  match op with
  | 0x20 => whenOk (zeroF w 11 0) (.vadd t p d a b)
  | 0x21 => whenOk (zeroF w 11 0) (.vsub t p d a b)
  | 0x22 => whenOk (zeroF w 15 0) (.vneg t p d a)
  | 0x23 => whenOk (zeroF w 15 0) (.vconj t p d a)
  | 0x24 => whenOk (zeroF w 11 0) (.vand t p d a b)
  | 0x25 => whenOk (zeroF w 11 0) (.vor t p d a b)
  | 0x26 => whenOk (zeroF w 11 0) (.vxor t p d a b)
  | 0x27 => whenOk (zeroF w 15 3) (.vsrai t p d a x)
  | 0x28 => whenOk (zeroF w 15 0) (.vmov t p d a)
  | 0x29 => whenOk (zeroF w 15 0) (.vsplat t p d a)
  | 0x2A => whenOk (zeroF w 15 4) (.vext t p d a x)
  | 0x2B => whenOk (zeroF w 15 4) (.vins t p d a x)
  | 0x30 => cm (.cmac t p k mx mw lane)
  | 0x31 => cm (.cmacz t p k mx mw lane)
  | 0x32 => cm (.cmacj t p k mx mw lane)
  | 0x33 => cm (.cmacjz t p k mx mw lane)
  | 0x34 => whenOk (zeroF w 13 0) (.cmace t p k mx mw)
  | 0x35 => whenOk (zeroF w 13 0) (.cmacez t p k mx mw)
  | 0x38 => whenOk (zeroF w 12 0) (.narrow t p d (nfld w 19 18) (nfld w 17 13))
  | 0x39 => whenOk (zeroF w 17 4) (.narrows t p d (nfld w 19 18) x)
  | _ => none

/-- The words of class M (R286-R288, R294, R297, R298). -/
def moveDecode (t w op : Nat) : Option Instr :=
  let r := nfld w 23 20
  let n := nfld w 19 17
  let am := nfld w 16 15
  let imm := nfld w 14 0
  let ml := whenOk (am ≠ 3 && (am ≠ 2 || zeroF w 14 4))
  let kind := nfld w 23 22
  let an := nfld w 21 19
  let a := nfld w 19 16
  let b := nfld w 15 12
  let target := nfld w 11 0
  match op with
  | 0x01 => ml (.lw t r n am imm)
  | 0x02 => ml (.sw t r n am imm)
  | 0x03 => ml (.vld t r n am imm)
  | 0x04 => ml (.vst t r n am imm)
  | 0x08 => whenOk (kind ≠ 3 && zeroF w 18 4) (.amov t kind an (nfld w 3 0))
  | 0x09 => whenOk (kind ≠ 3 && zeroF w 18 16) (.aseti t kind an (nfld w 15 0))
  | 0x0A => whenOk (zeroF w 23 22 && zeroF w 18 16) (.astep t an (nfld w 15 0))
  | 0x0B => whenOk (kind ≠ 3 && zeroF w 18 4) (.mfa t kind an (nfld w 3 0))
  | 0x10 => whenOk (decide (r ≤ 8) && (r ≠ 0 || a = 0) && ((r ≠ 0 && decide (r ≤ 6)) || b = 0)) (.b t r a b target)
  | 0x11 => whenOk (zeroF w 23 20 && zeroF w 15 12) (.jal t a target)
  | 0x12 => whenOk (zeroF w 23 20 && zeroF w 15 0) (.jr t a)
  | 0x13 => whenOk (zeroF w 23 20 && zeroF w 15 12) (.dbnz t a target)
  | 0x18 => whenOk (zeroF w 23 16) (.rep t (nfld w 15 0))
  | 0x19 => whenOk (zeroF w 23 4) (.repr t (nfld w 3 0))
  | 0x1A => whenOk (zeroF w 23 3 && decide (1 ≤ nfld w 2 0) && decide (nfld w 2 0 ≤ 4)) (.lock t (nfld w 2 0))
  | 0x20 => whenOk (zeroF w 23 1) (.wait t (w.testBit 0))
  | 0x21 => whenOk (zeroF w 23 8) (.exit t (nfld w 7 0))
  | 0x22 => if w.testBit 23 then whenOk (zeroF w 22 4) (.settmr t true (nfld w 3 0))
      else whenOk (zeroF w 22 20) (.settmr t false (nfld w 19 0))
  | 0x23 => whenOk (zeroF w 23 0) (.kick t)
  | 0x24 => whenOk (zeroF w 23 0) (.fence t)
  | _ => none

/-- The instruction that a word spells at a tile: bit 30 gives the class, bit 31 PAIR, which class M leaves clear. -/
def tileDecode (t w : Nat) : Option Instr :=
  let op := nfld w 29 24
  if w.testBit 30 then (if w.testBit 31 then none else moveDecode t w op)
  else if op < 0x20 then scalarDecode t w op (w.testBit 31) else vectorDecode t w op (w.testBit 31)

end Sys2Proof.Machine
end

