-- ==== Sys2Proof/Safety.lean ====
section
/-!
DEFINITION. What claims say of a step: which parts of the machine it leaves as they were, when the Warden serves a
command and what it answers, and the canonical form of every sparse table.
-/
namespace Sys2Proof.Machine

/-! ### Frames -/

/-- The command answers a next state of which the property holds. -/
abbrev Does (c : Instr) (s : State) (p : State → Prop) : Prop := ∃ t : State, exec c s = .next t ∧ p t

/-- The parts of the machine, one per field of State but the queue. -/
inductive Part where
  | regs | mem | pkg | ward | clk | cfg | fab | bough | links | rmc | dram | tiles | dsp | xlt | porters | moverLast
  | lan | tu | tal | pins | dbg | ras | net | fresh
  deriving DecidableEq, Repr

/-- A part is the same in two states. -/
def Part.Same (p : Part) (s t : State) : Prop :=
  match p with
  | .regs => t.regs = s.regs
  | .mem => t.mem = s.mem
  | .pkg => t.pkg = s.pkg
  | .ward => t.ward = s.ward
  | .clk => t.clk = s.clk
  | .cfg => t.cfg = s.cfg
  | .fab => t.fab = s.fab
  | .bough => t.bough = s.bough
  | .links => t.links = s.links
  | .rmc => t.rmc = s.rmc
  | .dram => t.dram = s.dram
  | .tiles => t.tiles = s.tiles
  | .dsp => t.dsp = s.dsp
  | .xlt => t.xlt = s.xlt
  | .porters => t.porters = s.porters
  | .moverLast => t.moverLast = s.moverLast
  | .lan => t.lan = s.lan
  | .tu => t.tu = s.tu
  | .tal => t.tal = s.tal
  | .pins => t.pins = s.pins
  | .dbg => t.dbg = s.dbg
  | .ras => t.ras = s.ras
  | .net => t.net = s.net
  | .fresh => t.fresh = s.fresh

/-- Everything but the listed parts is as it was; the queue of waiting commands too. -/
def KeepsBut (l : List Part) (s t : State) : Prop := t.pending = s.pending ∧ ∀ p : Part, p ∉ l → p.Same s t

/-- Every register but those of a set holds what it held. -/
def RegsBut (f : Nat → Prop) (s t : State) : Prop := ∀ a : Nat, ¬ f a → rd t a = rd s a

/-- The registers that raising an event writes: the ring's producer, its interrupt, and the counts of lost events
(02 R62). -/
def eventReg (a : Nat) : Prop := a = evtProd ∨ a = evtIrq ∨ a = evtLost ∨ a = evtLostGroups

/-- Raising events and writing the registers of a set is all that happened: the parts listed and the ring apart. -/
def OnlyRegs (f : Nat → Prop) (l : List Part) (s t : State) : Prop :=
  KeepsBut (.regs :: .ward :: l) s t ∧ RegsBut (fun a => f a ∨ eventReg a) s t

/-- An event with a code and first detail word stands on the ring, or among the events held during a takeover. -/
def EventPlaced (t : State) (code : Nat) (d : Word) : Prop :=
  ∃ e : EvtEntry, ((∃ k : Nat, sget none t.ward.ring k = some e) ∨ e ∈ t.ward.heldEvents)
    ∧ e.code = code ∧ e.detail.head? = some d

/-- An event of a severity is generated and finds room (02 R62, R64). -/
abbrev EventFits (s : State) (code sev : Nat) : Prop :=
  generated s code sev = true ∧ (s.ward.takeover = true ∨ sysState s = 0x13 ∨ (s.ward.lostCount = 0 ∧ ringCount s < 256))

/-- A register write reaches the block: the package is out of reset, the die alive, the block not reset and not gated
(03 R88, R89). -/
abbrev BlockOpen (s : State) (die blk : Nat) : Prop :=
  s.pkg.held = false ∧ dieAlive s die = true ∧ shut s die blk = false

/-! ### Commands of the booths (02 R53-R60) -/

/-- The Warden is about to perform a command of booth `b` with this opcode and these arguments, DRY_RUN clear, in the
system state RUN. -/
abbrev Serving (s : State) (b op : Nat) (args : List Word) : Prop :=
  (nextWaiting s).map (fun t => (t.booth, t.op, t.args, t.flags)) = some (b, op, args, 0)
    ∧ s.ward.takeover = false ∧ wardenDown s = false ∧ sysState s = 0x11

/-- The command of booth `b` has its response: status, detail and payload. -/
def Answered (t : State) (b status detail : Nat) (payload : List Word) : Prop :=
  ∃ k : Taken, t.ward.taken.find? (fun k => k.booth = b) = some k ∧ k.phase = .answered ∧ k.status = status
    ∧ k.detail = detail ∧ k.resp = payload

/-- The command of booth `b` has begun, and a later step answers it. -/
def Begun (t : State) (b : Nat) : Prop :=
  ∃ k : Taken, t.ward.taken.find? (fun k => k.booth = b) = some k ∧ k.phase = .running

/-- Nothing but the response of a booth's command changed. -/
def OnlyAnswer (s t : State) : Prop :=
  KeepsBut [.ward] s t ∧ t.ward = { s.ward with taken := t.ward.taken }

/-- The commands of the booths that support DRY_RUN (02 R53), with every operand a step gives them. -/
inductive SupportsDryRun (b : Nat) : Instr → Prop where
  | clkSelect : SupportsDryRun b (.clkSelect b)
  | clkFulSet : SupportsDryRun b (.clkFulSet b)
  | cfgHeader : SupportsDryRun b (.cfgHeader b)
  | cfgLoad : SupportsDryRun b (.cfgLoad b [] [] 0)
  | flowOpen : SupportsDryRun b (.flowOpen b)
  | timeSet : SupportsDryRun b (.timeSet b)
  | timeSource : SupportsDryRun b (.timeSource b)
  | timePtpPort : SupportsDryRun b (.timePtpPort b)
  | timeEnsembleCfg : SupportsDryRun b (.timeEnsembleCfg b)
  | nrgPlan : SupportsDryRun b (.nrgPlan b)
  | memConfig : SupportsDryRun b (.memConfig b)
  | memRegionSetupSet : SupportsDryRun b (.memRegionSetup b true)
  | memRegionSetupFailed : SupportsDryRun b (.memRegionSetup b false)
  | rasInject : SupportsDryRun b (.rasInject b)
  | pinConfig : SupportsDryRun b (.pinConfig b)
  | lanePortConfig : SupportsDryRun b (.lanePortConfig b)

/-! ### Words of the tiles (08 R247-R250) -/

/-- A word stands at the PC of a tile that may issue it. A locked sequence, if any, goes on after it. -/
abbrev AtPc (s : State) (t w : Nat) : Prop :=
  mayIssue s t = true ∧ progWord s t (tileAt s t).pc = w ∧ ((tileAt s t).locked = false ∨ 1 < (tileAt s t).lock)

/-- The first word of a unit stands at the PC; with PAIR a class-M word follows it. -/
abbrev AtPcC (s : State) (t : Nat) (pair : Bool) (w : Nat) : Prop :=
  AtPc s t w ∧ (tileAt s t).paired = false
    ∧ (pair = true → (tileAt s t).pc < 4095 ∧ classM (progWord s t ((tileAt s t).pc + 1)) = true)

/-- The tile in the issue cycle of the unit at its PC. -/
def inIssue (s : State) (t : Nat) : Tile := tileAt (beginUnit t s) t

/-- The results that a word adds to those in flight. -/
def Gives (s u : State) (t : Nat) (l : List Result) : Prop := (tileAt u t).results = (inIssue s t).results ++ l

/-- A result that becomes visible after a number of delay cycles. -/
def tileResult (s : State) (t reg val : Nat) (taint : Bool) (delay : Nat) : Result :=
  { reg := reg, val := val, taint := taint, due := (inIssue s t).cyc + 1 + delay }

/-- The result of an operation under SAT, and OVF where the exact result is out of range. -/
def satResults (s : State) (t reg val : Nat) (taint ovf : Bool) (delay : Nat) : List Result :=
  tileResult s t reg val taint delay
    :: (if ovf then [{ tileResult s t rSt 0 taint delay with ovf := true }] else [])

/-- The result of a post-modify. -/
def postResults (s : State) (t : Nat) : Option (Nat × Nat × Bool) → List Result
  | some (r, v, k) => [tileResult s t r v k 0]
  | none => []

/-- A register in a list is tainted, or the unit issues under CTAINT (R263). -/
def Tile.taints (x : Tile) (l : List Nat) : Bool := l.any (fun r => x.tnt r) || x.ctaint

/-- Only tile `t`, the cycle counts of its grove's energy classes and the listed parts changed. -/
def TileOnly (l : List Part) (s u : State) (t : Nat) : Prop :=
  (∀ k : Nat, k ≠ t → tileAt u k = tileAt s k) ∧ KeepsBut (.regs :: .tiles :: l) s u
    ∧ RegsBut (fun a => dspBlk (t / 512) + 0x80 ≤ a ∧ a < dspBlk (t / 512) + 0xC0) s u

/-- A word has issued: its unit has ended, or its class-M word is to come. Outside delay slots and repetitions PC
names the next word. -/
def WordDone (l : List Part) (s u : State) (t : Nat) (pair : Bool) : Prop :=
  (tileAt u t).paired = pair ∧ (tileAt u t).begun = pair ∧ (tileAt u t).regs = (inIssue s t).regs
    ∧ ((tileAt s t).slots = 0 → (tileAt s t).rep = 0 → (tileAt u t).pc = ((tileAt s t).pc + 1) % 4096)
    ∧ (tileAt u t).state = 0x71 ∧ TileOnly l s u t

/-- What every step keeps: registers and tile memory in canonical form, and at most 8 commands in TAKEN (02 R48). -/
def Formed (s : State) : Prop := regsWf s.regs ∧ Memory.wf s.mem = true ∧ s.ward.taken.length ≤ 8

/-- Commands that check a state machine of their own, each with its opcode and the legal states (02 R57). -/
inductive ChecksState (b : Nat) : Instr → Nat → List Nat → Prop where
  | sysFwStage : ChecksState b (.sysFwStage b) 0x0103 [0x11, 0x15]
  | sysFwSwitch : ChecksState b (.sysFwSwitch b) 0x0104 [0x11]
  | sysFwRevert : ChecksState b (.sysFwRevert b) 0x0106 [0x14]
  | clkFulSet : ChecksState b (.clkFulSet b) 0x0203 [0x30, 0x34]
  | clkGate : ChecksState b (.clkGate b) 0x0204 [0x30, 0x31]
  | clkPowerState : ChecksState b (.clkPowerState b) 0x0205 [0x30, 0x31, 0x32]
  | clkDieReset : ChecksState b (.clkDieReset b) 0x0206 [0x30, 0x31, 0x32, 0x34, 0x35]
  | cfgRelease : ChecksState b (.cfgRelease b) 0x0304 [0x42]
  | cfgSwap : ChecksState b (.cfgSwap b) 0x0305 [0x45]
  | cfgRollback : ChecksState b (.cfgRollback b) 0x0306 [0x43]
  | cfgClear : ChecksState b (.cfgClear b) 0x0307 [0x42, 0x43, 0x45, 0x46]
  | flowClose : ChecksState b (.flowClose b) 0x0403 [0x51, 0x52]
  | flowStation : ChecksState b (.flowStation b) 0x0405 [0x30]
  | flowRouteWrite : ChecksState b (.flowRouteWrite b) 0x0406 [0x30, 0x34]
  | timeSet : ChecksState b (.timeSet b) 0x0502 [0xC0, 0xC1, 0xC6]
  | timeAdjust : ChecksState b (.timeAdjust b) 0x0503 [0xC1, 0xC6]
  | timeTwinSwitch : ChecksState b (.timeTwinSwitch b) 0x0505 [0xC3]
  | timeHost : ChecksState b (.timeHost b) 0x0506 [0xC1, 0xC2, 0xC3, 0xC4, 0xC5]
  | memConfig : ChecksState b (.memConfig b) 0x0702 [0x90, 0x91, 0x95]
  | memTrain : ChecksState b (.memTrain b) 0x0703 [0x91, 0x95]
  | memScrub : ChecksState b (.memScrub b) 0x0705 [0x93, 0x94]
  | memDisable : ChecksState b (.memDisable b) 0x0707 [0x91, 0x93, 0x95]
  | memRegionClear : ChecksState b (.memRegionClear b) 0x0783 [0xA1, 0xA2, 0xA3]
  | memRekeySubtree : ChecksState b (.memRekeySubtree b) 0x0784 [0xA2, 0xA3]
  | rasInjEnable : ChecksState b (.rasInjEnable b) 0x0802 [0xE0]
  | rasInjDisable : ChecksState b (.rasInjDisable b) 0x0803 [0xE1]
  | rasInject : ChecksState b (.rasInject b) 0x0804 [0xE1]
  | rasInjDisarm : ChecksState b (.rasInjDisarm b) 0x0805 [0xE1]
  | setPrepare : ChecksState b (.setPrepare b) 0x0902 [0x20]
  | setConfirm : ChecksState b (.setConfirm b true) 0x0903 [0x21]
  | setCancel : ChecksState b (.setCancel b) 0x0904 [0x21]
  | dbgChallenge : ChecksState b (.dbgChallenge b) 0x0A02 [0xD0, 0xD2, 0xD3]
  | dbgDieStop : ChecksState b (.dbgDieStop b) 0x0A0A [0xD3]
  | dbgWardenHalt : ChecksState b (.dbgWardenHalt b) 0x0A0B [0xD3]
  | laneTest : ChecksState b (.laneTest b) 0x0C05 [0xB0, 0xB2]
  | lanePrbsRead : ChecksState b (.lanePrbsRead b 0) 0x0C06 [0xB2]
  | laneLrlSet : ChecksState b (.laneLrlSet b) 0x0C02 [0x30, 0x34]
  | laneTrimTry : ChecksState b (.laneTrimTry b) 0x0C0E [0x30, 0x34]

end Sys2Proof.Machine
end

