-- ==== Sys2Proof/Certificates/Slice0/Obligations.lean ====
section
/-!
DEFINITION. The statements about the device for the provers, by family of commands.
-/

open Sys2Proof Sys2Proof.Machine

/-! ### Steps -/

/-- A step performs the command at the front of the queue, on the state with the queue's rest. -/
def Obligations.CommandAtFrontIsPerformed : Prop :=
  ∀ (c : Instr) (rest : List Instr) (s : State), step { s with pending := c :: rest } = exec c { s with pending := rest }

/-- An idle step counts one cycle of CK_TIME (model's choice, log 2): TICK, each time base and its twin. -/
def Obligations.IdleStepCountsTime : Prop :=
  ∀ s : State, s.pending = [] →
    (s.pkg.held = true → step s = .next s) ∧
    (s.pkg.held = false → (∀ d : Nat, d < 16 → ∀ n : Nat, n < 12 → injArmed s d n = false) → rdB s hostCtrl 31 = false → swf ({} : TimeBase) s.tu.tbs = true →
      ∃ t : State, step s = .next t ∧ t.tu.tick = s.tu.tick + 1
        ∧ (∀ n : Nat, (tbAt t n).core = (tbAt s n).core.advN 1 ∧ (tbAt t n).twin = (tbAt s n).twin.advN 1)
        ∧ t.net = s.net ∧ t.ward.taken = s.ward.taken)

/-! ### Package and host link (01, 03 R87-R91, 04 R98) -/

/-- The package reset holds, resets every register but two, and keeps OTP and flash (03 R91); a rail below tolerance
or out of order holds it (01 R18). -/
def Obligations.PackageResetResetsAllButOtp : Prop :=
  (∀ (s : State) (cause : Nat), Does (.packageReset cause) s (fun t =>
    t.pkg.held = true ∧ (s.pkg.held = false → t.pkg.causes = 2 ^ (cause % 4))
    ∧ (∀ a : Nat, a ≠ wdnBase + 0x14 → a ≠ clkBase + 0x100 → (∀ g : Nat, g < 8 → a ≠ cfgGrv g + 0x11C) → rd t a = regReset a)
    ∧ rdB t (wdnBase + 0x14) 0 = rdB s (wdnBase + 0x14) 0 ∧ rdF t (clkBase + 0x100) 3 0 = rdF s (clkBase + 0x100) 3 0
    ∧ t.ward.setVal = s.ward.setVal ∧ t.ward.setUsed = s.ward.setUsed ∧ t.ward.audit = s.ward.audit
    ∧ t.fab.nvmCount = s.fab.nvmCount ∧ (s.fab.nvmPorts = [] → t.fab.nvm = s.fab.nvm) ∧ t.mem = [] ∧ t.tiles = [] ∧ t.net = [] ∧ t.pending = s.pending)) ∧
  (∀ s : State, Does .railBelowTolerance s (fun t =>
    t.pkg.held = true ∧ (∀ a : Nat, a ≠ wdnBase + 0x14 → a ≠ clkBase + 0x100 → (∀ g : Nat, g < 8 → a ≠ cfgGrv g + 0x11C) → rd t a = regReset a)
    ∧ rdB t (wdnBase + 0x14) 0 = rdB s (wdnBase + 0x14) 0 ∧ t.pending = s.pending)) ∧
  (∀ s : State, Does .railOrderViolation s (fun t =>
    t.pkg.held = true ∧ rdB t (wdnBase + 0x14) 0 = true
    ∧ (∀ a : Nat, a ≠ wdnBase + 0x14 → a ≠ clkBase + 0x100 → (∀ g : Nat, g < 8 → a ≠ cfgGrv g + 0x11C) → rd t a = regReset a) ∧ t.pending = s.pending))

/-- PERST_N, configuration writes and the aperture (03 R87; 04 R99; 01 R36, R37); the package reset released: straps, supply
and causes sampled, SRL locked, boot step 4. -/
def Obligations.ResetReleaseAndHostLink : Prop :=
  ((∀ s : State, Does .perstNRise s (fun t => t.pkg.perst = true ∧ t.pkg.endpointUp = !s.pkg.held ∧ KeepsBut [.pkg] s t)) ∧
    (∀ s : State, Does .perstNAssert s (fun t => t.pkg.perst = false ∧ t.pkg.endpointUp = false ∧ t.pkg.busMaster0 = false
      ∧ t.pkg.busMaster1 = false ∧ t.pkg.held = s.pkg.held ∧ KeepsBut [.pkg] s t)) ∧
    (∀ (s : State) (v : Word), s.pkg.endpointUp = true →
      Does (.pcieConfigurationRequest 0 4 true v) s (fun t => t.pkg.busMaster0 = bit v 2 ∧ t.pkg.busMaster1 = s.pkg.busMaster1
        ∧ KeepsBut [.pkg] s t) ∧
      Does (.pcieConfigurationRequest 1 4 true v) s (fun t => t.pkg.busMaster1 = bit v 2 ∧ t.pkg.busMaster0 = s.pkg.busMaster0
        ∧ KeepsBut [.pkg] s t)) ∧
    (∀ (s : State) (base : Nat), base < 2 ^ 18 →
      Does (.wdnApertureWrite 0 base) s (fun t => t.pkg.base0 = base ∧ t.pkg.base1 = s.pkg.base1 ∧ KeepsBut [.pkg] s t) ∧
      Does (.wdnApertureWrite 1 base) s (fun t => t.pkg.base1 = base ∧ t.pkg.base0 = s.pkg.base0 ∧ KeepsBut [.pkg] s t))) ∧
  (∀ (s : State) (straps : Nat) (v33 : Bool) (p b : List Word), s.pkg.held = true →
      Does (.packageResetRelease straps v33 p b) s (fun t =>
        t.pkg.held = false ∧ t.pkg.endpointUp = s.pkg.perst ∧ rd t (clkBase + 0x100) = word (s.pkg.causes % 16)
        ∧ rdF t (wdnBase + 0x10) 15 0 = straps % 65536
        ∧ rdB t (wdnBase + 0x10) 16 = (nfld straps 8 7 = 3 || nfld straps 10 9 = 3)
        ∧ rdB t (wdnBase + 0x14) 1 = v33 ∧ rdB t (wdnBase + 0x14) 2 = (setVal s 8 = 1)
        ∧ rdB t clkReady 0 = true ∧ rdB t clkReady 1 = true ∧ rdB t clkReady 4 = true ∧ bootStep t = 4))

/-- BOOT: the BOOT slot when valid, else the other when STAGED and valid, else SAFE (02 R65-R67). -/
def Obligations.BootSlotStartsFirmware : Prop :=
  ∀ s : State, sysState s = 0x10 → s.pkg.held = false → bootStep s = 5 → trialSlot s = none →
    (∀ n : Nat, n < 2 → bootSlot s = n → (slotAt s n).state = 3 → slotValid s (slotAt s n) = true →
      Does .bootSlotStart s (fun t => sysState t = 0x11 ∧ bootStep t = 6 ∧ t.ward.runVersion = (slotAt s n).version
        ∧ slotAt t 0 = slotAt s 0 ∧ slotAt t 1 = slotAt s 1 ∧ KeepsBut [.regs, .ward] s t)) ∧
    (∀ n : Nat, n < 2 → bootSlot s = n → slotValid s (slotAt s n) = false → (slotAt s (1 - n)).state = 1 →
      slotValid s (slotAt s (1 - n)) = true →
      Does .bootSlotStart s (fun t => sysState t = 0x11 ∧ bootStep t = 6 ∧ (slotAt t (1 - n)).state = 3
        ∧ t.ward.runVersion = (slotAt s (1 - n)).version ∧ KeepsBut [.regs, .ward] s t)) ∧
    (slotValid s (slotAt s 0) = false → slotValid s (slotAt s 1) = false →
      Does .bootSlotStart s (fun t => sysState t = 0x15 ∧ t.ward.runVersion = s.ward.runVersion ∧ KeepsBut [.regs, .ward] s t))

/-- Accesses: unmapped and denied ones counted (01 R27, R35); RW, W1C and RC bits of a register as their codes say
(00 R5-R9). -/
def Obligations.HostAccessesCountedAndPerformed : Prop :=
  (∀ (s : State) (st a : Nat), st < 4096 → mapped s a = false →
    Does (.unmappedAccess st a) s (fun t => rd t (wdnBase + 0x18) = satInc (rd s (wdnBase + 0x18))
      ∧ rd t (wdnBase + 0x1C) = lo32 a ∧ rd t (wdnBase + 0x20) = word (a / 2 ^ 32 % 65536 + st * 65536)
      ∧ KeepsBut [.regs] s t ∧ RegsBut (fun x => x = wdnBase + 0x18 ∨ x = wdnBase + 0x1C ∨ x = wdnBase + 0x20) s t)) ∧
  (∀ (s : State) (a : Nat), pfReaches 1 a = false →
    Does (.pfDeniedAccess a) s (fun t => rd t (wdnBase + 0x24) = satInc (rd s (wdnBase + 0x24))
      ∧ KeepsBut [.regs] s t ∧ RegsBut (fun x => x = wdnBase + 0x24) s t)) ∧
  (∀ (s : State) (src : Writer) (b : Nat) (v : Word), s.pkg.held = false → b < 63 → src = .host (if b < 16 then 0 else 1) →
    boothAllows s src b = true → s.dbg.stoppedDies = [] →
    Does (.registerWrite src (boothSlot b + 0x10) 4 v) s (fun t => rd t (boothSlot b + 0x10) = v &&& 0xFFFFFFFC
      ∧ KeepsBut [.regs] s t ∧ RegsBut (fun x => x = boothSlot b + 0x10) s t) ∧
    Does (.registerWrite src (boothSlot b + 0xC) 4 v) s (fun t => rd t (boothSlot b + 0xC) = rd s (boothSlot b + 0xC) &&& ~~~ (v &&& 7)
      ∧ KeepsBut [.regs] s t ∧ RegsBut (fun x => x = boothSlot b + 0xC) s t)) ∧
  (∀ s : State, s.pkg.held = false → s.dbg.stoppedDies = [] →
    Does (.rcCounterRead (.host 0) (wdnBase + 0x18)) s (fun t => rd t (wdnBase + 0x18) = 0
      ∧ KeepsBut [.regs] s t ∧ RegsBut (fun x => x = wdnBase + 0x18) s t) ∧
    exec (.rcCounterRead (.host 0) (wdnBase + 0x800018)) s = .next s)

/-! ### Booths and events (02) -/

/-- The handshake of a booth (02 R46, R47), and writers without authority (R50). -/
def Obligations.BoothHandshake : Prop :=
  ∀ (s : State) (src : Writer) (b : Nat), s.pkg.held = false → b < 63 →
    (boothAllows s src b = true →
      (∀ (off : Nat) (v : Word), off % 4 = 0 → off < 16384 →
        (boothState s b = 0 → Does (.boothAreaWrite src b off v) s (fun t =>
          reqWord t b (off / 4) = v ∧ (∀ k i : Nat, i < 4096 → (k ≠ b ∨ i ≠ off / 4) → reqWord t k i = reqWord s k i)
          ∧ KeepsBut [.ward] s t)) ∧
        (boothState s b ≠ 0 → Does (.boothAreaWrite src b off v) s (fun t =>
          rdB t (boothSlot b + 0xC) 1 = true ∧ t.ward = s.ward ∧ KeepsBut [.regs] s t
          ∧ RegsBut (fun a => a = boothSlot b + 0xC) s t))) ∧
      (boothState s b = 0 → wardenDown s = false → Does (.boothPost src b) s (fun t =>
        boothState t b = 1 ∧ rdF t (boothSlot b) 31 16 = fld (reqWord s b 0) 31 16 ∧ t.ward.posted = s.ward.posted ++ [b]
        ∧ t.ward.taken = s.ward.taken ∧ KeepsBut [.regs, .ward] s t ∧ RegsBut (fun a => a = boothSlot b) s t)) ∧
      (boothState s b ≠ 0 → Does (.boothPost src b) s (fun t => rdB t (boothSlot b + 0xC) 0 = true ∧ KeepsBut [.regs] s t
        ∧ RegsBut (fun a => a = boothSlot b + 0xC) s t)) ∧
      (boothState s b = 3 → Does (.boothRelease src b) s (fun t => boothState t b = 0 ∧ rdB t (boothSlot b + 8) 0 = false
        ∧ KeepsBut [.regs, .ward] s t ∧ RegsBut (fun a => a = boothSlot b ∨ a = boothSlot b + 8) s t)) ∧
      (boothState s b ≠ 3 → Does (.boothRelease src b) s (fun t => rdB t (boothSlot b + 0xC) 0 = true ∧ KeepsBut [.regs] s t
        ∧ RegsBut (fun a => a = boothSlot b + 0xC) s t))) ∧
    (boothAllows s src b = false → Does (.boothPost src b) s (fun t =>
      rdB t (boothSlot b + 0xC) 2 = true ∧ rd t (boothWin + 0x400008) = satInc (rd s (boothWin + 0x400008))
      ∧ rdF t (boothWin + 0x40000C) 5 0 = b ∧ KeepsBut [.regs] s t
      ∧ RegsBut (fun a => a = boothSlot b + 0xC ∨ a = boothWin + 0x400008 ∨ a = boothWin + 0x40000C) s t))

/-- WARDEN_TAKE and WARDEN_COMPLETE (02 R46-R49, R56); CONS and lost events (02 R61, R62). -/
def Obligations.WardenTakesCompletesAndReports : Prop :=
  ((∀ (s : State) (b : Nat) (l : List Nat), s.ward.posted = b :: l → s.dbg.wardenHalted = false → s.ward.taken.length < 8 →
      sysState s ≠ 0x10 → sysState s ≠ 0x13 → s.ward.takeover = false → wardenDown s = false →
      Does .wardenTake s (fun t => boothState t b = 2 ∧ b ∉ t.ward.posted ∧ (∃ k : Taken, t.ward.taken = s.ward.taken ++ [k]
        ∧ k.booth = b ∧ k.op = fld (reqWord s b 0) 15 0 ∧ k.seq = fld (reqWord s b 0) 31 16
        ∧ (knownOp (fld (reqWord s b 0) 15 0) = false → k.phase = .answered ∧ k.status = 1 ∧ k.detail = 0))
        ∧ KeepsBut [.regs, .ward] s t ∧ RegsBut (fun a => a = boothSlot b) s t)) ∧
    (∀ (s : State) (b : Nat) (k : Taken), b < 63 → s.ward.taken = [k] → k.booth = b → k.phase = .answered →
      k.flags.testBit 0 = false → s.ward.takeover = false → s.dbg.wardenHalted = false → rdB s (boothSlot b) 7 = false →
      rdB s (boothSlot b + 8) 1 = false →
      Does (.wardenComplete b) s (fun t => boothState t b = 3 ∧ rdB t (boothSlot b + 8) 0 = true
        ∧ rd t (boothSlot b + 0x18) = satInc (rd s (boothSlot b + 0x18)) ∧ t.ward.taken = []
        ∧ sget [] t.ward.resp b = respWords k.status k.state k.seq k.detail k.resp ∧ KeepsBut [.regs, .ward] s t
        ∧ RegsBut (fun a => a = boothSlot b ∨ a = boothSlot b + 8 ∨ a = boothSlot b + 0x18) s t))) ∧
  ((∀ (s : State) (c : Nat), s.pkg.held = false → c < 65536 →
      ((c + 65536 - rdF s evtCons 15 0) % 65536 ≤ ringCount s → Does (.evtConsWrite (.host 0) c) s (fun t =>
        rdF t evtCons 15 0 = c ∧ KeepsBut [.regs] s t ∧ RegsBut (fun a => a = evtCons) s t)) ∧
      (ringCount s < (c + 65536 - rdF s evtCons 15 0) % 65536 → Does (.evtConsWrite (.host 0) c) s (fun t =>
        rdB t evtIrq 2 = true ∧ KeepsBut [.regs] s t ∧ RegsBut (fun a => a = evtIrq) s t))) ∧
    (∀ s : State, s.ward.takeover = false → sysState s ≠ 0x13 → s.ward.lostCount ≠ 0 → ringCount s < 256 →
      Does .sysEventsLost s (fun t => t.ward.lostCount = 0 ∧ rdF t evtProd 15 0 = (rdF s evtProd 15 0 + 1) % 65536
        ∧ (∃ e : EvtEntry, sget none t.ward.ring (rdF s evtProd 15 0 % 256) = some e ∧ e.code = 0x0101
            ∧ e.detail.head? = some (word s.ward.lostCount))
        ∧ KeepsBut [.regs, .ward] s t ∧ RegsBut eventReg s t)))

/-- Pairs of the Warden (02 R41-R44; 18 R553; 19 R568). -/
def Obligations.WardenPairsFailOver : Prop :=
  ∀ s : State, s.pkg.held = false → wardenDown s = false → s.ward.takeover = false →
    (∀ p : Nat, p < 2 → activePair s = p → pairRole s p = .active → pairRole s (1 - p) = .standby →
      Does (.lockstepMismatch p) s (fun t => pairRole t p = .fenced ∧ pairRole t (1 - p) = .active ∧ activePair t = 1 - p
        ∧ t.ward.takeover = true ∧ rd t (boothWin + 0x400004) = satInc (rd s (boothWin + 0x400004)) ∧ t.ward.taken = s.ward.taken) ∧
      Does (.lockstepMismatch (1 - p)) s (fun t => pairRole t (1 - p) = .fenced ∧ pairRole t p = .active ∧ activePair t = p
        ∧ rdB t wardStatus 1 = false ∧ t.ward.taken = s.ward.taken) ∧
      (s.dbg.wardenHalted = false → Does .wardenWatchdogExpiry s (fun t => pairRole t p = .fenced
        ∧ pairRole t (1 - p) = .active ∧ activePair t = 1 - p ∧ t.ward.takeover = true ∧ rdF t (dbgBase + 0x14) 15 0 = 50000)) ∧
      (injArmed s 0 2 = false → ∀ i : Nat, Does (.wardenSramUncorrectable p i true) s (fun t => pairRole t p = .fenced
          ∧ pairRole t (1 - p) = .active ∧ t.ras.sramUncorr = s.ras.sramUncorr + 1) ∧
        Does (.wardenSramUncorrectable p i false) s (fun t => pairRole t p = .active ∧ pairRole t (1 - p) = .standby
          ∧ t.ras.sramCorr = s.ras.sramCorr + 1 ∧ KeepsBut [.regs, .ward, .ras] s t ∧ RegsBut eventReg s t))) ∧
    (∀ p : Nat, p < 2 → activePair s = 1 - p → pairRole s p = .fenced → pairRole s (1 - p) = .active →
      Does (.pairSelfTestDone p true) s (fun t => pairRole t p = .standby ∧ rdB t wardStatus 1 = true ∧ pairRole t (1 - p) = .active
        ∧ KeepsBut [.regs, .ward] s t ∧ RegsBut (fun a => a = wardStatus ∨ eventReg a) s t) ∧
      Does (.pairSelfTestDone p false) s (fun t => pairRole t p = .failed ∧ pairRole t (1 - p) = .active
        ∧ KeepsBut [.regs, .ward] s t ∧ RegsBut eventReg s t)) ∧
    Does .takeoverResume { s with ward := { s.ward with takeover := true } } (fun t => t.ward.takeover = false
      ∧ t.ward.heldEvents = [] ∧ t.ward.taken = s.ward.taken ∧ KeepsBut [.regs, .ward] s t ∧ RegsBut eventReg s t)

/-- A command with DRY_RUN set changes nothing but its response (02 R53, R58). -/
def Obligations.DryRunChangesOnlyTheAnswer : Prop :=
  ∀ (s : State) (b : Nat) (k : Taken), nextWaiting s = some k → k.booth = b → k.flags.testBit 1 = true →
    ∀ c : Instr, SupportsDryRun b c → Does c s (fun t => OnlyAnswer s t)

/-- WRONG_STATE (02 R56 check 4, R57, R71): the state code is reported, nothing else changes. -/
def Obligations.IllegalStateIsAnsweredWrongState : Prop :=
  ∀ (s : State) (b op : Nat) (c : Instr) (legal : List Nat) (args : List Word), ChecksState b c op legal →
    (Serving s b op args →
      (∀ code : Nat, codeOf op ⟨b, 0, args⟩ s = some code → legal.contains code = false →
        Does c s (fun t => Answered t b 3 0 [] ∧ OnlyAnswer s t
          ∧ ∀ k ∈ t.ward.taken, k.booth = b → k.phase = .answered → k.status = 3 → k.state = code))) ∧
    ((nextWaiting s).map (fun k => (k.booth, k.op, k.args, k.flags)) = some (b, op, args, 0) → s.ward.takeover = false →
      wardenDown s = false → sysState s = 0x15 → safeOps.contains op = false →
      Does c s (fun t => Answered t b 3 0 [] ∧ OnlyAnswer s t))

/-- SYS commands that change no slot (02 R70). -/
def Obligations.SysInformationAndConfiguration : Prop :=
  (∀ (s : State) (b : Nat), Serving s b 0x0101 [] → Does (.sysInfo b) s (fun t => OnlyAnswer s t ∧ Answered t b 0 0
    [word (0x11 + rdF s wardStatus 0 0 * 256 + rdF s wardStatus 1 1 * 512), word s.ward.runVersion, word s.ward.slotA.state,
     word s.ward.slotA.version, word s.ward.slotB.state, word s.ward.slotB.version,
     word (s.ward.slotA.level % 256 + s.ward.slotB.level % 256 * 256 + setVal s 0 % 256 * 65536), word (nodeId s),
     word s.ward.takeovers])) ∧
  (∀ (s : State) (b tb m sev : Nat), tb < 8 → m < 4096 → sev < 4 → Serving s b 0x0102 [word tb, word (2 * m), word sev] →
    Does (.sysEventConfig b) s (fun t => Answered t b 0 0 [] ∧ t.ward.evtTb = tb ∧ t.ward.evtMask = 2 * m
      ∧ t.ward.evtMin = sev ∧ KeepsBut [.ward] s t)) ∧
  (∀ (s : State) (b k : Nat), k < 62 → k ≠ b → Serving s b 0x0109 [word k] →
    Does (.sysBoothReset b) s (fun t => Answered t b 0 0 [word (boothState s k)] ∧ KeepsBut [.regs, .ward] s t
      ∧ (boothState s k = 1 → boothState t k = 0 ∧ k ∉ t.ward.posted) ∧ (boothState s k = 2 → rdB t (boothSlot k) 7 = true)
      ∧ (boothState s k = 3 → boothState t k = 0 ∧ rdB t (boothSlot k + 8) 0 = false))) ∧
  (∀ (s : State) (b : Nat), Serving s b 0x0108 [0xB007C0DE] →
    Does (.sysReset b) s (fun t => Answered t b 0 0 [] ∧ t.ward.resetDue = true ∧ KeepsBut [.ward] s t)) ∧
  (∀ s : State, s.ward.resetDue = true → s.ward.taken = [] →
    Does .sysResetExpiry s (fun t => t.pkg.held = true ∧ t.pending = s.pending ∧ t.ward.setVal = s.ward.setVal))

/-- Firmware commands and the hand-over (02 R65-R70). -/
def Obligations.FirmwareStageSwitchCommit : Prop :=
  (∀ (s : State) (b n : Nat) (l : List Word), n < 2 → Serving s b 0x0103 (word n :: l) →
    busyWith s [0x0103, 0x0104, 0x0106] = false → (slotAt s n).state ≠ 2 → (slotAt s n).state ≠ 3 →
    Does (.sysFwStage b) s (fun t => Begun t b ∧ sysState t = 0x12 ∧ slotAt t n = {} ∧ slotAt t (1 - n) = slotAt s (1 - n)
      ∧ t.ward.stageSlot = some n ∧ KeepsBut [.regs, .ward] s t)) ∧
  (∀ (s : State) (img : FwImage) (n : Nat), n < 2 → s.ward.stageSlot = some n → img.poisoned = false →
    ((keyKnown s = false ∨ (Config.ecdsaOk img.epoch img.digest img.sig = true ∧ img.epoch = setVal s 1)) → img.length ≤ 3145728 →
      setVal s 0 ≤ img.level → Does (.fwStageChecked img) s (fun t => (slotAt t n).state = 1 ∧ (slotAt t n).version = img.version
        ∧ sysState t = s.ward.stageBack % 256 ∧ t.ward.stageSlot = none ∧ KeepsBut [.regs, .ward] s t)) ∧
    (img.level < setVal s 0 → Does (.fwStageChecked img) s (fun t => (slotAt t n).state = 4 ∧ t.ward.stageSlot = none
      ∧ KeepsBut [.regs, .ward] s t))) ∧
  (∀ (s : State) (b n : Nat), n < 2 → Serving s b 0x0104 [word n] →
    (standbyOk s = false → Does (.sysFwSwitch b) s (fun t => Answered t b 0xC 1 [] ∧ OnlyAnswer s t)) ∧
    (standbyOk s = true → (slotAt s n).state = 1 → Does (.sysFwSwitch b) s (fun t => KeepsBut [.regs, .ward] s t ∧
      (if Config.acceptsFormat (slotAt s n).format s.ward.runFormat then Begun t b ∧ sysState t = 0x13 ∧ t.ward.handSlot = some n
       else Answered t b 4 5 [] ∧ sysState t = 0x11 ∧ t.ward.handSlot = s.ward.handSlot)))) ∧
  (∀ (s : State) (b : Nat), (nextWaiting s).map (fun k => (k.booth, k.op, k.flags)) = some (b, 0x0106, 0) → s.ward.takeover = false →
    wardenDown s = false → sysState s = 0x14 → standbyOk s = true →
    Does (.sysFwRevert b) s (fun t => Begun t b ∧ sysState t = 0x13 ∧ t.ward.handSlot = some (bootSlot s) ∧ t.ward.handRevert = true
      ∧ KeepsBut [.regs, .ward] s t)) ∧
  (∀ (s : State) (n : Nat), n < 2 → s.ward.handSlot = some n → s.ward.handRevert = false →
    Does (.handoverComplete true) s (fun t => sysState t = 0x14 ∧ (slotAt t n).state = 2 ∧ t.ward.runVersion = (slotAt s n).version
      ∧ activePair t = 1 - activePair s ∧ t.ward.handSlot = none ∧ KeepsBut [.regs, .ward] s t) ∧
    Does (.handoverComplete false) s (fun t => sysState t = 0x11 ∧ slotAt t n = slotAt s n ∧ t.ward.runVersion = s.ward.runVersion
      ∧ activePair t = activePair s ∧ t.ward.handSlot = none ∧ KeepsBut [.regs, .ward] s t)) ∧
  (∀ (s : State) (b n : Nat), n < 2 → Serving s b 0x0105 [word n] → (slotAt s n).state = 1 → (slotAt s (1 - n)).state = 3 →
    Does (.sysFwCommit b) s (fun t => Answered t b 0 0 [] ∧ (slotAt t n).state = 3 ∧ (slotAt t (1 - n)).state = 1
      ∧ t.ward.runVersion = s.ward.runVersion ∧ t.ward.auditNext = s.ward.auditNext + 1 ∧ KeepsBut [.regs, .ward] s t)) ∧
  (∀ (s : State) (b p : Nat), p < 2 → Serving s b 0x0107 [] → standbyOk s = true → activePair s = p → pairRole s p = .active →
    pairRole s (1 - p) = .standby → Does (.sysFailover b) s (fun t => Answered t b 0 0 [] ∧ activePair t = 1 - p
      ∧ pairRole t p = .fenced ∧ rd t (boothWin + 0x400004) = satInc (rd s (boothWin + 0x400004))))

/-- The SET group (02 R72-R77). -/
def Obligations.CountedSettingsArePreparedAndBurnt : Prop :=
  (∀ (s : State) (b : Nat), Serving s b 0x0901 [] → Does (.setQuery b) s (fun t => OnlyAnswer s t ∧ Answered t b 0 0
    ((upto 9).flatMap (fun i => [word (i + setAllowed i * 256 + setUsed s i * 65536), word (setVal s i)])))) ∧
  (∀ (s : State) (b i v : Nat), i < 9 → v < 2 ^ 32 → Serving s b 0x0902 [word i, word v] → s.ward.prep = none → setRule s i v = true →
    setUsed s i < setAllowed i → Does (.setPrepare b) s (fun t => (∃ p : Preparation, t.ward.prep = some p ∧ p.booth = b ∧ p.index = i
      ∧ p.value = v ∧ p.token ≠ 0 ∧ p.token < 65536) ∧ t.ward.setVal = s.ward.setVal ∧ t.ward.setUsed = s.ward.setUsed
      ∧ KeepsBut [.ward, .fresh] s t)) ∧
  (∀ (s : State) (b i v : Nat), i < 9 → v < 2 ^ 32 → Serving s b 0x0902 [word i, word v] → s.ward.prep = none → setRule s i v = false →
    Does (.setPrepare b) s (fun t => Answered t b 4 0x0102 [] ∧ OnlyAnswer s t)) ∧
  (∀ (s : State) (b : Nat) (p : Preparation), s.ward.prep = some p → p.booth = b → p.index < 9 → p.index ≠ 1 → p.index ≠ 7 →
    p.value < 2 ^ 32 → p.token < 2 ^ 32 → ownStep s p.index = false → setUsed s p.index < setAllowed p.index →
    s.ward.setVal.length = 9 → s.ward.setUsed.length = 9 → s.ward.audit.length < 1024 →
    Serving s b 0x0903 [word p.index, word p.value, word p.token] →
      Does (.setConfirm b true) s (fun t => Answered t b 0 0 [word (s.ward.auditNext % 2 ^ 32)] ∧ setVal t p.index = p.value
        ∧ setUsed t p.index = setUsed s p.index + 1 ∧ (∀ j : Nat, j ≠ p.index → setVal t j = setVal s j ∧ setUsed t j = setUsed s j)
        ∧ t.ward.prep = none ∧ t.ward.audit.length = s.ward.audit.length + 1 ∧ KeepsBut [.regs, .ward] s t ∧ RegsBut eventReg s t) ∧
      Does (.setConfirm b false) s (fun t => Answered t b 9 0x0103 [] ∧ setVal t p.index = setVal s p.index
        ∧ setUsed t p.index = setUsed s p.index + 1 ∧ t.ward.prep = none ∧ t.ward.audit.length = s.ward.audit.length + 1)) ∧
  (∀ (s : State) (b : Nat) (p : Preparation) (i v tok : Nat), s.ward.prep = some p → i < 2 ^ 32 → v < 2 ^ 32 → tok < 2 ^ 32 →
    (i ≠ p.index ∨ v ≠ p.value ∨ tok ≠ p.token ∨ b ≠ p.booth) → Serving s b 0x0903 [word i, word v, word tok] →
    Does (.setConfirm b true) s (fun t => Answered t b 4 0x0101 [] ∧ t.ward.prep = none ∧ t.ward.setVal = s.ward.setVal
      ∧ t.ward.setUsed = s.ward.setUsed ∧ KeepsBut [.ward] s t)) ∧
  (∀ (s : State) (b : Nat) (p : Preparation), s.ward.prep = some p → (p.booth = b ∨ b < 16) → Serving s b 0x0904 [] →
    Does (.setCancel b) s (fun t => Answered t b 0 0 [] ∧ t.ward.prep = none ∧ t.ward.setVal = s.ward.setVal ∧ KeepsBut [.ward] s t)) ∧
  (∀ (s : State) (p : Preparation), s.ward.prep = some p →
    Does .setPrepareExpired s (fun t => t.ward.prep = none ∧ t.ward.setVal = s.ward.setVal ∧ KeepsBut [.regs, .ward] s t ∧ RegsBut eventReg s t)) ∧
  (∀ (s : State) (b : Nat), Serving s b 0x0905 [] → Does (.setAuditInfo b) s (fun t => OnlyAnswer s t
    ∧ Answered t b 0 0 [word s.ward.audit.length, word s.ward.auditNext, word s.ward.auditWraps])) ∧
  (∀ (s : State) (b i n : Nat), i < 2 ^ 32 → 1 ≤ n → n ≤ 511 → Serving s b 0x0906 [word i, word n] →
    Does (.setAuditRead b) s (fun t => OnlyAnswer s t
      ∧ Answered t b 0 0 (((s.ward.audit.filter (fun x => decide (i ≤ x.index))).take n).flatMap (·.full))))

/-- The classes of booths and the groups open to them (02 R51), with the LANE and NRG commands of user booths
(14 R458; 16 R513). -/
def Obligations.BoothClassesOpenGroups : Prop :=
  ∀ (s : State) (b : Nat) (l : List Nat), s.ward.posted = b :: l → b < 63 → s.dbg.wardenHalted = false → s.ward.taken.length < 8 →
    sysState s ≠ 0x10 → sysState s ≠ 0x13 → s.ward.takeover = false → wardenDown s = false → knownOp (fld (reqWord s b 0) 15 0) = true →
    let op := fld (reqWord s b 0) 15 0
    let g := op / 256
    let userNrg : List Nat := [0x0601, 0x0604, 0x0609]
    let userLane : List Nat := [0x0C01, 0x0C09, 0x0C0A, 0x0C0B, 0x0C0C, 0x0C0D, 0x0C0F]
    let sets : List Nat := [0x0901, 0x0905, 0x0906]
    let closed : Prop :=
      if b < 16 then g = 0xA
      else if b < 48 then (g = 1 ∧ op ≠ 0x0101) ∨ g ∈ [2, 3, 7, 8, 9, 0xA] ∨ (g = 6 ∧ op ∉ userNrg) ∨ (g = 0xC ∧ op ∉ userLane)
      else if b < 60 then (g = 1 ∧ op ≠ 0x0101) ∨ g ∈ [2, 5, 6, 7, 8, 9, 0xA, 0xC]
      else if b < 62 then (g = 1 ∧ op ≠ 0x0101 ∧ op ≠ 0x0108) ∨ g ∈ [3, 4, 5, 7, 8, 0xA, 0xB, 0xC] ∨ (g = 9 ∧ op ∉ sets)
      else (g = 1 ∧ op ≠ 0x0101) ∨ g ∈ [2, 3, 4, 5, 6, 7, 0xB, 0xC] ∨ (g = 9 ∧ op ∉ sets)
    (closed → Does .wardenTake s (fun t => boothState t b = 2 ∧ (∃ k : Taken, t.ward.taken = s.ward.taken ++ [k] ∧ k.booth = b ∧ k.op = op
        ∧ k.phase = .answered ∧ k.status = 8 ∧ k.detail = 0 ∧ k.resp = []) ∧ KeepsBut [.regs, .ward] s t ∧ RegsBut (fun a => a = boothSlot b) s t)) ∧
    (16 ≤ b → b < 48 → op ∈ userNrg ∨ op ∈ userLane → Does .wardenTake s (fun t => ∃ k : Taken, t.ward.taken = s.ward.taken ++ [k]
        ∧ k.booth = b ∧ k.op = op ∧ k.status ≠ 8))

/-! ### Clocks, resets and power states (03) -/

/-- Source selection (03 R84-R86): honoured, refused, and ended. -/
def Obligations.ClockSelectionIsHonouredWhenReady : Prop :=
  (∀ (s : State) (v : Word), s.pkg.held = false → rdF s rootSel 5 4 = fld v 5 4 → rdF s rootSel 10 8 = fld v 10 8 →
    rdF s rootSel 24 16 = fld v 24 16 → rdF s rootSel 1 0 ≠ fld v 1 0 →
    (srlReady s (fld v 1 0) = true → switching s 0 = false →
      Does (.clkSourceSelectWrite .warden 0 v) s (fun t => rdF t rootSel 1 0 = fld v 1 0 ∧ switching t 0 = true
        ∧ rdB t switchStatus 1 = true ∧ rdB t switchStatus 0 = rdB s switchStatus 0 ∧ KeepsBut [.regs, .clk] s t
        ∧ RegsBut (fun a => a = rootSel ∨ a = switchStatus) s t)) ∧
    ((srlReady s (fld v 1 0) = false ∨ switching s 0 = true) →
      Does (.clkSourceSelectWrite .warden 0 v) s (fun t => rdF t rootSel 1 0 = rdF s rootSel 1 0 ∧ rdB t switchStatus 0 = true
        ∧ KeepsBut [.regs] s t ∧ RegsBut (fun a => a = rootSel ∨ a = switchStatus) s t))) ∧
  (∀ (s : State) (l : Nat) (v : Word), s.pkg.held = false → l < 4 → fld v 2 0 < 5 → rdF s (clkBlk (l + 1) + 4) 2 0 ≠ fld v 2 0 →
    (lrlReady s l (fld v 2 0) = true → switching s (2 + l) = false →
      Does (.clkSourceSelectWrite .warden (l + 1) v) s (fun t => rdF t (clkBlk (l + 1) + 4) 2 0 = fld v 2 0
        ∧ switching t (2 + l) = true ∧ KeepsBut [.regs, .clk] s t ∧ RegsBut (fun a => a = clkBlk (l + 1) + 4) s t)) ∧
    (lrlReady s l (fld v 2 0) = false → Does (.clkSourceSelectWrite .warden (l + 1) v) s (fun t => rdB t switchStatus 0 = true
        ∧ KeepsBut [.regs] s t ∧ RegsBut (fun a => a = switchStatus) s t))) ∧
  (∀ (s : State) (src : Writer) (die : Nat) (v : Word), src ≠ .warden → exec (.clkSourceSelectWrite src die v) s = .next s) ∧
  (∀ s : State, s.pkg.held = false → rdF s rootSel 1 0 = 0 → s.clk.noReference = false → switching s 0 = false → srlReady s 1 = true →
    Does .bootReferenceSwitch s (fun t => rdF t rootSel 1 0 = 1 ∧ switching t 0 = true ∧ KeepsBut [.regs, .clk] s t
      ∧ RegsBut (fun a => a = rootSel ∨ a = switchStatus) s t)) ∧
  (∀ s : State, switching s 1 = true → s.clk.selectBooth = [] →
    Does (.referenceSlewEnd 1) s (fun t => switching t 1 = false ∧ KeepsBut [.regs, .clk] s t
      ∧ RegsBut (fun a => a = switchStatus) s t))

/-- Lost references and ready flags (03 R79-R83, R86, R90). -/
def Obligations.ReferencesAreReadyLostAndHeldOver : Prop :=
  ((∀ s : State, s.pkg.held = false → srlReady s (rdF s rootSel 1 0) = false →
      (rdF s rootSel 5 4 ≠ rdF s rootSel 1 0 → srlReady s (rdF s rootSel 5 4) = true →
        Does .refLost s (fun t => rdF t rootSel 1 0 = rdF s rootSel 5 4 ∧ rdB t switchStatus 2 = true ∧ rdB t switchStatus 3 = true
          ∧ rdB t switchStatus 4 = false ∧ switching t 0 = true ∧ OnlyRegs (fun a => a = rootSel ∨ a = switchStatus) [.clk] s t)) ∧
      (srlReady s (rdF s rootSel 5 4) = false →
        Does .refLost s (fun t => rdF t rootSel 1 0 = rdF s rootSel 1 0 ∧ rdB t switchStatus 2 = true ∧ rdB t switchStatus 4 = true
          ∧ switching t 0 = false ∧ OnlyRegs (fun a => a = switchStatus) [.clk] s t))) ∧
    (∀ s : State, s.pkg.held = false →
      (∀ ppm : Int, Does (.soscMonitorFault ppm) s (fun t => rdB t (clkBase + 0xC) 0 = true ∧ rd t clkReady = rd s clkReady
        ∧ OnlyRegs (fun a => a = clkBase + 0xC) [] s t)) ∧
      (∀ (x : Nat) (ppm : Int), x < 2 → rdF s rootSel 1 0 ≠ 1 + x → Does (.xinMonitorFault x ppm) s (fun t =>
        rdB t (clkBase + 0xC) (1 + x) = true ∧ rdB t clkReady (2 + x) = false
        ∧ OnlyRegs (fun a => a = clkBase + 0xC ∨ a = clkReady) [] s t)) ∧
      Does .srlLockLost s (fun t => rdB t (clkBase + 0xC) 3 = true ∧ rdB t clkReady 4 = false ∧ rdB t switchStatus 4 = true
        ∧ OnlyRegs (fun a => a = clkBase + 0xC ∨ a = clkReady ∨ a = switchStatus) [] s t) ∧
      (rdB s clkReady 4 = false → EventFits s 0x0203 3 → Does .srlRelockTimeout s (fun t =>
        EventPlaced t 0x0203 (word (3 * 2 ^ 8)) ∧ OnlyRegs (fun _ => False) [] s t)) ∧
      (rdF s rootSel 1 0 ≠ 3 → Does .tlLockLost s (fun t => rdB t (clkBase + 0xC) 4 = true ∧ rdB t clkReady 5 = false
        ∧ 1 ∈ t.clk.holdover ∧ OnlyRegs (fun a => a = clkBase + 0xC ∨ a = clkReady) [.clk] s t)) ∧
      (∀ d : Nat, (isGroveDie d = true ∨ isLaneDie d = true) → dieState s d ≠ 0x33 → dieState s d ≠ 0x35 →
        Does (.dclLockLost d) s (fun t => rdB t (clkBlk d) 31 = false ∧ rdB t clkReady (8 + d) = false
          ∧ rdB t (clkBlk d + 0xC) 5 = true ∧ dieState t d = 0x35))) ∧
    (∀ (s : State) (d u p v : Nat), s.pkg.held = false → dieAlive s d = true → (linkAt s d u).clock = true → linkPeer d u = some (p, v) →
      dieState s p = 0x30 → unitState s d u = 0x62 →
      Does (.peerClockLost d u) s (fun t => (linkAt t d u).clock = false ∧ unitState t d u = 0x65 ∧ t.lan = s.lan ∧ t.tiles = s.tiles))) ∧
  ((∀ s : State, s.pkg.held = false →
      Does (.readyFlagSet .sosc) s (fun t => rdB t clkReady 0 = true ∧ KeepsBut [.regs] s t ∧ RegsBut (fun a => a = clkReady) s t) ∧
      Does (.readyFlagSet .fosc) s (fun t => rdB t clkReady 1 = true ∧ KeepsBut [.regs] s t ∧ RegsBut (fun a => a = clkReady) s t) ∧
      (∀ x : Nat, x < 2 →
        (x ∈ s.clk.ampl → Does (.readyFlagSet (.xin x)) s (fun t => rdB t clkReady (2 + x) = true ∧ KeepsBut [.regs] s t
          ∧ RegsBut (fun a => a = clkReady) s t)) ∧
        (x ∉ s.clk.ampl → exec (.readyFlagSet (.xin x)) s = .next s)) ∧
      Does (.readyFlagSet .srl) s (fun t => rdB t clkReady 4 = true ∧ rdB t switchStatus 4 = false ∧ KeepsBut [.regs] s t
        ∧ RegsBut (fun a => a = clkReady ∨ a = switchStatus) s t) ∧
      Does (.readyFlagSet .tl) s (fun t => rdB t clkReady 5 = true ∧ 1 ∉ t.clk.holdover ∧ KeepsBut [.regs, .clk] s t
        ∧ RegsBut (fun a => a = clkReady) s t) ∧
      (∀ l : Nat, l < 4 → Does (.readyFlagSet (.lrl l)) s (fun t => rdB t (clkBlk (l + 1)) 4 = true ∧ KeepsBut [.regs] s t
        ∧ RegsBut (fun a => a = clkBlk (l + 1)) s t)) ∧
      (∀ x : Nat, xinFitted s x = true → x ∉ s.clk.ampl →
        Does (.xinStartDelayExpiry x true) s (fun t => x ∈ t.clk.ampl ∧ KeepsBut [.clk] s t) ∧
        ((if x = 0 then s.clk.fails0 else s.clk.fails1) = 15 → Does (.xinStartDelayExpiry x false) s (fun t =>
          rdB t switchStatus (5 + x) = true ∧ x ∉ t.clk.ampl ∧ KeepsBut [.regs, .clk] s t ∧ RegsBut (fun a => a = switchStatus) s t))) ∧
      (rdF s rootSel 1 0 = 0 → srlReady s 1 = false → srlReady s 2 = false → EventFits s 0x0205 3 → s.clk.ampl = [] →
        s.clk.fails0 = 0 → s.clk.fails1 = 0 → Does .referenceWaitTimeout s (fun t => t.clk.noReference = true
          ∧ EventPlaced t 0x0205 0 ∧ OnlyRegs (fun a => a = cfgBase) [.clk] s t))) ∧
    (∀ (s : State) (d u p v : Nat), s.pkg.held = false → linkPeer d u = some (p, v) → dieThere s d = true → dieThere s p = true →
      unitDown s d u = true → rdF s (lnkBlk (eventEnd d u).1 (eventEnd d u).2) 25 24 = 0 →
      Does (.peerClockReturn d u) s (fun t => unitState t d u = 0x61 ∧ (linkAt t d u).clock = true ∧ (linkAt t d u).round = 1
        ∧ KeepsBut [.regs, .links] s t)))

/-- The CLK commands (03 R97). -/
def Obligations.ClkCommandsTakeEffect : Prop :=
  (∀ (s : State) (b : Nat), Serving s b 0x0201 [] → Does (.clkInfo b) s (fun t => OnlyAnswer s t
    ∧ Answered t b 0 0 ([rd s clkReady, rd s rootSel, rd s switchStatus, rd s (clkBase + 0xC)] ++
      (upto 4).map (fun i => word (dieState s (4 * i) + dieState s (4 * i + 1) * 2 ^ 8 + dieState s (4 * i + 2) * 2 ^ 16
        + dieState s (4 * i + 3) * 2 ^ 24))))) ∧
  (∀ (s : State) (b src : Nat), src < 4 → Serving s b 0x0202 [0, word src, word (rdF s rootSel 5 4)] → switching s 0 = false →
    (srlReady s src = true → rdF s rootSel 1 0 ≠ src → Does (.clkSelect b) s (fun t => Begun t b ∧ rdF t rootSel 1 0 = src
      ∧ switching t 0 = true ∧ KeepsBut [.regs, .ward, .clk] s t ∧ RegsBut (fun a => a = rootSel ∨ a = switchStatus) s t)) ∧
    (srlReady s src = false → Does (.clkSelect b) s (fun t => Answered t b 0xC 0x0201 [] ∧ OnlyAnswer s t))) ∧
  (∀ (s : State) (b g n : Nat) (f : Word), g < 8 → n < 24 → f ≠ 0 → Serving s b 0x0203 [word (g + n * 256), 0, f] →
    (dieState s (8 + g) = 0x30 ∨ dieState s (8 + g) = 0x34) → (upto 17).any (fun k => regionRuns s g k && loopClocks s g n k) = false →
    Does (.clkFulSet b) s (fun t => Answered t b 0 0 [word (Config.fulKhz 0 f.toNat)] ∧ rdB t (clkBlk (8 + g)) n = true
      ∧ KeepsBut [.regs, .ward, .clk, .tal] s t ∧ RegsBut (fun a => a = clkBlk (8 + g)) s t)) ∧
  (∀ (s : State) (b d : Nat) (m : Word), isDie d = true → (d = 0 ∨ dieState s d = 0x30) → m.toNat < 2 ^ gateBits d →
    Serving s b 0x0204 [word d, m, 1] → Does (.clkGate b) s (fun t =>
      Answered t b 0 0 [rd s (clkBlk d + 0x10) ||| m] ∧ rd t (clkBlk d + 0x10) = rd s (clkBlk d + 0x10) ||| m ∧ t.net = s.net
      ∧ t.pending = s.pending)) ∧
  (∀ (s : State) (b d : Nat) (m : Word), isLaneDie d = true → dieState s d = 0x30 → m.toNat < 2 ^ 17 →
    (upto 17).any (fun k => m.toNat.testBit k && !gated s d k && blockTouched s d k) = false → Serving s b 0x0204 [word d, m, 0] →
    Does (.clkGate b) s (fun t => rd t (clkBlk d + 0x10) = rd s (clkBlk d + 0x10) &&& ~~~m ∧ KeepsBut [.regs, .ward, .clk] s t
      ∧ RegsBut (fun a => a = clkBlk d + 0x10) s t)) ∧
  (∀ (s : State) (b d st : Nat), isGroveDie d = true → st < 2 → (dieState s d = 0x30 ∨ dieState s d = 0x31) →
    Serving s b 0x0205 [word d, word st] → Does (.clkPowerState b) s (fun t => Answered t b 0 0 [word (0x30 + st)]
      ∧ dieState t d = 0x30 + st ∧ OnlyRegs (fun a => a = clkBlk d + 0x18) [.tal] s t))

/-- Gates and block resets (03 R88, R89), die resets (03 R91-R94). -/
def Obligations.GatesBlockResetsAndDieResets : Prop :=
  ((∀ (s : State) (d k : Nat), isDie d = true → k < gateBits d → gated s d k = true →
      (rdB s (clkBlk d + 0x108) k = false → Does (.gatedBlockAccess d k) s (fun t => rd t (clkBlk d + 0x14) = satInc (rd s (clkBlk d + 0x14))
        ∧ KeepsBut [.regs] s t ∧ RegsBut (fun a => a = clkBlk d + 0x14) s t)) ∧
      (isGroveDie d = true → k = 9 → d * 32 + k ∉ s.clk.stopped → Does (.blockClockStop d k) s (fun t =>
        d * 32 + k ∈ t.clk.stopped ∧ KeepsBut [.clk] s t))) ∧
    (∀ (s : State) (d : Nat) (v : Word), s.pkg.held = false → isDie d = true → dieAlive s d = true →
      Does (.blockReset .warden d v) s (fun t =>
        (∀ k : Nat, k < gateBits d → rdB t (clkBlk d + 0x108) k = (rdB s (clkBlk d + 0x108) k || bit v k))
        ∧ KeepsBut [.regs] s t ∧ RegsBut (fun a => a = clkBlk d + 0x108) s t)) ∧
    (∀ (s : State) (d j : Nat), isLaneDie d = true → j < 16 → rdB s (clkBlk d + 0x108) j = true → gated s d j = false →
      Does (.blockResetDone d j) s (fun t => rdB t (clkBlk d + 0x108) j = false
        ∧ (∀ a : Nat, penBlk (16 * (d - 1) + j) ≤ a → a < penBlk (16 * (d - 1) + j) + 0x10000 → rd t a = regReset a)
        ∧ KeepsBut [.regs, .lan] s t)) ∧
    (∀ (s : State) (d : Nat), isGroveDie d = true → dieState s d = 0x31 → releaseSoon s (d - 8) = true →
      Does (.wakeRequest d) s (fun t => dieState t d = 0x30 ∧ OnlyRegs (fun a => a = clkBlk d + 0x18) [] s t)) ∧
    (∀ (s : State) (d : Nat), dieState s d = 0x30 → exec (.wakeRequest d) s = .next s)) ∧
  ((∀ (s : State) (b d : Nat), (isGroveDie d = true ∨ isLaneDie d = true) → (dieState s d = 0x30 ∨ dieState s d = 0x35) →
      s.clk.dieResets = [] → Serving s b 0x0206 [word d, 0] → Does (.clkDieReset b) s (fun t => dieState t d = 0x33
        ∧ (∀ a : Nat, dieWin d ≤ a → a < dieWin d + 0x800000 → a ≠ dieWin d + 0xE011C → rd t a = regReset a) ∧ t.clk.dieResets = [(d, b, false)]
        ∧ d ∉ t.clk.released)) ∧
    (∀ (s : State) (d vio : Nat), s.pkg.held = false → (isGroveDie d = true ∨ isLaneDie d = true) → dieState s d = 0x33 →
      rdB s (clkBlk d) 31 = true → d ∉ s.clk.released → s.clk.dieResets.any (fun e => e.1 = d) = true →
      Does (.dieRelease d vio) s (fun t => d ∈ t.clk.released ∧ dieState t d = 0x33 ∧ t.clk.dieResets = s.clk.dieResets)) ∧
    (∀ (s : State) (b d : Nat) (k : Taken), s.pkg.held = false → (isGroveDie d = true ∨ isLaneDie d = true) → dieState s d = 0x33 →
      d ∈ s.clk.released → s.clk.dieResets = [(d, b, false)] → s.ward.taken = [k] → k.booth = b →
      (rdB s (clkBlk d) 31 = true → (unitsOf d).any (fun u => unitState s d u = 0x61) = false →
        Does (.dieRelockComplete d) s (fun t => dieState t d = 0x34 ∧ Answered t b 0 0 [0x34] ∧ t.clk.dieResets = [])) ∧
      Does (.dieRejoinTimeout d) s (fun t => dieState t d = 0x35 ∧ Answered t b 0xA 0 [] ∧ t.clk.dieResets = [])))

/-! ### Configuration (04) -/

/-- CFG_INFO, CFG_HEADER and CFG_LOAD (04 R103-R105, R115, R127). -/
def Obligations.CfgHeaderAndLoadAreChecked : Prop :=
  (∀ (s : State) (b g : Nat), g < 8 → Serving s b 0x0301 [word g] → Does (.cfgInfo b) s (fun t => OnlyAnswer s t
    ∧ Answered t b 0 0 (rd s cfgBase :: rd s (regionReg g 16) :: (upto 16).map (fun c => rd s (regionReg g c))))) ∧
  (∀ (s : State) (b : Nat) (h : List Word), Serving s b 0x0302 h → bootSrc s ≠ 1 →
    (s.cfg.header = none → hdrCheck s h = none → Does (.cfgHeader b) s (fun t => Answered t b 0 0 [] ∧ t.cfg.header = some h
      ∧ t.clk.xin0Hz = wordAt h 2 ∧ rdB t cfgBase 0 = true ∧ rdB t cfgBase 2 = true ∧ KeepsBut [.regs, .ward, .cfg, .clk] s t
      ∧ RegsBut (fun a => a = cfgBase) s t)) ∧
    (s.cfg.header.isSome = true → Does (.cfgHeader b) s (fun t => Answered t b 4 0x030E [] ∧ OnlyAnswer s t))) ∧
  (∀ (s : State) (b g : Nat) (src len : Nat) (args hdr desc : List Word), g < 8 → src < 2 → args = [word (128 + g * 16), word src, 0, 0, word len] →
    Serving s b 0x0303 args → regionState s g 16 = 0x40 → dieAlive s (8 + g) = true →
    (s.cfg.loads = [] → imageCheck s g 16 false hdr desc = none → Does (.cfgLoad b hdr desc 0) s (fun t => Answered t b 0 0 [0x41]
      ∧ regionState t g 16 = 0x41 ∧ (∃ l : Load, t.cfg.loads = [l] ∧ l.grove = g ∧ l.region = 16 ∧ l.shadow = false ∧ l.next = 0
        ∧ l.frames = wordAt hdr 2 ∧ l.body = desc) ∧ KeepsBut [.regs, .ward, .cfg, .fab] s t
      ∧ RegsBut (fun a => ∃ r : Nat, r < 17 ∧ a = regionReg g r) s t)) ∧
    (s.cfg.loads = [] → wordAt hdr 0 ≠ 0x56494C49 → Does (.cfgLoad b hdr desc 0) s (fun t => Answered t b 4 0x0317 [] ∧ OnlyAnswer s t)) ∧
    (8 ≤ s.cfg.loads.length → Does (.cfgLoad b hdr desc 0) s (fun t => Answered t b 0xB 0x0316 [] ∧ OnlyAnswer s t)))

/-- Frames, the digest and streams (04 R106-R108, R115, R122, R123). -/
def Obligations.FramesAreWrittenOrFailTheLoad : Prop :=
  (∀ (s : State) (g r idx : Nat) (l : Load) (f : List Word) (ports : List (Nat × Nat)), g < 8 → r < 17 → loadOf s g r = some l →
    l.header = none → l.next < l.frames → l.source = 0 → l.shadow = false → l.enc = false →
    (frameCheck s l f (if (wordAt f 2).testBit 0 then some [] else some ((f.drop 4).take 1024)) ports = none →
      nfld (wordAt f 0) 27 24 = 1 → nfld (wordAt f 0) 15 0 = idx →
      Does (.loadFrame g r f ports 0) s (fun t => (loadOf t g r).map (·.next) = some (l.next + 1)
        ∧ liveFrame t g 1 idx = (if ((f.drop 4).take 1024).all (· = 0) ∨ (wordAt f 2).testBit 0 then [] else (f.drop 4).take 1024)
        ∧ rd t (cfgGrv g + 0x44) = satInc (rd s (cfgGrv g + 0x44)) ∧ regionState t g r = regionState s g r
        ∧ KeepsBut [.regs, .cfg, .fab, .ras] s t)) ∧
    (wordAt f 1 ≠ l.next → l.table = false → Does (.loadFrame g r f ports 0) s (fun t => regionState t g r = 0x46 ∧ loadOf t g r = none
        ∧ liveFrame t g 1 12799 = (if ownerOf s g 1 12799 = r then [] else liveFrame s g 1 12799)
        ∧ KeepsBut [.regs, .ward, .cfg, .fab, .fresh] s t))) ∧
  (∀ (s : State) (g r : Nat) (l : Load), g < 8 → r < 17 → loadOf s g r = some l → l.header = none → l.next < l.frames → l.source = 1 →
    l.shadow = true → l.table = false → r ≠ 16 → EventFits s 0x0302 2 → Does (.loadFrame g r [] [] 0xD) s (fun t => regionState t g r = 0x43
      ∧ EventPlaced t 0x0302 (word (g * 16 + r)) ∧ t.fab.live = s.fab.live ∧ KeepsBut [.regs, .ward, .cfg, .fab] s t)) ∧
  (∀ (s : State) (g r : Nat) (l : Load), g < 8 → r < 17 → loadOf s g r = some l → l.header = none → l.next = l.frames → l.shadow = false →
    l.auto = false → l.table = false → Does (.loadDigestCheck g r) s (fun t =>
      regionState t g r = (if Config.sha384 (wordsToBytes l.body) = l.digest then 0x42 else 0x46)
      ∧ loadOf t g r = none ∧ KeepsBut [.regs, .ward, .cfg, .fab, .fresh] s t)) ∧
  (∀ (s : State) (st : Nat) (v : Word), streamLoad s = none → Does (.streamPortWrite st v) s (fun t =>
    rd t (cfgBase + 8) = satInc (rd s (cfgBase + 8)) ∧ KeepsBut [.regs] s t ∧ RegsBut (fun a => a = cfgBase + 8) s t)) ∧
  (∀ (s : State) (st : Nat) (v : Word) (l : Load), s.cfg.loads = [l] → l.source = 2 → l.header = none → l.buffer.length < 16384 →
    (l.station = st → Does (.streamPortWrite st v) s (fun t => t.cfg.loads = [{ l with buffer := l.buffer ++ [v] }] ∧ KeepsBut [.cfg] s t)) ∧
    (l.station ≠ st → Does (.streamPortWrite st v) s (fun t => rd t (cfgBase + 8) = satInc (rd s (cfgBase + 8))
      ∧ KeepsBut [.regs] s t ∧ RegsBut (fun a => a = cfgBase + 8) s t)) ∧
    (l.grove < 8 → l.region < 16 → l.shadow = false → l.table = false → Does .streamIdle s (fun t => t.cfg.loads = [] ∧ regionState t l.grove l.region = 0x46
      ∧ KeepsBut [.regs, .ward, .cfg, .fab, .fresh] s t)))

/-- Release, swap, rollback, clear (04 R115, R117, R118, R121, R127). -/
def Obligations.ReleaseSwapRollbackAndClear : Prop :=
  (∀ (s : State) (b g r : Nat), g < 8 → r < 16 → dieAlive s (8 + g) = true →
    (Serving s b 0x0304 [word (g * 16 + r), 0, 0, 0] → regionState s g r = 0x42 →
      (regionState s g 16 = 0x43 → Does (.cfgRelease b) s (fun t => Begun t b
        ∧ t.cfg.edges = s.cfg.edges ++ [⟨some b, 0x0304, g, r, 0, 0, none, false⟩] ∧ KeepsBut [.ward, .cfg] s t)) ∧
      (regionState s g 16 ≠ 0x43 → Does (.cfgRelease b) s (fun t => Answered t b 4 0x0309 [] ∧ OnlyAnswer s t))) ∧
    (Serving s b 0x0305 [word (g * 16 + r), 0, 0, 0] → regionState s g r = 0x45 → Does (.cfgSwap b) s (fun t => Begun t b
        ∧ t.cfg.edges = s.cfg.edges ++ [⟨some b, 0x0305, g, r, 1, 0, none, false⟩] ∧ KeepsBut [.ward, .cfg] s t)) ∧
    (Serving s b 0x0306 [word (g * 16 + r), 0, 0, 0] → regionState s g r = 0x43 →
      (rdB s (regionReg g r) 9 = true → Does (.cfgRollback b) s (fun t => Begun t b
        ∧ t.cfg.edges = s.cfg.edges ++ [⟨some b, 0x0306, g, r, 2, 0, none, false⟩] ∧ KeepsBut [.ward, .cfg] s t)) ∧
      (rdB s (regionReg g r) 9 = false → Does (.cfgRollback b) s (fun t => Answered t b 4 0x030D [] ∧ OnlyAnswer s t))) ∧
    (Serving s b 0x0307 [word (g * 16 + r)] → regionState s g r = 0x46 → regionTouched s g r = false →
      Does (.cfgClear b) s (fun t => Answered t b 0 0 [] ∧ regionState t g r = 0x40 ∧ rdB t (regionReg g r) 9 = false
        ∧ (∀ ty idx : Nat, ty < 8 → idx < 65536 → liveFrame t g ty idx = if ownerOf s g ty idx = r then [] else liveFrame s g ty idx)
        ∧ KeepsBut [.regs, .ward, .cfg, .fab, .fresh] s t ∧ RegsBut (fun a => a = regionReg g r) s t))) ∧
  (∀ (s : State) (b g r : Nat) (k : Taken), g < 8 → r < 16 → s.cfg.edges = [⟨some b, 0x0304, g, r, 0, 0, none, false⟩] →
    s.ward.taken = [k] → k.booth = b → regionState s g r = 0x42 → (tbAt s 0).core.run = false →
    Does (.releaseEdge g r) s (fun t => regionState t g r = 0x43 ∧ Answered t b 0 0 [0, 0, 0] ∧ t.cfg.edges = []
      ∧ OnlyRegs (fun a => a = regionReg g r ∨ ∃ k : Nat, k < 32 ∧ a = stnCfg ((8 + g) * 256 + 0x80 + k)) [.cfg] s t)) ∧
  (∀ (s : State) (b g r idx : Nat) (k : Taken), g < 8 → r < 16 → idx < 12800 → s.cfg.edges = [⟨some b, 0x0305, g, r, 1, 0, none, false⟩] →
    s.ward.taken = [k] → k.booth = b → regionState s g r = 0x45 → (tbAt s 0).core.run = false → swf [] s.fab.live = true →
    swf [] s.fab.shadow = true → Does (.swapEdge g r) s (fun t => regionState t g r = 0x43 ∧ rdB t (regionReg g r) 9 = true
      ∧ liveFrame t g 1 idx = (if ownerOf s g 1 idx = r then sget [] s.fab.shadow (frameKey g 1 idx) else liveFrame s g 1 idx)
      ∧ Answered t b 0 0 [0, 0, 0] ∧ OnlyRegs (fun a => a = regionReg g r) [.cfg, .fab] s t))

/-- Sweep, image table, end of boot (04 R98, R124, R125). -/
def Obligations.SweepReloadAndEndOfBoot : Prop :=
  (∀ (s : State) (g idx : Nat) (sh : Bool), g < 8 → idx < 12800 → dieAlive s (8 + g) = true → injArmed s (8 + g) 1 = false →
    whereUsed s (8 + g) 1 = [] →
    exec (.configSweepRead g ((8 + g) * 2 ^ 28 + 2 ^ 24 + idx) sh 0) s = .next s ∧
    Does (.configSweepRead g ((8 + g) * 2 ^ 28 + 2 ^ 24 + idx) sh 1) s (fun t =>
      rd t (cfgGrv g + 0x4C) = satInc (rd s (cfgGrv g + 0x4C)) ∧ KeepsBut [.regs, .ras] s t ∧ RegsBut (fun a => a = cfgGrv g + 0x4C) s t) ∧
    Does (.configSweepRead g ((8 + g) * 2 ^ 28 + 2 ^ 24 + idx) sh 2) s (fun t =>
      rd t (cfgGrv g + 0x50) = satInc (rd s (cfgGrv g + 0x50)) ∧ rd t (cfgGrv g + 0x54) = word ((8 + g) * 2 ^ 28 + 2 ^ 24 + idx)
      ∧ (EventFits s 0x0305 3 → EventPlaced t 0x0305 (word ((8 + g) * 2 ^ 28 + 2 ^ 24 + idx)))
      ∧ OnlyRegs (fun a => a = cfgGrv g + 0x50 ∨ a = cfgGrv g + 0x54) [.ras] s t)) ∧
  (∀ (s : State) (g e : Nat) (h hdr desc : List Word), g < 8 → s.cfg.header = some h → e < hdrCount h → hdrTarget h e = 128 + g * 16 →
    regionState s g 16 = 0x40 → s.cfg.loads = [] → dieState s (8 + g) = 0x34 → bootStep s = 8 → imageCheck s g 16 false hdr desc = none →
    Does (.rejoinReload g e hdr desc 0) s (fun t => regionState t g 16 = 0x41 ∧ (t.cfg.loads.map (fun l => (l.grove, l.region, l.table))) = [(g, 16, true)]
      ∧ KeepsBut [.regs, .cfg, .fab] s t)) ∧
  (∀ s : State, bootStep s = 9 → s.cfg.auto = [] → EventFits s 0x0304 0 → Does .autoRelease s (fun t => bootStep t = 0xA
    ∧ EventPlaced t 0x0304 (word (runMask s)) ∧ OnlyRegs (fun a => a = cfgBase) [] s t)) ∧
  (∀ s : State, bootStep s ≠ 9 → exec .autoRelease s = .next s)

/-! ### Fabric (05) -/

/-- Single-bit errors of data and of check bits are corrected (05 R149, R150). -/
def Obligations.SquareCorrectsEverySingleBitError : Prop :=
  ∀ d : Nat, d < 2 ^ 64 →
    squareCheck ⟨d, squareOf d⟩ = (0, d, ⟨d, squareOf d⟩) ∧
    (∀ k : Nat, k < 64 → squareCheck ⟨d ^^^ 2 ^ k, squareOf d⟩ = (1, d, ⟨d, squareOf d⟩)) ∧
    (∀ k : Nat, k < 16 → squareCheck ⟨d, squareOf d ^^^ 2 ^ k⟩ = (1, d, ⟨d, squareOf d⟩))

/-- The check bits of the parity square (05 R149). -/
def Obligations.CheckBitsAreRowAndColumnParities : Prop :=
  ∀ d : Nat, d < 2 ^ 64 →
    squareOf d < 2 ^ 16 ∧
    (∀ i : Nat, i < 8 → (squareOf d).testBit i
      = (d.testBit (8 * i) ^^ d.testBit (8 * i + 1) ^^ d.testBit (8 * i + 2) ^^ d.testBit (8 * i + 3)
        ^^ d.testBit (8 * i + 4) ^^ d.testBit (8 * i + 5) ^^ d.testBit (8 * i + 6) ^^ d.testBit (8 * i + 7))) ∧
    (∀ c : Nat, c < 8 → (squareOf d).testBit (8 + c)
      = (d.testBit c ^^ d.testBit (8 + c) ^^ d.testBit (16 + c) ^^ d.testBit (24 + c)
        ^^ d.testBit (32 + c) ^^ d.testBit (40 + c) ^^ d.testBit (48 + c) ^^ d.testBit (56 + c)))

/-- Block RAM (05 R145-R155). -/
def Obligations.BlockRamPortsReadAndWrite : Prop :=
  (∀ (s : State) (g b port w d : Nat), portOn s g b port = true → nfld (portCfg s g b port) 1 0 = 0 → w < 1024 → d < 2 ^ 64 →
    injArmed s (8 + g) 0 = false → whereUsed s (8 + g) 0 = [] → s.fab.mends = [] → s.fab.writeBacks = [] →
    (bramAt s (bramNo g b) w = ⟨d, squareOf d⟩ → Does (.bramPortOperation g b port false w 0 0) s (fun t =>
      sget {} t.fab.bramPorts (bramNo g b * 2 + port) = ⟨d, false, false⟩ ∧ t.fab.bram = s.fab.bram ∧ KeepsBut [.fab] s t)) ∧
    (nfld (portCfg s g b port) 3 2 = 1 → Does (.bramPortOperation g b port true w d 255) s (fun t =>
      sget {} t.fab.bramPorts (bramNo g b * 2 + port) = ⟨d, false, false⟩ ∧ bramAt t (bramNo g b) w = ⟨d, squareOf d⟩
      ∧ (∀ n loc : Nat, loc < 2048 → (n ≠ bramNo g b ∨ loc ≠ w) → bramAt t n loc = bramAt s n loc) ∧ KeepsBut [.regs, .fab, .ras] s t
      ∧ RegsBut (fun _ => False) s t)) ∧
    (∀ k : Nat, k < 64 → bramAt s (bramNo g b) w = ⟨d ^^^ 2 ^ k, squareOf d⟩ → Does (.bramPortOperation g b port false w 0 0) s (fun t =>
      sget {} t.fab.bramPorts (bramNo g b * 2 + port) = ⟨d, true, false⟩ ∧ rd t (cfgGrv g + 0x108) = satInc (rd s (cfgGrv g + 0x108))
      ∧ t.fab.writeBacks = [(bramNo g b, w)] ∧ t.fab.bram = s.fab.bram ∧ KeepsBut [.regs, .fab, .ras] s t
      ∧ RegsBut (fun a => a = cfgGrv g + 0x108 ∨ a = cfgGrv g + 0x110) s t)) ∧
    ((squareCheck (bramAt s (bramNo g b) w)).1 = 2 → Does (.bramPartialWrite g b port w d 1) s (fun t =>
      (sget {} t.fab.bramPorts (bramNo g b * 2 + port)).uerr = true ∧ t.fab.bram = s.fab.bram
      ∧ rd t (cfgGrv g + 0x10C) = satInc (rd s (cfgGrv g + 0x10C)) ∧ OnlyRegs (fun a => a = cfgGrv g + 0x10C ∨ a = cfgGrv g + 0x110) [.fab, .ras] s t)) ∧
    (bramAt s (bramNo g b) w = ⟨d, squareOf d⟩ → Does (.bramPartialWrite g b port w 0xFF 1) s (fun t =>
      (bramAt t (bramNo g b) w).data = d / 256 * 256 + 255 ∧ KeepsBut [.regs, .fab, .ras] s t))) ∧
  (∀ (s : State) (g b w d k : Nat), w < 1028 → d < 2 ^ 64 → k < 64 → b < 1920 → s.fab.writeBacks = [(bramNo g b, w)] →
    bramAt s (bramNo g b) w = ⟨d ^^^ 2 ^ k, squareOf d⟩ → Does (.bramWriteBack g b) s (fun t =>
      bramAt t (bramNo g b) w = ⟨d, squareOf d⟩ ∧ t.fab.writeBacks = [] ∧ KeepsBut [.fab] s t)) ∧
  (∀ (s : State) (g b w : Nat), g < 8 → b < 1920 → w < 1024 → regionRuns s g (bramOwner s g b) = true → s.fab.writeBacks = [] → s.fab.mends = [] →
    s.fab.sweepFound = [] → sget 0 s.fab.sweepPos (bramNo g b) = w → injArmed s (8 + g) 0 = false → whereUsed s (8 + g) 0 = [] →
    ((squareCheck (bramAt s (bramNo g b) w)).1 = 0 → Does (.bramSweepRead g b) s (fun t =>
      sget 0 t.fab.sweepPos (bramNo g b) = (w + 1) % 1024 ∧ t.fab.bram = s.fab.bram ∧ KeepsBut [.fab] s t)) ∧
    ((squareCheck (bramAt s (bramNo g b) w)).1 = 1 → Does (.bramSweepRead g b) s (fun t =>
      t.fab.writeBacks = [(bramNo g b, w)] ∧ sget [] t.fab.sweepFound (bramNo g b) = [w]
      ∧ rd t (cfgGrv g + 0x108) = satInc (rd s (cfgGrv g + 0x108)) ∧ KeepsBut [.regs, .fab, .ras] s t))) ∧
  (∀ (s : State) (g b w src tag : Nat), g < 8 → b < 1920 → w < 1024 → exported s g b = true → s.fab.mends = [] →
    injArmed s (8 + g) 0 = false → injArmed s (8 + g) 7 = false → whereUsed s (8 + g) 0 = [] → (squareCheck (bramAt s (bramNo g b) w)).1 = 2 →
    Does (.bramExportAccess src tag g b false (8 * w) 8 []) s (fun t => (∃ p : Packet, t.net.getLast? = some p ∧ p.dst = src ∧ p.tag = tag
      ∧ p.status = 0xD) ∧ t.fab.bram = s.fab.bram))

/-- The user NVM (05 R158, R159). -/
def Obligations.UserNvmCommands : Prop :=
  (∀ (s : State) (g a : Nat), nvmFree s g = true → a < 262144 →
    ((nvmAt s g a).undef = false → injArmed s (8 + g) 0xC = false →
      Does (.nvmRead g a []) s (fun t => (nvmPort t g).busy = some (1, a, 0, (nvmAt s g a).data) ∧ KeepsBut [.fab] s t) ∧
      (∀ i : Nat, i < 72 → Does (.nvmRead g a [i]) s (fun t => (nvmPort t g).busy = some (1, a, 1, (nvmAt s g a).data) ∧ KeepsBut [.fab, .ras] s t))) ∧
    (∀ d : Nat, d < 2 ^ 64 →
      (nvmAt s g a = {} → Does (.nvmProgram g a d) s (fun t => (nvmPort t g).busy = some (2, a, 0, d) ∧ t.fab.nvm = s.fab.nvm ∧ KeepsBut [.fab] s t)) ∧
      (nvmAt s g a ≠ {} → Does (.nvmProgram g a d) s (fun t => (nvmPort t g).busy = some (2, a, 3, 0) ∧ KeepsBut [.fab] s t))) ∧
    (nvmCountOf s g (a / 512) < 99999 → Does (.nvmErase g a) s (fun t => (nvmPort t g).busy = some (3, a, 0, 0)
      ∧ nvmCountOf t g (a / 512) = nvmCountOf s g (a / 512) + 1 ∧ KeepsBut [.fab] s t)) ∧
    (100000 ≤ nvmCountOf s g (a / 512) → Does (.nvmErase g a) s (fun t => (nvmPort t g).busy = some (3, a, 4, 0)
      ∧ t.fab.nvmCount = s.fab.nvmCount ∧ KeepsBut [.fab] s t)) ∧
    Does (.nvmCount g a) s (fun t => (nvmPort t g).busy = some (4, a, 0, nvmCountOf s g (a / 512) % 2 ^ 32) ∧ KeepsBut [.fab] s t)) ∧
  (∀ (s : State) (g a st d : Nat), g < 8 → a < 262144 →
    ((nvmPort s g).busy = some (1, a, st, d) → Does (.nvmDone g) s (fun t => (nvmPort t g).busy = none ∧ (nvmPort t g).status = st
      ∧ (nvmPort t g).rdata = d ∧ t.fab.nvm = s.fab.nvm ∧ KeepsBut [.fab] s t)) ∧
    ((nvmPort s g).busy = some (2, a, 0, d) → Does (.nvmDone g) s (fun t => (nvmPort t g).busy = none ∧ nvmAt t g a = ⟨d, false⟩
      ∧ (∀ x : Nat, x < 262144 → x ≠ a → nvmAt t g x = nvmAt s g x) ∧ KeepsBut [.fab] s t)) ∧
    ((nvmPort s g).busy = some (3, a, 0, 0) → Does (.nvmDone g) s (fun t => (nvmPort t g).busy = none
      ∧ (∀ x : Nat, x < 262144 → nvmAt t g x = if x / 512 = a / 512 then {} else nvmAt s g x) ∧ KeepsBut [.fab] s t)))

/-- Serial ports (05 R161), probes and trace memory (R167-R169). -/
def Obligations.SerialPortsProbesAndTrace : Prop :=
  (∀ (s : State) (g p item : Nat), g < 8 → p < 6 → hardOn s g (3 + p) = true → rdB s (clkBlk (8 + g) + 0x10) (12 + p) = true → item < 256 →
    ((serialAt s g p).tx.length < 64 → Does (.fabricSerialTransfer g p 0 item) s (fun t =>
      (serialAt t g p).tx = (serialAt s g p).tx ++ [item] ∧ (serialAt t g p).rx = (serialAt s g p).rx ∧ KeepsBut [.fab] s t)) ∧
    ((serialAt s g p).tx.length = 64 → exec (.fabricSerialTransfer g p 0 item) s = .next s) ∧
    (∀ l : List Nat, (serialAt s g p).tx = item :: l → Does (.fabricSerialTransfer g p 1 0) s (fun t => (serialAt t g p).tx = l
      ∧ (serialAt t g p).line = (serialAt s g p).line ++ [item] ∧ KeepsBut [.fab] s t)) ∧
    ((serialAt s g p).rx.length < 64 → Does (.fabricSerialTransfer g p 2 item) s (fun t =>
      (serialAt t g p).rx = (serialAt s g p).rx ++ [item] ∧ KeepsBut [.fab] s t)) ∧
    Does (.fabricSerialTransfer g p 3 0) s (fun t => (serialAt t g p).rx = (serialAt s g p).rx.drop 1 ∧ KeepsBut [.fab] s t)) ∧
  (∀ (s : State) (g : Nat) (v : Word), g < 8 → bit v 0 = true →
    Does (.probeArm .warden g v) s (fun t => rdB t (prbCtrl g) 0 = true ∧ rdF t (prbStatus g) 16 0 = 0 ∧ rdF t (prbStatus g) 31 29 = 0
      ∧ rdB t (prbStatus g) 28 = rdB s (prbStatus g) 28 ∧ KeepsBut [.regs, .fab] s t ∧ RegsBut (fun a => a = prbCtrl g ∨ a = prbStatus g) s t)) ∧
  (∀ (s : State) (g v : Nat), g < 8 → prbArmed s g = true → rdB s (prbCtrl g) 1 = false → sget none s.fab.postLeft g = some 1 →
    rdF s (prbStatus g) 16 0 < 131071 →
    Does (.probeCaptureEnd g [v]) s (fun t => rdB t (prbStatus g) 31 = true ∧ rdB t (prbCtrl g) 0 = false
      ∧ rdF t (prbStatus g) 16 0 = rdF s (prbStatus g) 16 0 + 1
      ∧ sget {} t.fab.trace (g * 131072 + rdF s (prbStatus g) 16 0) = ⟨maskSample s g v, 0⟩
      ∧ KeepsBut [.regs, .fab] s t ∧ RegsBut (fun a => a = prbCtrl g ∨ a = prbStatus g) s t)) ∧
  (∀ (s : State) (g v : Nat), trigReady s g 0 = true → trigMatch s g v = true → rdB s (prbCtrl g) 1 = false → rdF s (prbCtrl g) 31 15 ≠ 0 →
    rdF s (prbTctrl g) 31 29 = 0 → Does (.probeTrigger g [v]) s (fun t => rdB t (prbStatus g) 30 = true
      ∧ rdF t (dbgBlk g + 0x108) 16 0 = rdF s (prbStatus g) 16 0 ∧ sget none t.fab.postLeft g = some (rdF s (prbCtrl g) 31 15)
      ∧ KeepsBut [.regs, .fab] s t ∧ RegsBut (fun a => a = prbStatus g ∨ a = dbgBlk g + 0x108) s t)) ∧
  (∀ (s : State) (g i : Nat), g < 8 → i < 131072 → injArmed s (8 + g) 0xD = false → (sget {} s.fab.trace (g * 131072 + i)).badBytes = 0 →
    exec (.traceRead g i) s = .next s)

/-! ### The Bough and flow contracts (06) -/

/-- Requests presented, held back and released (06 R182-R189, R196). -/
def Obligations.RequestsLeaveOrWaitInTheirInterface : Prop :=
  (∀ (s : State) (src tag addr len : Nat), s.pkg.held = false → populated src = true → dieAlive s (src / 256) = true → 0 < len →
    len ≤ 256 - addr % 256 → addr < 2 ^ 48 → tag < 2 ^ 16 → cacheable s src 1 addr = false → s.bough.waiting = [] →
    (bit (routeOf s src (stationOf s addr)) 31 = true → inSink s src = false →
      (flitsOf len ≤ slotsFree s src → injArmed s (src / 256) 7 = false →
        Does (.boughRequestSend src 1 tag addr len [] none false) s (fun t =>
          t.net = s.net ++ [{
            op := 1, vc := 2, dst := stationOf s addr, src := src, tag := tag, addr := addr, len := len,
            tdir := fld (routeOf s src (stationOf s addr)) 29 29, altOk := bit (routeOf s src (stationOf s addr)) 28,
            hops := fld (routeOf s src (stationOf s addr)) 15 8 }]
          ∧ slotsFree t src = slotsFree s src - flitsOf len ∧ KeepsBut [.regs, .bough, .net] s t ∧ RegsBut (fun a => a = stnCfg src) s t)) ∧
      (slotsFree s src < flitsOf len → Does (.boughRequestSend src 1 tag addr len [] none false) s (fun t =>
          t.net = s.net ∧ (t.bough.waiting.map (fun p => (p.op, p.src, p.dst, p.tag, p.addr, p.len))) = [(1, src, stationOf s addr, tag, addr, len)]
          ∧ KeepsBut [.bough] s t))) ∧
    (bit (routeOf s src (stationOf s addr)) 31 = false → src ≠ 1 → isDesign src = false →
      Does (.boughRequestSend src 1 tag addr len [] none false) s (fun t => t.net = s.net
        ∧ bghRead t (src / 256) 1 = min (2 ^ 32 - 1) (bghRead s (src / 256) 1 + 1)
        ∧ (t.bough.inbox.getLast?.map (fun p => (p.op, p.dst, p.tag, p.status))) = some (4, src, tag, 6)
        ∧ KeepsBut [.regs, .bough] s t ∧ RegsBut (fun a => a = bghBlk (src / 256 - 8) + 0xC) s t))) ∧
  (∀ (s : State) (src tag addr : Nat) (data : List Byte), s.pkg.held = false → populated src = true → dieAlive s (src / 256) = true →
    0 < data.length → data.length ≤ 256 - addr % 256 → addr < 2 ^ 48 → tag < 2 ^ 16 → s.bough.waiting = [] →
    fld (routeOf s src (stationOf s addr)) 31 30 = 3 → injArmed s (src / 256) 7 = false →
    let id := fld (routeOf s src (stationOf s addr)) 27 16
    (meterOk (contractOf s id) data.length = true → Does (.boughRequestSend src 3 tag addr data.length data none false) s (fun t =>
      (t.net.getLast?.map (fun p => (p.vc, p.guar, p.contract, p.dst, p.data))) = some (0, true, id, stationOf s addr, data)
      ∧ t.net.length = s.net.length + 1 ∧ (contractOf t id).peakA = (contractOf s id).peakA - 4000 * data.length
      ∧ (contractOf t id).rateA = (contractOf s id).rateA - 4000 * data.length ∧ KeepsBut [.bough, .net] s t)) ∧
    (meterOk (contractOf s id) data.length = false → Does (.boughRequestSend src 3 tag addr data.length data none false) s (fun t =>
      t.bough.waiting.length = 1 ∧ t.net = s.net ∧ KeepsBut [.bough] s t))) ∧
  (∀ (s : State) (p : Packet) (l : List Packet), s.bough.waiting = p :: l → injArmed s (p.src / 256) 7 = false →
    (p.vc = 0 → meterOk (contractOf s p.contract) p.len = true → Does (.contractMeterRelease p.src p.dst) s (fun t =>
      t.net = s.net ++ [p] ∧ t.bough.waiting = l ∧ (contractOf t p.contract).peakA = (contractOf s p.contract).peakA - 4000 * p.len
      ∧ KeepsBut [.bough, .net] s t)) ∧
    (p.vc = 2 → inSink s p.src = false → slotsFor p ≤ slotsFree s p.src → Does (.responseSlotReserved p.src p.dst) s (fun t =>
      t.net = s.net ++ [p] ∧ t.bough.waiting = l ∧ slotsFree t p.src = slotsFree s p.src - slotsFor p
      ∧ KeepsBut [.regs, .bough, .net] s t ∧ RegsBut (fun a => a = stnCfg p.src) s t)))

/-- What routers, bridges and destinations do to packets (06 R181-R193, R576). -/
def Obligations.PacketsAreDeliveredTurnedOrDiscarded : Prop :=
  (∀ (s : State) (p : Packet), s.net = [p] → p.op = 1 → p.src % 256 ≠ 3 →
    (∀ o : Output, (packetPath p)[p.hops]? = some o → Does (.hopsExpired 0) s (fun t =>
      t.net = [{ responseTo p 6 [] false with src := p.src }]
      ∧ bghRead t ((outputDies o).headD 0) 2 = min (2 ^ 32 - 1) (bghRead s ((outputDies o).headD 0) 2 + 1) ∧ KeepsBut [.regs, .bough, .net] s t)) ∧
    (∀ d u : Nat, (packetPath p).find? (outputLost s) = some (.trunk d u) →
      (p.altOk = true → p.turned = false → Does (.trunkTurn 0) s (fun t => t.net = [{ p with tdir := 1 - u, turned := true }]
        ∧ bghRead t d 5 = min (2 ^ 32 - 1) (bghRead s d 5 + 1) ∧ KeepsBut [.regs, .bough, .net] s t)) ∧
      (p.altOk = false ∨ p.turned = true → Does (.trunkTurn 0) s (fun t => t.net = [{ responseTo p 0xE [] false with src := p.src }]
        ∧ bghRead t d 3 = min (2 ^ 32 - 1) (bghRead s d 3 + 1) ∧ KeepsBut [.regs, .bough, .net] s t)))) ∧
  (∀ (s : State) (p : Packet), s.net = [p] → (p.op = 0 ∨ 9 < p.op) → Does (.badOpDiscard 0) s (fun t => t.net = []
    ∧ bghRead t (p.src / 256) 1 = min (2 ^ 32 - 1) (bghRead s (p.src / 256) 1 + 1) ∧ KeepsBut [.regs, .bough, .net] s t)) ∧
  (∀ (s : State) (p : Packet), s.net = [p] → mayArrive s 0 p = true → p.chkBad = false →
    (p.op = 4 → (kindOf p.dst = .tiles ∨ kindOf p.dst = .porter) → Does (.packetArrival 0 false true) s (fun t => t.net = []
      ∧ t.bough.inbox = s.bough.inbox ++ [p] ∧ slotsFree t p.dst = 64 - (sget 0 s.bough.used p.dst - flitsOf p.len)
      ∧ KeepsBut [.regs, .bough, .net] s t ∧ RegsBut (fun a => a = stnCfg p.dst) s t)) ∧
    (p.op = 1 → kindOf p.dst = .engine → Does (.packetArrival 0 false true) s (fun t => t.net = [responseTo p 6 [] false]
      ∧ bghRead t (p.dst / 256) 1 = min (2 ^ 32 - 1) (bghRead s (p.dst / 256) 1 + 1) ∧ KeepsBut [.regs, .bough, .net] s t)) ∧
    (p.op = 3 → isDesign p.dst = true → p.marked = false →
      Does (.packetArrival 0 false true) s (fun t => t.net = [] ∧ KeepsBut [.net] s t) ∧
      exec (.packetArrival 0 false false) s = .next s ∧
      (EventFits s 0x0405 2 → Does (.packetArrival 0 true true) s (fun t => t.net = [] ∧ EventPlaced t 0x0405 (word p.dst)
        ∧ bghRead t (p.dst / 256) 0 = min (2 ^ 32 - 1) (bghRead s (p.dst / 256) 0 + 1)
        ∧ rd t (bghBlk (p.dst / 256 - 8) + 8) = word (p.dst + p.src * 2 ^ 16) ∧ KeepsBut [.regs, .ward, .ras, .net] s t)))) ∧
  (∀ (s : State) (p : Packet), isDesign p.dst = true → inSink s p.dst = true → s.bough.inbox = [p] → p.vc = 1 → EventFits s 0x0404 2 →
    Does (.sinkViolation p.dst) s (fun t => t.bough.inbox = [] ∧ EventPlaced t 0x0404 (word p.dst)
      ∧ bghRead t (p.dst / 256) 6 = min (2 ^ 32 - 1) (bghRead s (p.dst / 256) 6 + 1)
      ∧ OnlyRegs (fun a => a = bghBlk (p.dst / 256 - 8) + 0x20) [.bough] s t))

/-- FLOW commands and rerouting (06 R194-R204). -/
def Obligations.FlowContractsAreAdmittedClosedAndRerouted : Prop :=
  (∀ (s : State) (b : Nat), Serving s b 0x0401 [] → (∀ e ∈ s.bough.contracts, e.2.state ≠ .broken) →
    Does (.flowInfo b) s (fun t => OnlyAnswer s t ∧ Answered t b 0 0 (word (openContracts s).length :: 0
      :: word (4096 - (openContracts s).length) :: word (b2n s.bough.line)
      :: ((upto 8).map (fun g => word (itemsOf s g)) ++ (upto 8).map (fun g => word (tileNsOf s g)))))) ∧
  (∀ (s : State) (b : Nat) (l : List Word) (c : Contract), l.length = 12 → Serving s b 0x0402 l →
    c = { state := .opened, terms := l, booth := b } → termsBad c = none →
    (openCheck s c = none → nfld (wordAt l 1) 29 28 = 1 → c.eclass ≠ 0 → c.items = 0 → itemsOf s (c.flow / 2 ^ 21) ≤ 32768 →
      tileNsOf s (c.flow / 2 ^ 21) ≤ 460800000 →
      (pathFails s (openContracts s) c (pathOf c.src c.dst 0) = none → Does (.flowOpen b) s (fun t =>
        Answered t b 0 0 [word (freeContract s), word (boundNs s (openContracts s) c (pathOf c.src c.dst 0)), 0,
          word (pathSegs (pathOf c.src c.dst 0)).length, word (pathOf c.src c.dst 0).length]
        ∧ (contractOf t (freeContract s)).state = .opened ∧ (contractOf t (freeContract s)).peakA = 4000 * c.unit
        ∧ (contractOf t (freeContract s)).rateA = 4000 * c.burst ∧ routeOf t c.src c.dst = guarEntry (freeContract s) 0
        ∧ KeepsBut [.regs, .ward, .bough, .tal] s t)) ∧
      (pathFails s (openContracts s) c (pathOf c.src c.dst 0) = some 0x0402 → Does (.flowOpen b) s (fun t =>
        Answered t b 6 0x0402 [] ∧ OnlyAnswer s t))) ∧
    (openCheck s c = some (4, 0x040A) → Does (.flowOpen b) s (fun t => Answered t b 4 0x040A [] ∧ OnlyAnswer s t))) ∧
  (∀ (s : State) (b id : Nat), id < 4096 →
    (Serving s b 0x0403 [word id] → (contractOf s id).state = .opened → (contractOf s id).booth = b →
      Does (.flowClose b) s (fun t => Answered t b 0 0 [] ∧ (contractOf t id).state = .free
        ∧ bit (routeOf t (contractOf s id).src (contractOf s id).dst) 30 = false ∧ KeepsBut [.regs, .ward, .bough, .tal] s t)) ∧
    (Serving s b 0x0404 [word id] → (contractOf s id).state = .broken → (contractOf s id).terms.length = 12 →
      Does (.flowQuery b) s (fun t => OnlyAnswer s t ∧ Answered t b 0 0 ([0x52, word (contractOf s id).bound, word (contractOf s id).tdir,
        word (contractOf s id).booth] ++ (contractOf s id).terms)))) ∧
  (∀ (s : State) (b st k : Nat), st < 4096 → k < 2048 →
    (∀ d m : Nat, Serving s b 0x0405 [word st, word m, word d] → isDesign st = true → dieState s (st / 256) = 0x30 → m < 4 → 0 < d → d ≤ 2048 →
      (∀ e ∈ openContracts s, e.2.src ≠ st) → Does (.flowStation b) s (fun t =>
        rd t (stnCfg st) = setFld (setFld (rd s (stnCfg st)) 2 1 m) 31 20 d ∧ Answered t b 0 0 [rd t (stnCfg st)]
        ∧ KeepsBut [.regs, .ward] s t ∧ RegsBut (fun a => a = stnCfg st) s t)) ∧
    (∀ (e : Nat) (w : Word), Serving s b 0x0406 [word st, word (e + 2 ^ 16), w] → isDesign st = true → dieState s (st / 256) = 0x30 → e < 4096 →
      entryOk w.toNat = true → bit (routeOf s st e) 30 = false → Does (.flowRouteWrite b) s (fun t => Answered t b 0 0 []
        ∧ routeOf t st e = w ∧ (∀ x y : Nat, y < 4096 → (x ≠ st ∨ y ≠ e) → routeOf t x y = routeOf s x y) ∧ KeepsBut [.ward, .bough] s t)) ∧
    (∀ e : Nat, Serving s b 0x0407 [word st, word (e + k * 2 ^ 16)] → populated st = true → 0 < k → e + k ≤ 4096 →
      Does (.flowRouteRead b) s (fun t => OnlyAnswer s t ∧ Answered t b 0 0 ((upto k).map (fun i => routeOf s st (e + i))))) ∧
    (∀ d : Nat, Serving s b 0x0408 [word d] → isDie d = true → d < 16 → Does (.flowStats b) s (fun t => OnlyAnswer s t
      ∧ Answered t b 0 0 (word (b2n s.bough.line) :: (upto 7).map (fun i => word (bghRead s d i)))))) ∧
  (∀ (s : State) (seg : Nat), s.bough.rerouteDue = [seg] →
    (∀ (st e d : Nat) (w : Word), e < 4096 → s.bough.entries = [(st * 4096 + e, some w)] → openContracts s = [] → bit w 31 = true →
      bit w 30 = false → fld w 29 29 = d → (pathSegs (pathOf st e d)).contains seg = true → Does .trunkReroute s (fun t =>
        routeOf t st e = setFld w 29 29 (1 - d) ∧ t.bough.avoid.contains seg = true ∧ t.bough.rewrites = s.bough.rewrites ++ [(seg, st * 4096 + e, d)]
        ∧ KeepsBut [.bough] s t)) ∧
    (∀ (id : Nat) (c : Contract), s.bough.entries = [] → s.bough.contracts = [(id, c)] → c.state = .opened →
      (pathSegs c.path).contains seg = true →
      (pathFails s [] c (pathOf c.src c.dst (1 - c.tdir)) = none → EventFits s 0x0402 1 → Does .trunkReroute s (fun t =>
        (contractOf t id).state = .opened ∧ (contractOf t id).tdir = 1 - c.tdir ∧ EventPlaced t 0x0402 (word id)
        ∧ KeepsBut [.regs, .ward, .bough, .tal] s t)) ∧
      (pathFails s [] c (pathOf c.src c.dst (1 - c.tdir)) = some 0x040B → EventFits s 0x0401 2 → Does .trunkReroute s (fun t =>
        (contractOf t id).state = .broken ∧ EventPlaced t 0x0401 (word id) ∧ KeepsBut [.regs, .ward, .bough, .tal] s t)))) ∧
  (∀ (s : State) (seg st e d : Nat) (w : Word), e < 4096 → d < 2 → s.bough.restoreDue = [seg] → s.bough.rewrites = [(seg, st * 4096 + e, d)] →
    s.bough.entries = [(st * 4096 + e, some w)] → bit w 30 = false → (∀ i : Nat, i < 9 → segDown s i = false) → s.bough.line = true →
    Does .trunkRestore s (fun t => routeOf t st e = setFld w 29 29 d ∧ t.bough.rewrites = [] ∧ t.bough.line = false
      ∧ t.bough.avoid.contains seg = false ∧ OnlyRegs (fun a => ∃ g : Nat, g < 8 ∧ a = bghBlk g) [.bough] s t))

/-! ### Die links, remote cache and home directory (07) -/

/-- Training, replay, repair and narrowing (07 R208-R219). -/
def Obligations.LinksTrainRepairAndNarrow : Prop :=
  (∀ (s : State) (d u p v : Nat) (r : TrainRound), linkPeer d u = some (p, v) → d ≠ 0 → unitState s d u = 0x61 → isCrossing d u = false →
    r.heard = true →
    let cap := (linkAt s d u).cap
    let a := proposeWidth (r.badA.headD 0) cap
    let b := proposeWidth (r.badB.headD 0) cap
    (a = b → a ≠ 0 → a ≤ 1024 → r.checkOk = true → Does (.linkTrainRoundEnd d u r) s (fun t =>
      unitState t d u = (if a = 1024 then 0x62 else 0x63) ∧ unitWidth t d u = a ∧ (linkAt t d u).round = 0
      ∧ KeepsBut [.regs, .ward, .links, .bough] s t)) ∧
    (a = b → a = 1024 → r.checkOk = false → (linkAt s d u).round < 3 → Does (.linkTrainRoundEnd d u r) s (fun t =>
      (linkAt t d u).cap = 512 ∧ (linkAt t d u).round = (linkAt s d u).round + 1 ∧ KeepsBut [.links] s t)) ∧
    (a ≠ b → a ≠ 0 → b ≠ 0 → (linkAt s d u).round < 3 → Does (.linkTrainRoundEnd d u r) s (fun t => (linkAt t d u).cap = min a b
      ∧ (linkAt t d u).round = (linkAt s d u).round + 1 ∧ unitState t d u = 0x61 ∧ KeepsBut [.links] s t)) ∧
    (a = 0 → s.net = [] → openContracts s = [] → Does (.linkTrainRoundEnd d u r) s (fun t => unitState t d u = 0x65
      ∧ (EventFits s 0x0883 2 → EventPlaced t 0x0883 (word (d + u * 2 ^ 8))) ∧ KeepsBut [.regs, .ward, .links, .bough] s t))) ∧
  (∀ (s : State) (d u p v : Nat) (r : TrainRound), linkPeer d u = some (p, v) → unitState s d u = 0x61 → isCrossing d u = true → r.heard = true →
    proposeGroups r.badA (linkAt s d u).cap = 0x7F → proposeGroups r.badB (linkAt s d u).cap = 0x7F → r.checkOk = true →
    Does (.linkTrainRoundEnd d u r) s (fun t => unitState t d u = 0x63 ∧ unitWidth t d u = 0x7F ∧ KeepsBut [.regs, .ward, .links] s t)) ∧
  (∀ (s : State) (d u p v : Nat), linkPeer d u = some (p, v) → d ≠ 0 → unitState s d u = 0x61 → s.net = [] → openContracts s = [] →
    ((linkAt s d u).round < 3 → Does (.linkRoundTimeout d u) s (fun t => (linkAt t d u).round = (linkAt s d u).round + 1 ∧ KeepsBut [.links] s t)) ∧
    ((linkAt s d u).round = 3 → (linkAt s d u).inService = false → Does (.linkRoundTimeout d u) s (fun t => unitState t d u = 0x65
      ∧ rdF t (lnkBlk d u) 25 24 = 1 ∧ rdF t (lnkBlk d u) 13 12 = 3 ∧ KeepsBut [.regs, .ward, .links, .bough] s t))) ∧
  (∀ (s : State) (d u p v : Nat), linkPeer d u = some (p, v) → d ≠ 0 → isCrossing d u = false → unitRuns s d u = true →
    (∀ n : Nat, sget 0 (linkAt s d u).fails (d * 16 + u) = n → (p = 0 ∨ injArmed s p 4 = false ∧ injArmed s p 8 = false) →
      (n < 7 → Does (.transferCrcError d u true) s (fun t => rd t (lnkBlk d u + 8) = satInc (rd s (lnkBlk d u + 8))
        ∧ rd t (lnkBlk d u + 0xC) = satInc (rd s (lnkBlk d u + 0xC)) ∧ sget 0 (linkAt t d u).fails (d * 16 + u) = n + 1
        ∧ KeepsBut [.regs, .links] s t ∧ RegsBut (fun a => a = lnkBlk d u + 8 ∨ a = lnkBlk d u + 0xC) s t)) ∧
      (n = 7 → Does (.transferCrcError d u true) s (fun t => unitState t d u = 0x61 ∧ (linkAt t d u).round = 1
        ∧ rd t (lnkBlk d u + 0x10) = satInc (rd s (lnkBlk d u + 0x10)) ∧ KeepsBut [.regs, .links] s t))) ∧
    (∀ w : Nat, w < 2048 → (linkAt s d u).fails = [] →
      ((linkAt s d u).charges = [] → Does (.replayArrival d u [w]) s (fun t => (linkAt t d u).charges = [((d * 16 + u) * 2048 + w, s.tu.tick)]
        ∧ KeepsBut [.links] s t)) ∧
      ((linkAt s d u).charges = List.replicate 15 ((d * 16 + u) * 2048 + w, s.tu.tick) → rdF s (lnkBlk d u + 4) 9 0 < 63 →
        Does (.replayArrival d u [w]) s (fun t => rdF t (lnkBlk d u + 4) 9 0 = rdF s (lnkBlk d u + 4) 9 0 + 1
          ∧ rd t (lnkBlk d u + 0x14) = satInc (rd s (lnkBlk d u + 0x14)) ∧ rd t (lnkBlk d u + 0x1C) = word w
          ∧ KeepsBut [.regs, .links] s t ∧ RegsBut (fun a => a = lnkBlk d u + 4 ∨ a = lnkBlk d u + 0x14 ∨ a = lnkBlk d u + 0x1C) s t)))) ∧
  (∀ (s : State) (d u id : Nat) (c : Contract), s.links.narrowDue = [(d, u)] → s.bough.contracts = [(id, c)] → c.state = .opened →
    crossesUnit c d u = true → EventFits s 0x0882 1 →
    (pathFails s [] c c.path = none → Does .narrowReevaluation s (fun t => contractOf t id = c ∧ t.links.narrowDue = []
      ∧ EventPlaced t 0x0882 (word (d + u * 2 ^ 8)) ∧ OnlyRegs (fun _ => False) [.links] s t)) ∧
    ((pathFails s [] c c.path).isSome = true → 8 ≤ u → Does .narrowReevaluation s (fun t => (contractOf t id).state = .broken
      ∧ t.links.narrowDue = [] ∧ KeepsBut [.regs, .ward, .links, .bough, .tal] s t))) ∧
  (∀ (s : State) (d u p v : Nat), isCrossing d u = true → linkPeer d u = some (p, v) → unitRuns s d u = true → injArmed s d 9 = false →
    Does (.crossingParityError d u) s (fun t => rd t (lnkBlk d u + 8) = satInc (rd s (lnkBlk d u + 8)) ∧ KeepsBut [.regs] s t
      ∧ RegsBut (fun a => a = lnkBlk d u + 8) s t))

/-- The remote cache (07 R222-R224, R231, R232, R237, R575). -/
def Obligations.RemoteCacheServesFillsAndChecks : Prop :=
  (∀ (s : State) (g k l : Nat) (p : Packet), g < 8 → s.bough.inbox = [p] → p.dst = rmcStation g → p.op = 1 → p.src / 256 = 8 + g →
    p.src % 256 ≠ 3 → p.addr < 0x020000000000 → 0 < p.len → p.addr % 64 + p.len ≤ 64 → lineOf p.addr = l → stationStopped s p.dst = false →
    rmcWaits s g = false → rdB s (rmcBlk g) 0 = true → s.rmc.reqs = [] → fillOf s g (p.addr / 0x4000000000) l = none →
    injArmed s (8 + g) 7 = false →
    (findWay s g (p.addr / 0x4000000000) l = some k →
      ((wayAt s k).st = 1 ∨ (wayAt s k).st = 2) → (wayAt s k).poison = false →
        Does (.cacheableRequest 0) s (fun t => t.net = s.net ++ [responseTo p 0 (((wayAt s k).data.drop (p.addr % 64)).take p.len) false]
          ∧ t.bough.inbox = [] ∧ rd t (rmcBlk g + 0x10) = satInc (rd s (rmcBlk g + 0x10)) ∧ (wayAt t k).st = (wayAt s k).st
          ∧ KeepsBut [.regs, .bough, .net, .rmc] s t ∧ RegsBut (fun a => a = rmcBlk g + 0x10) s t)) ∧
    (findWay s g (p.addr / 0x4000000000) l = some k → (wayAt s k).st = 3 → p.prov = true → vestEn s g = true → (wayAt s k).check = false →
      Does (.cacheableRequest 0) s (fun t => (t.net.map (fun q => (q.op, q.dst, q.prov))) = s.net.map (fun q => (q.op, q.dst, q.prov))
          ++ [(4, p.src, true), (1, rmcStation (wayAt s k).home, true)]
        ∧ (wayAt t k).check = true ∧ t.rmc.checks = s.rmc.checks ++ [{
            grove := g, home := (wayAt s k).home, line := (wayAt s k).line, data := (wayAt s k).data, requesters := [p] }]
        ∧ rd t (rmcBlk g + 0x18) = satInc (rd s (rmcBlk g + 0x18)) ∧ KeepsBut [.regs, .bough, .net, .rmc] s t)) ∧
    (findWay s g (p.addr / 0x4000000000) l = none → victim s g l = some k → (wayAt s k).st = 0 → s.bough.waiting = [] →
      1 ≤ slotsFree s (rmcStation g) → bit (routeOf s (rmcStation g) (rmcStation (p.addr / 0x4000000000))) 31 = true →
      Does (.cacheableRequest 0) s (fun t => t.rmc.fills = s.rmc.fills ++ [{
          grove := g, home := p.addr / 0x4000000000, line := l, excl := false, way := k }]
        ∧ (t.net.getLast?.map (fun q => (q.op, q.dst, q.addr))) = some (1, rmcStation (p.addr / 0x4000000000), homeAddr (p.addr / 0x4000000000) l)
        ∧ rd t (rmcBlk g + 0x14) = satInc (rd s (rmcBlk g + 0x14)) ∧ KeepsBut [.regs, .bough, .net, .rmc] s t))) ∧
  (∀ (s : State) (g : Nat) (f : Fill) (p : Packet), g < 8 → s.bough.inbox = [p] → p.dst = rmcStation g → p.op = 4 → p.status = 0 →
    p.poison = false → s.rmc.fills = [f] → f.grove = g → f.home = p.addr / 0x4000000000 → f.line = lineOf p.addr → s.rmc.reqs = [] →
    stationStopped s p.dst = false → rmcWaits s g = false → (∃ k ∈ setWays g f.line, k ≠ f.way ∧ (wayAt s k).st = 0) →
    Does (.cacheFillArrival 0) s (fun t => (wayAt t f.way).st = (if f.excl then 2 else 1) ∧ (wayAt t f.way).data = p.data
      ∧ (wayAt t f.way).line = f.line ∧ (wayAt t f.way).home = f.home ∧ t.rmc.fills = [] ∧ t.bough.inbox = [] ∧ KeepsBut [.bough, .rmc] s t)) ∧
  (∀ (s : State) (g k : Nat) (p : Packet), g < 8 → s.bough.inbox = [p] → p.dst = rmcStation g → p.op = 7 → p.len = 0 → p.status = 0 →
    p.addr % 64 = 0 → stationStopped s p.dst = false → rmcWaits s g = false → s.net = [] → injArmed s (8 + g) 7 = false →
    findWay s g (p.addr / 0x4000000000) (lineOf p.addr) = some k → (wayAt s k).st = 1 →
    Does (.withdrawalArrival 0) s (fun t => wayAt t k = {} ∧ (t.net.map (fun q => (q.op, q.dst, q.len))) = [(6, p.src, 0)]
      ∧ t.bough.inbox = [] ∧ KeepsBut [.bough, .net, .rmc] s t)) ∧
  (∀ (s : State) (g k : Nat) (p q : Packet) (c : VCheck), g < 8 → s.bough.inbox = [p] → p.dst = rmcStation g → p.op = 6 →
    p.addr / 0x4000000000 ≠ g → p.status = 0 → p.poison = false → stationStopped s p.dst = false → rmcWaits s g = false →
    s.rmc.checks = [c] → c = { grove := g, home := p.addr / 0x4000000000, line := lineOf p.addr, data := c.data, requesters := [q] } →
    checkWay s c = some k → s.rmc.reqs = [] → injArmed s (q.dst / 256) 7 = false → s.net = [] →
    Does (.checkAnswerArrival 0) s (fun t => (wayAt t k).st = 1 ∧ (wayAt t k).data = c.data ∧ (wayAt t k).check = false ∧ t.rmc.checks = []
      ∧ (t.net.map (fun x => (x.op, x.dst, x.tag, x.len))) = [(6, q.src, q.tag, 0)] ∧ rd t (rmcBlk g + 0x1C) = satInc (rd s (rmcBlk g + 0x1C))
      ∧ KeepsBut [.regs, .bough, .net, .rmc] s t ∧ RegsBut (fun a => a = rmcBlk g + 0x1C) s t)) ∧
  (∀ (s : State) (q : Packet) (c : VCheck), s.rmc.checks = [c] → c.expired = false → c.requesters = [q] → injArmed s (q.dst / 256) 7 = false →
    s.net = [] → c.grove < 8 → Does (.confirmWindowExpiry 0) s (fun t => t.rmc.checks = [{ c with expired := true }]
      ∧ (t.net.map (fun x => (x.op, x.dst, x.tag, x.len))) = [(7, q.src, q.tag, 0)] ∧ rd t (rmcBlk c.grove + 0x24) = satInc (rd s (rmcBlk c.grove + 0x24))
      ∧ rd t (rmcBlk c.grove + 0x20) = satInc (rd s (rmcBlk c.grove + 0x20)) ∧ KeepsBut [.regs, .net, .rmc] s t)) ∧
  (∀ (s : State) (g : Nat), g < 8 → rdB s (rmcBlk g + 4) 0 = true → s.rmc.fills = [] → s.rmc.checks = [] →
    (∀ (k : Nat) (x : CacheLine), s.rmc.lines = [(k, x)] → k / 262144 = g → x.st = 1 → x.check = false → rmcWaits s g = false → s.net = [] →
      injArmed s (8 + g) 7 = false → Does (.rmcFlush g) s (fun t => t.rmc.lines = []
        ∧ (t.net.map (fun q => (q.op, q.dst, q.len))) = [(6, rmcStation x.home, 0)] ∧ KeepsBut [.net, .rmc] s t)) ∧
    (s.rmc.lines = [] → Does (.rmcFlushDone g) s (fun t => rdB t (rmcBlk g + 4) 0 = false ∧ KeepsBut [.regs] s t
      ∧ RegsBut (fun a => a = rmcBlk g + 4) s t))) ∧
  (∀ (s : State) (g : Nat), g < 8 → rdB s (clkBlk (8 + g) + 0x108) 6 = true → s.rmc.checks = [] → s.rmc.dir = [] → s.rmc.evicts = [] →
    Does (.rmcBlockReset g) s (fun t => (∀ k : Nat, k / 262144 = g → wayAt t k = {})
      ∧ (∀ a : Nat, rmcBlk g + 0x10 ≤ a → a < rmcBlk g + 0x40 → a % 4 = 0 → rd t a = 0) ∧ rdB t (rmcBlk g + 4) 0 = false
      ∧ KeepsBut [.regs, .ward, .rmc] s t))

/-- The home directory (07 R225-R229). -/
def Obligations.HomeDirectoryWithdrawsBeforeItGrants : Prop :=
  (∀ (s : State) (g h k : Nat) (p : Packet), g < 8 → h < 8 → h ≠ g → s.bough.inbox = [p] → p.dst = rmcStation g → p.src = rmcStation h →
    p.op = 1 → stationStopped s p.dst = false → rmcWaits s g = false → s.rmc.homeReqs = [] → s.dram.accesses = [] →
    (dirFind s g (lineOf p.addr) = none → dirFree s g (lineOf p.addr) = some k → Does (.homeRequest 0) s (fun t =>
      t.rmc.homeReqs = [{ home := g, pkt := p, awaits := [] }] ∧ (dirAt t k).valid = true ∧ (dirAt t k).line = lineOf p.addr
      ∧ t.bough.inbox = [] ∧ KeepsBut [.bough, .rmc] s t)) ∧
    (∀ (e : DirEntry) (o : Nat), o < 8 → o ≠ h → p.addr % 64 = 1 → dirFind s g (lineOf p.addr) = some k → dirAt s k = e → e.valid = true →
      e.holders = 2 ^ o → e.owned = false → s.net = [] → injArmed s (8 + g) 7 = false → Does (.homeRequest 0) s (fun t =>
        t.rmc.homeReqs = [{ home := g, pkt := p, awaits := [(lineOf p.addr, o, 0)] }]
        ∧ (t.net.map (fun q => (q.op, q.vc, q.dst, q.addr))) = [(7, 3, rmcStation o, g * 0x4000000000 + lineOf p.addr * 64)]
        ∧ KeepsBut [.bough, .net, .rmc] s t))) ∧
  (∀ (s : State) (g h k : Nat) (p r : Packet), g < 8 → h < 8 → s.bough.inbox = [p] → p.op = 6 → p.dst = rmcStation g → p.src = rmcStation h →
    p.addr / 0x4000000000 = g → p.len = 0 → stationStopped s p.dst = false → rmcWaits s g = false → s.rmc.evicts = [] →
    s.rmc.homeReqs = [{ home := g, pkt := r, awaits := [(lineOf p.addr, h, 0)] }] → dirFind s g (lineOf p.addr) = some k →
    (dirAt s k).holders = 2 ^ h → (dirAt s k).owned = false → Does (.surrenderArrival 0) s (fun t =>
      t.rmc.homeReqs = [{ home := g, pkt := r, awaits := [] }] ∧ dirAt t k = {} ∧ t.bough.inbox = [] ∧ KeepsBut [.bough, .rmc] s t)) ∧
  (∀ (s : State) (g h o : Nat) (p : Packet) (e : DirEntry), g < 8 → h < 8 → o < 8 → h ≠ g → s.bough.inbox = [p] → p.dst = rmcStation g →
    p.src = rmcStation h → p.op = 1 → stationStopped s p.dst = false → rmcWaits s g = false → s.rmc.homeReqs = [] → s.dram.accesses = [] →
    s.rmc.evicts = [] → s.net = [] → injArmed s (8 + g) 7 = false → e.valid = true → e.holders = 2 ^ o → hasEntry s g p = false →
    (∀ i : Nat, i < 16 → (dirAt s (dirBase g (lineOf p.addr) + i)).valid = true ∧ (dirAt s (dirBase g (lineOf p.addr) + i)).holders ≠ 0) →
    dirAt s (dirBase g (lineOf p.addr)) = e → (∀ i : Nat, i < 16 → e.used ≤ (dirAt s (dirBase g (lineOf p.addr) + i)).used) →
    Does (.directoryEvict 0) s (fun t => t.rmc.evicts = [{ home := g, key := dirBase g (lineOf p.addr), line := e.line, awaits := [(e.line, o, 3)] }]
      ∧ (t.net.map (fun q => (q.op, q.dst, q.addr))) = [(7, rmcStation o, g * 0x4000000000 + e.line * 64 + 3)]
      ∧ t.bough.inbox = [p] ∧ KeepsBut [.net, .rmc] s t)) ∧
  (∀ (s : State) (c : Nat) (p : Packet), c < 16 → s.bough.inbox = [p] → p.dst = 256 * (8 + c / 2) + 1 + c % 2 → p.op = 3 → p.vc = 0 →
    stationStopped s p.dst = false → rmcWaits s (c / 2) = false → s.rmc.dir = [] → chanState s c = 0x93 →
    Does (.vc0DramWrite 0) s (fun t => t.bough.inbox = [] ∧ (chanAt t c).rtWait = (chanAt s c).rtWait ++ [p] ∧ KeepsBut [.bough, .dram] s t))

/-! ### Signal tiles (08, 09) -/

/-- Scalar arithmetic, status and timer moves (09 R284, R285), with PAIR or without. -/
def Obligations.ScalarInstructionsGiveTheirResults : Prop :=
  (∀ (s : State) (t : Nat) (pair : Bool) (d a b : Nat), d < 16 → a < 16 → b < 16 →
    let x := inIssue s t
    let cr := d * 2 ^ 20 + a * 2 ^ 16 + b * 2 ^ 12
    (∀ e ∈ ([(.add t pair d a b, 1, fun p q => p + q), (.sub t pair d a b, 2, fun p q => p - q), (.mul t pair d a b, 3, fun p q => p * q)]
        : List (Instr × Nat × (Int → Int → Int))), AtPcC s t pair (wordC pair e.2.1 cr) →
      Does e.1 s (fun u => WordDone [] s u t pair ∧ Gives s u t (satResults s t (rS d) (fitN 32 x.sat (e.2.2 (x.sS a) (x.sS b)))
        (x.taints [rS a, rS b] || x.tnt rSt) (ovfN 32 (e.2.2 (x.sS a) (x.sS b))) 0))) ∧
    (∀ e ∈ ([(.min t pair d a b, 4, fun p q => if sint 32 p ≤ sint 32 q then p else q),
          (.max t pair d a b, 5, fun p q => if sint 32 p ≤ sint 32 q then q else p),
          (.and t pair d a b, 6, fun p q => p &&& q), (.or t pair d a b, 7, fun p q => p ||| q), (.xor t pair d a b, 8, fun p q => p ^^^ q),
          (.sll t pair d a b, 9, fun p q => p <<< (q % 32)), (.srl t pair d a b, 10, fun p q => p >>> (q % 32)),
          (.sra t pair d a b, 11, fun p q => uint 32 (sint 32 p / (2 ^ (q % 32) : Nat))),
          (.slt t pair d a b, 12, fun p q => if sint 32 p < sint 32 q then 1 else 0), (.sltu t pair d a b, 13, fun p q => if p < q then 1 else 0)]
        : List (Instr × Nat × (Nat → Nat → Nat))), AtPcC s t pair (wordC pair e.2.1 cr) →
      Does e.1 s (fun u => WordDone [] s u t pair ∧ Gives s u t [tileResult s t (rS d) (e.2.2 (x.uS a) (x.uS b) % 2 ^ 32)
        (x.taints [rS a, rS b]) 0]))) ∧
  (∀ (s : State) (t : Nat) (pair : Bool) (d a imm : Nat), d < 16 → a < 16 → imm < 2 ^ 16 →
    let x := inIssue s t
    (AtPcC s t pair (wordC pair 0x10 (d * 2 ^ 20 + a * 2 ^ 16 + imm)) → Does (.addi t pair d a imm) s (fun u => WordDone [] s u t pair
      ∧ Gives s u t (satResults s t (rS d) (fitN 32 x.sat (x.sS a + sint 16 imm)) (x.taints [rS a] || x.tnt rSt)
          (ovfN 32 (x.sS a + sint 16 imm)) 0))) ∧
    (∀ e ∈ ([(.andi t pair d a imm, 0x11, fun p => p &&& imm), (.ori t pair d a imm, 0x12, fun p => p ||| imm),
          (.xori t pair d a imm, 0x13, fun p => p ^^^ imm)] : List (Instr × Nat × (Nat → Nat))),
      AtPcC s t pair (wordC pair e.2.1 (d * 2 ^ 20 + a * 2 ^ 16 + imm)) → Does e.1 s (fun u => WordDone [] s u t pair
        ∧ Gives s u t [tileResult s t (rS d) (e.2.2 (x.uS a) % 2 ^ 32) (x.taints [rS a]) 0])) ∧
    (imm < 32 → ∀ e ∈ ([(.slli t pair d a imm, 0x14, fun p => p <<< imm), (.srli t pair d a imm, 0x15, fun p => p >>> imm),
          (.srai t pair d a imm, 0x16, fun p => uint 32 (sint 32 p / (2 ^ imm : Nat)))] : List (Instr × Nat × (Nat → Nat))),
      AtPcC s t pair (wordC pair e.2.1 (d * 2 ^ 20 + a * 2 ^ 16 + imm)) → Does e.1 s (fun u => WordDone [] s u t pair
        ∧ Gives s u t [tileResult s t (rS d) (e.2.2 (x.uS a) % 2 ^ 32) (x.taints [rS a]) 0])) ∧
    (AtPcC s t pair (wordC pair 0x17 (d * 2 ^ 20 + imm)) → Does (.li t pair d imm) s (fun u => WordDone [] s u t pair
        ∧ Gives s u t [tileResult s t (rS d) (uint 32 (sint 16 imm)) x.ctaint 0])) ∧
    (AtPcC s t pair (wordC pair 0x18 (d * 2 ^ 20 + imm)) → Does (.lui t pair d imm) s (fun u => WordDone [] s u t pair
        ∧ Gives s u t [tileResult s t (rS d) (imm * 2 ^ 16) x.ctaint 0]))) ∧
  (∀ (s : State) (t : Nat) (pair : Bool) (a : Nat), a < 16 →
    let x := inIssue s t
    (AtPcC s t pair (wordC pair 0x1C (a * 2 ^ 16)) → Does (.mts t pair a) s (fun u => WordDone [] s u t pair
      ∧ Gives s u t [tileResult s t rSt (x.uS a % 4) (x.tnt (rS a) || x.ctaint) 0])) ∧
    (AtPcC s t pair (wordC pair 0x1D (a * 2 ^ 20)) → Does (.mfs t pair a 0) s (fun u => WordDone [] s u t pair
      ∧ Gives s u t [tileResult s t (rS a) (x.st % 2 ^ 32) (x.taints [rSt]) 0])) ∧
    (AtPcC s t pair (wordC pair 0x1D (a * 2 ^ 20 + 1)) → Does (.mfs t pair a 1) s (fun u => WordDone [] s u t pair
      ∧ Gives s u t [tileResult s t (rS a) (x.tmr % 2 ^ 32) x.ctaint 0]))) ∧
  (∀ (s : State) (t : Nat) (pair : Bool), AtPcC s t pair (wordC pair 0 0) →
    Does (.nop t pair) s (fun u => WordDone [] s u t pair ∧ Gives s u t [])) ∧
  (∀ (s : State) (t : Nat), AtPcC s t false 0 → (tileAt s t).begun = false →
    (∀ r : Result, (tileAt s t).results = [r] → r.due = (tileAt s t).cyc + 1 → r.ovf = false → Does (.nop t false) s (fun u =>
      (tileAt u t).get r.reg = r.val ∧ (tileAt u t).tnt r.reg = r.taint ∧ (tileAt u t).results = []
      ∧ (∀ k : Nat, k ≠ r.reg → (tileAt u t).get k = (tileAt s t).get k))) ∧
    (∀ p : Nat, (tileAt s t).slots = 1 → (tileAt s t).rep = 0 → (tileAt s t).target = some p → Does (.nop t false) s (fun u =>
      (tileAt u t).pc = p ∧ (tileAt u t).slots = 0)) ∧
    (∀ n : Nat, (tileAt s t).slots = 0 → (tileAt s t).rep = n + 2 → Does (.nop t false) s (fun u =>
      (tileAt u t).pc = (tileAt s t).repPc ∧ (tileAt u t).rep = n + 1)))

/-- Vector, CMAC and NARROW instructions (09 R290-R293), with PAIR or without. -/
def Obligations.VectorInstructionsGiveTheirResults : Prop :=
  (∀ (s : State) (t : Nat) (pair : Bool) (d a b : Nat), d < 16 → a < 16 → b < 16 →
    let x := inIssue s t
    let va : Int → Nat → Int := fun _ k => vByte (x.get (rV a)) k
    let sat (v : Nat → Int) (src : List Nat) : List Result :=
      satResults s t (rV d) (packN 8 ((upto 32).map (fun k => fitN 8 x.sat (v k)))) (x.taints src || x.tnt rSt)
        ((upto 32).any (fun k => ovfN 8 (v k))) 1
    (∀ e ∈ ([(.vadd t pair d a b, 0x20, fun p q => p + q), (.vsub t pair d a b, 0x21, fun p q => p - q)] : List (Instr × Nat × (Int → Int → Int))),
      AtPcC s t pair (wordC pair e.2.1 (d * 2 ^ 20 + a * 2 ^ 16 + b * 2 ^ 12)) → Does e.1 s (fun u => WordDone [] s u t pair
        ∧ Gives s u t (sat (fun k => e.2.2 (va 0 k) (vByte (x.get (rV b)) k)) [rV a, rV b]))) ∧
    (∀ e ∈ ([(.vand t pair d a b, 0x24, fun p q => p &&& q), (.vor t pair d a b, 0x25, fun p q => p ||| q),
          (.vxor t pair d a b, 0x26, fun p q => p ^^^ q)] : List (Instr × Nat × (Nat → Nat → Nat))),
      AtPcC s t pair (wordC pair e.2.1 (d * 2 ^ 20 + a * 2 ^ 16 + b * 2 ^ 12)) → Does e.1 s (fun u => WordDone [] s u t pair
        ∧ Gives s u t [tileResult s t (rV d) (e.2.2 (x.get (rV a)) (x.get (rV b))) (x.taints [rV a, rV b]) 1])) ∧
    (AtPcC s t pair (wordC pair 0x22 (d * 2 ^ 20 + a * 2 ^ 16)) → Does (.vneg t pair d a) s (fun u => WordDone [] s u t pair
      ∧ Gives s u t (sat (fun k => -va 0 k) [rV a]))) ∧
    (AtPcC s t pair (wordC pair 0x23 (d * 2 ^ 20 + a * 2 ^ 16)) → Does (.vconj t pair d a) s (fun u => WordDone [] s u t pair
      ∧ Gives s u t (sat (fun k => if k % 2 = 0 then va 0 k else -va 0 k) [rV a]))) ∧
    (AtPcC s t pair (wordC pair 0x28 (d * 2 ^ 20 + a * 2 ^ 16)) → Does (.vmov t pair d a) s (fun u => WordDone [] s u t pair
      ∧ Gives s u t [tileResult s t (rV d) (x.get (rV a)) (x.taints [rV a]) 1])) ∧
    (AtPcC s t pair (wordC pair 0x29 (d * 2 ^ 20 + a * 2 ^ 16)) → Does (.vsplat t pair d a) s (fun u => WordDone [] s u t pair
      ∧ Gives s u t [tileResult s t (rV d) (packN 16 (List.replicate 16 (x.uS a))) (x.taints [rS a]) 1])) ∧
    (b < 8 → AtPcC s t pair (wordC pair 0x27 (d * 2 ^ 20 + a * 2 ^ 16 + b)) → Does (.vsrai t pair d a b) s (fun u => WordDone [] s u t pair
      ∧ Gives s u t [tileResult s t (rV d) (packN 8 ((upto 32).map (fun k => uint 8 (va 0 k / (2 ^ b : Nat))))) (x.taints [rV a]) 1])) ∧
    (AtPcC s t pair (wordC pair 0x2A (d * 2 ^ 20 + a * 2 ^ 16 + b)) → Does (.vext t pair d a b) s (fun u => WordDone [] s u t pair
      ∧ Gives s u t [tileResult s t (rS d) (nfld (x.get (rV a)) (16 * b + 15) (16 * b)) (x.taints [rV a]) 1])) ∧
    (AtPcC s t pair (wordC pair 0x2B (d * 2 ^ 20 + a * 2 ^ 16 + b)) → Does (.vins t pair d a b) s (fun u => WordDone [] s u t pair
      ∧ Gives s u t [tileResult s t (rV d) (packN 16 ((upto 16).map (fun i => if i = b then x.uS a else nfld (x.get (rV d)) (16 * i + 15) (16 * i))))
          (x.taints [rS a, rV d]) 1]))) ∧
  (∀ (s : State) (t : Nat) (pair : Bool) (k xv w lane : Nat), k < 4 → xv < 16 → w < 16 → lane < 16 →
    let x := inIssue s t
    let re (i : Nat) : Int := vByte (x.get (rV xv)) (2 * i)
    let im (i : Nat) : Int := vByte (x.get (rV xv)) (2 * i + 1)
    let wr (i : Nat) : Int := vByte (x.get (rV w)) (2 * i)
    let wi (i : Nat) : Int := vByte (x.get (rV w)) (2 * i + 1)
    let sum (add : Bool) (v : Nat → Int) : List Result :=
      let e (c : Nat) : Int := v c + (if add then accComp (x.accNow k).1 c else 0)
      satResults s t (rAcc k) (packN 32 ((upto 32).map (fun c => fitN 32 x.sat (e c))))
        (x.tnt (rV xv) || x.tnt (rV w) || (add && (x.accNow k).2) || x.ctaint || x.tnt rSt) ((upto 32).any (fun c => ovfN 32 (e c))) 3
    let prod (i j : Nat) (c : Nat) : Int := if c % 2 = 0 then re i * wr j - im i * wi j else re i * wi j + im i * wr j
    let conj (i j : Nat) (c : Nat) : Int := if c % 2 = 0 then re i * wr j + im i * wi j else im i * wr j - re i * wi j
    (∀ e ∈ ([(.cmac t pair k xv w lane, 0x30, true, fun c => prod (c / 2) lane c), (.cmacz t pair k xv w lane, 0x31, false, fun c => prod (c / 2) lane c),
          (.cmacj t pair k xv w lane, 0x32, true, fun c => conj (c / 2) lane c), (.cmacjz t pair k xv w lane, 0x33, false, fun c => conj (c / 2) lane c)]
        : List (Instr × Nat × Bool × (Nat → Int))),
      AtPcC s t pair (wordC pair e.2.1 (k * 2 ^ 22 + xv * 2 ^ 18 + w * 2 ^ 14 + lane * 2 ^ 10)) → Does e.1 s (fun u => WordDone [] s u t pair
        ∧ Gives s u t (sum e.2.2.1 e.2.2.2))) ∧
    (∀ e ∈ ([(.cmace t pair k xv w, 0x34, true), (.cmacez t pair k xv w, 0x35, false)] : List (Instr × Nat × Bool)),
      AtPcC s t pair (wordC pair e.2.1 (k * 2 ^ 22 + xv * 2 ^ 18 + w * 2 ^ 14)) → Does e.1 s (fun u => WordDone [] s u t pair
        ∧ Gives s u t (sum e.2.2 (fun c => prod (c / 2) (c / 2) c))))) ∧
  (∀ (s : State) (t : Nat) (pair : Bool) (d k n : Nat), d < 16 → k < 4 →
    let x := inIssue s t
    let nar (sh : Nat) (src : List Nat) : List Result :=
      let v (c : Nat) : Int := accComp (x.get (rAcc k)) c / (2 ^ sh : Nat)
      satResults s t (rV d) (packN 8 ((upto 32).map (fun c => fitN 8 x.sat (v c)))) (x.taints (rAcc k :: src) || x.tnt rSt)
        ((upto 32).any (fun c => ovfN 8 (v c))) 1
    (n < 32 → AtPcC s t pair (wordC pair 0x38 (d * 2 ^ 20 + k * 2 ^ 18 + n * 2 ^ 13)) → Does (.narrow t pair d k n) s (fun u =>
      WordDone [] s u t pair ∧ Gives s u t (nar n []))) ∧
    (n < 16 → AtPcC s t pair (wordC pair 0x39 (d * 2 ^ 20 + k * 2 ^ 18 + n)) → Does (.narrows t pair d k n) s (fun u =>
      WordDone [] s u t pair ∧ Gives s u t (nar (x.uS n % 32) [rS n]))))

/-- Address instructions, loads and stores (09 R286-R289). -/
def Obligations.TileAddressAndMemoryInstructions : Prop :=
  (∀ (s : State) (t kind n v : Nat), kind < 3 → n < 8 →
    let x := inIssue s t
    let reg := (if kind = 0 then 16 else if kind = 1 then 24 else 32) + n
    (v < 16 → AtPc s t (wordM 8 (kind * 2 ^ 22 + n * 2 ^ 19 + v)) → Does (.amov t kind n v) s (fun u => WordDone [] s u t false
      ∧ Gives s u t [tileResult s t reg (x.uS v % 2 ^ 32) (x.taints [rS v]) 0])) ∧
    (v < 2 ^ 16 → AtPc s t (wordM 9 (kind * 2 ^ 22 + n * 2 ^ 19 + v)) → Does (.aseti t kind n v) s (fun u => WordDone [] s u t false
      ∧ Gives s u t [tileResult s t reg v x.ctaint 0])) ∧
    (v < 2 ^ 16 → AtPc s t (wordM 10 (n * 2 ^ 19 + v)) → Does (.astep t n v) s (fun u => WordDone [] s u t false
      ∧ Gives s u t [tileResult s t (rA n) (stepAddr (x.get (rA n)) (x.get (rB n)) (x.get (rL n)) (sint 16 v) % 2 ^ 32)
          (x.taints [rA n, rB n, rL n]) 0])) ∧
    (v < 16 → AtPc s t (wordM 11 (kind * 2 ^ 22 + n * 2 ^ 19 + v)) → Does (.mfa t kind n v) s (fun u => WordDone [] s u t false
      ∧ Gives s u t [tileResult s t (rS v) (x.get reg % 2 ^ 32) (x.taints [reg]) 0]))) ∧
  (∀ (s : State) (t r n am imm : Nat), r < 16 → n < 8 → am < 3 → imm < 2 ^ 15 → (am = 2 → imm < 16) → (tileAt s t).lockBuf = [] →
    let x := inIssue s t
    let ea := x.ea n am imm
    let opd := r * 2 ^ 20 + n * 2 ^ 17 + am * 2 ^ 15 + imm
    (∀ e ∈ ([(.lw t r n am imm, 1, 4, rS r), (.vld t r n am imm, 3, 32, rV r)] : List (Instr × Nat × Nat × Nat)), AtPc s t (wordM e.2.1 opd) →
      (ea % e.2.2.1 = 0 → ea < 0x14000 → Does e.1 s (fun u => WordDone [] s u t false
        ∧ Gives s u t (tileResult s t e.2.2.2 (ofBytes (memGet s (tileMem t + ea) e.2.2.1))
            (x.memTaint n am imm || (decide (ea < 0x10000) && sget false x.units (ea / 32))) 2 :: postResults s t (x.post n am imm)))) ∧
      (∀ a : Nat, ea % e.2.2.1 = 0 → 2 ^ 31 ≤ ea → (tileAt s t).slots = 0 → (tileAt s t).rep = 0 → x.tnt (rA n) = false → (tileAt s t).xaddr = some a →
        s.bough.waiting = [] → a % 256 + e.2.2.1 ≤ 256 → bit (routeOf s (tileStation t) (stationOf s a)) 31 = true →
        cacheable s (tileStation t) 1 a = false → 1 ≤ slotsFree s (tileStation t) → injArmed s (8 + t / 512) 7 = false →
        Does e.1 s (fun u => (tileAt u t).stall = some (.load e.2.2.2 e.2.2.1 ea (x.memTaint n am imm) (x.post n am imm))
          ∧ (u.net.getLast?.map (fun p => (p.op, p.src, p.addr, p.len))) = some (1, tileStation t, a, e.2.2.1) ∧ u.net.length = s.net.length + 1
          ∧ (tileAt u t).pc = (tileAt s t).pc ∧ KeepsBut [.regs, .bough, .tiles, .net] s u)) ∧
      (((ea % e.2.2.1 ≠ 0 ∧ (ea < 2 ^ 31 ∨ (tileAt s t).slots = 0 ∧ (tileAt s t).rep = 0)) ∨ (0x14000 ≤ ea ∧ ea < 2 ^ 31)) → (tileAt s t).locked = false →
        Does e.1 s (fun u => rdF u (tilBlk t + 0x14) 19 16 = (if ea % e.2.2.1 ≠ 0 then 3 else 4) ∧ rd u (tilBlk t + 0x18) = word ea
          ∧ rdF u (tilBlk t + 0x14) 11 0 = (tileAt s t).pc % 4096 ∧ (tileAt u t).item = none ∧ (tileAt u t).results = [] ∧ u.mem = s.mem))) ∧
    (∀ e ∈ ([(.sw t r n am imm, 2, 4, rS r), (.vst t r n am imm, 4, 32, rV r)] : List (Instr × Nat × Nat × Nat)), AtPc s t (wordM e.2.1 opd) →
      (ea % e.2.2.1 = 0 → ea < 0x10000 → (tileAt s t).locked = false → Does e.1 s (fun u => WordDone [.mem] s u t false
        ∧ memGet u (tileMem t + ea) e.2.2.1 = toBytes e.2.2.1 (x.get e.2.2.2)
        ∧ (∀ y : Nat, (y < tileMem t + ea ∨ tileMem t + ea + e.2.2.1 ≤ y) → memGet u y 1 = memGet s y 1)
        ∧ Gives s u t (postResults s t (x.post n am imm)))) ∧
      (∀ a : Nat, ea % e.2.2.1 = 0 → 2 ^ 31 ≤ ea → (tileAt s t).slots = 0 → (tileAt s t).rep = 0 → (tileAt s t).locked = false → (tileAt s t).xaddr = some a →
        s.bough.waiting = [] → a % 256 + e.2.2.1 ≤ 256 → fld (routeOf s (tileStation t) (stationOf s a)) 31 30 = 2 →
        cacheable s (tileStation t) 2 a = false → 1 ≤ slotsFree s (tileStation t) → injArmed s (8 + t / 512) 7 = false →
        (tileAt s t).cbuf = [] → x.tnt e.2.2.2 = false → x.tnt (rA n) = false → x.ctaint = false →
        Does e.1 s (fun u => (u.net.getLast?.map (fun p => (p.op, p.src, p.addr, p.data))) = some (2, tileStation t, a, toBytes e.2.2.1 (x.get e.2.2.2))
          ∧ (tileAt u t).wrOut = (tileAt s t).wrOut ++ [(a, ea)] ∧ (tileAt u t).pc = ((tileAt s t).pc + 1) % 4096 ∧ u.mem = s.mem
          ∧ KeepsBut [.regs, .bough, .tiles, .net] s u)) ∧
      (ea % e.2.2.1 = 0 → 0x10000 ≤ ea → ea < 2 ^ 31 → (tileAt s t).locked = false → Does e.1 s (fun u => rdF u (tilBlk t + 0x14) 19 16 = 4
        ∧ rdB u (tilBlk t + 0x14) 13 = true ∧ (tileAt u t).item = none ∧ u.mem = s.mem))))

/-- Control flow, repeat, lock and item instructions (09 R294-R300). -/
def Obligations.TileControlInstructions : Prop :=
  (∀ (s : State) (t a b target : Nat), a < 16 → b < 16 → target < 4096 → (tileAt s t).slots = 0 → (tileAt s t).rep = 0 → (tileAt s t).locked = false →
    let x := inIssue s t
    (∀ cond : Nat, cond < 9 → (cond = 0 → a = 0 ∧ b = 0) → (7 ≤ cond → b = 0) →
      AtPc s t (wordM 0x10 (cond * 2 ^ 20 + a * 2 ^ 16 + b * 2 ^ 12 + target)) → Does (.b t cond a b target) s (fun u => WordDone [] s u t false
        ∧ Gives s u t [] ∧ (tileAt u t).slots = 2
        ∧ (tileAt u t).target = (if condHolds cond (x.older.get a) (x.older.get b) then some target else none)
        ∧ (tileAt u t).ctaint = (x.ctaint || (cond ≠ 0 && (x.older.tnt a || (cond < 7 && x.older.tnt b)))))) ∧
    (AtPc s t (wordM 0x11 (a * 2 ^ 16 + target)) → unitWidthAt s t ((tileAt s t).pc + 1) = 1 → unitWidthAt s t ((tileAt s t).pc + 2) = 1 →
      Does (.jal t a target) s (fun u => WordDone [] s u t false ∧ (tileAt u t).slots = 2 ∧ (tileAt u t).target = some target
        ∧ Gives s u t [tileResult s t (rS a) (((tileAt s t).pc + 3) % 4096) x.ctaint 0])) ∧
    (AtPc s t (wordM 0x12 (a * 2 ^ 16)) → Does (.jr t a) s (fun u => WordDone [] s u t false ∧ Gives s u t [] ∧ (tileAt u t).slots = 2
        ∧ (tileAt u t).target = some (x.older.get a % 4096) ∧ (tileAt u t).ctaint = (x.ctaint || x.older.tnt a))) ∧
    (AtPc s t (wordM 0x13 (a * 2 ^ 16 + target)) →
      let v := (x.older.get a + (2 ^ 32 - 1)) % 2 ^ 32
      Does (.dbnz t a target) s (fun u => WordDone [] s u t false ∧ (tileAt u t).slots = 2 ∧ (tileAt u t).target = (if v = 0 then none else some target)
        ∧ Gives s u t [tileResult s t (rS a) v (x.older.tnt a || x.ctaint) 0]))) ∧
  (∀ (s : State) (t target : Nat), target < 4096 → (tileAt s t).slots ≠ 0 → (tileAt s t).locked = false → AtPc s t (wordM 0x10 target) →
    Does (.b t 0 0 0 target) s (fun u => rdF u (tilBlk t + 0x14) 19 16 = 2 ∧ (tileAt u t).item = none ∧ (tileAt u t).slots = 0)) ∧
  (∀ (s : State) (t n : Nat), (tileAt s t).slots = 0 → (tileAt s t).rep = 0 → (tileAt s t).locked = false → (tileAt s t).paired = false →
    let x := inIssue s t
    let lim := rdF s (tilBlk t + 8) 15 0
    let rep (u : State) (k : Nat) : Prop := (k = 0 → unitWidthAt s t (((tileAt s t).pc + 1) % 4096) = 1 → (tileAt u t).pc = ((tileAt s t).pc + 2) % 4096)
      ∧ (k ≠ 0 → (tileAt u t).rep = k ∧ (tileAt u t).repPc = ((tileAt s t).pc + 1) % 4096 ∧ (tileAt u t).pc = ((tileAt s t).pc + 1) % 4096)
      ∧ Gives s u t [] ∧ TileOnly [] s u t
    (n < 2 ^ 16 → AtPc s t (wordM 0x18 n) → n ≤ lim → Does (.rep t n) s (fun u => rep u n)) ∧
    (n < 2 ^ 16 → AtPc s t (wordM 0x18 n) → lim < n → Does (.rep t n) s (fun u => rdF u (tilBlk t + 0x14) 19 16 = 8 ∧ (tileAt u t).item = none)) ∧
    (n < 16 → AtPc s t (wordM 0x19 n) → x.uS n ≤ lim → Does (.repr t n) s (fun u => rep u (x.uS n)
      ∧ (tileAt u t).ctaint = (x.ctaint || x.tnt (rS n)))) ∧
    (1 ≤ n → n ≤ 4 → AtPc s t (wordM 0x1A n) → Does (.lock t n) s (fun u => WordDone [] s u t false ∧ (tileAt u t).locked = true
      ∧ (tileAt u t).lock = n ∧ (tileAt u t).lockPc = (tileAt s t).pc)) ∧
    (n < 2 → AtPc s t (wordM 0x20 n) → Does (.wait t (decide (n = 1))) s (fun u => (tileAt u t).state = 0x72 ∧ (tileAt u t).waitT = decide (n = 1)
      ∧ (tileAt u t).pc = ((tileAt s t).pc + 1) % 4096 ∧ (tileAt u t).results = [] ∧ TileOnly [] s u t)) ∧
    (n < 256 → AtPc s t (wordM 0x21 n) → Does (.exit t n) s (fun u => (tileAt u t).state = 0x73 ∧ (tileAt u t).exitCode = n
      ∧ (tileAt u t).item = x.item ∧ (tileAt u t).results = [] ∧ TileOnly [] s u t))) ∧
  (∀ (s : State) (t n : Nat), let x := inIssue s t
    (n < 2 ^ 20 → AtPc s t (wordM 0x22 n) → Does (.settmr t false n) s (fun u => WordDone [] s u t false ∧ Gives s u t [] ∧ (tileAt u t).tmr = n
      ∧ (tileAt u t).ctaint = x.ctaint)) ∧
    (n < 16 → AtPc s t (wordM 0x22 (2 ^ 23 + n)) → Does (.settmr t true n) s (fun u => WordDone [] s u t false ∧ (tileAt u t).tmr = x.uS n
      ∧ (tileAt u t).ctaint = (x.ctaint || x.tnt (rS n)))) ∧
    ((tileAt s t).rep = 0 → AtPc s t (wordM 0x23 0) → Does (.kick t) s (fun u => WordDone [] s u t false ∧ (tileAt u t).wd = (tileAt s t).wdLoad)) ∧
    (AtPc s t (wordM 0x24 0) → (tileAt s t).cbuf = [] → (tileAt s t).wrOut = [] → Does (.fence t) s (fun u => WordDone [] s u t false ∧ Gives s u t [])) ∧
    (AtPc s t (wordM 0x24 0) → (tileAt s t).wrOut ≠ [] → Does (.fence t) s (fun u => (tileAt u t).stall = some .fence
      ∧ (tileAt u t).pc = (tileAt s t).pc ∧ TileOnly [] s u t)))

/-- Tile events (08 R258-R278). -/
def Obligations.TileItemsAnswersAndStops : Prop :=
  (∀ (s : State) (t : Nat) (i : Item), (tileAt s t).incoming = some i → (tileAt s t).state = 0x70 → arrayOff s t = false → tileFrozen s t = false →
    Does (.tileItemEntry t) s (fun u => (tileAt u t).state = 0x71 ∧ (tileAt u t).item = some i ∧ (tileAt u t).pc = i.entry
      ∧ (∀ k : Nat, k < 4 → (tileAt u t).get k = wordAt i.desc k) ∧ (tileAt u t).get 4 = (if i.flowValid then i.flow else 0xFFFFFFFF)
      ∧ (tileAt u t).get 5 = i.release ∧ (tileAt u t).get 6 = t ∧ (∀ k : Nat, 7 ≤ k → (tileAt u t).get k = 0) ∧ (∀ k : Nat, (tileAt u t).tnt k = false)
      ∧ (tileAt u t).wd = (if i.wdog ≠ 0 then i.wdog else rdF s (tilBlk t + 0x10) 19 0) ∧ (tileAt u t).spec = i.specOk ∧ TileOnly [] s u t)) ∧
  (∀ (s : State) (p : Packet) (t gen : Nat), s.bough.inbox = [p] → tileAnswer p = some (t, gen) → stationStopped s p.dst = false → tileFrozen s t = false →
    (tileAt s t).state = 0x71 → (tileAt s t).lockBuf = [] → (tileAt s t).locked = false → (tileAt s t).slots = 0 → (tileAt s t).rep = 0 →
    (∀ (reg len va : Nat) (k : Bool), p.op = 4 → gen = (tileAt s t).rdGen % 4096 → (tileAt s t).stall = some (.load reg len va k none) → p.data.length = len →
      (p.status = 0 → p.poison = false → Does (.externalLoadAnswer 0) s (fun u => (tileAt u t).stall = none ∧ u.bough.inbox = []
        ∧ (tileAt u t).results = [{
            reg := reg, val := ofBytes p.data, taint := k || p.prov, due := (tileAt s t).cyc + 1 }]
        ∧ (tileAt u t).provPend = (if p.prov then min 255 ((tileAt s t).provPend + 1) else (tileAt s t).provPend)
        ∧ (tileAt u t).pc = ((tileAt s t).pc + 1) % 4096 ∧ KeepsBut [.tiles, .bough] s u)) ∧
      (p.status = 0xE → p.poison = false → Does (.externalLoadAnswer 0) s (fun u => rdF u (tilBlk t + 0x14) 19 16 = 6 ∧ rd u (tilBlk t + 0x18) = word va
        ∧ (tileAt u t).item = none ∧ u.bough.inbox = []))) ∧
    (∀ a va : Nat, p.op = 5 → gen = (tileAt s t).wrGen % 4096 → (tileAt s t).wrOut = [(a, va)] → p.addr = a → (tileAt s t).stall = none → (tileAt s t).werr = none →
      Does (.externalWriteAnswer 0) s (fun u => (tileAt u t).wrOut = [] ∧ (tileAt u t).werr = (if p.poison || p.status ≠ 0 then some va else none)
        ∧ u.bough.inbox = [] ∧ KeepsBut [.tiles, .bough] s u)) ∧
    (p.op = 6 → gen = (tileAt s t).rdGen % 4096 → (tileAt s t).provPend = 1 → Does (.provisionalConfirm 0) s (fun u => (tileAt u t).provPend = 0
      ∧ (tileAt u t).ctaint = false ∧ (∀ r : Nat, (tileAt u t).tnt r = false) ∧ (tileAt u t).units = [] ∧ (∀ r : Nat, (tileAt u t).get r = (tileAt s t).get r)
      ∧ KeepsBut [.tiles, .bough] s u)) ∧
    (∀ i : Item, p.op = 7 → gen = (tileAt s t).rdGen % 4096 → (tileAt s t).item = some i → Does (.retractRestart 0) s (fun u => (tileAt u t).pc = i.entry
      ∧ (tileAt u t).restarted = true ∧ (tileAt u t).cbuf = [] ∧ (tileAt u t).provPend = 0 ∧ (tileAt u t).units = [] ∧ (tileAt u t).wd = (tileAt s t).wd
      ∧ rd u (tilBlk t + 0x24) = satInc (rd s (tilBlk t + 0x24)) ∧ u.mem = s.mem))) ∧
  (∀ (s : State) (t : Nat) (w : TileStore), t < 4096 → (tileAt s t).cbuf = [w] → w.taint = false → (tileAt s t).state ≠ 0x77 → tileFrozen s t = false →
    (tileAt s t).stall = none → s.bough.waiting = [] → w.addr % 256 + w.data.length ≤ 256 → fld (routeOf s (tileStation t) (stationOf s w.addr)) 31 30 = 2 →
    cacheable s (tileStation t) 2 w.addr = false → 1 ≤ slotsFree s (tileStation t) → injArmed s (8 + t / 512) 7 = false →
    Does (.commitBufferDrain t) s (fun u => (tileAt u t).cbuf = [] ∧ (u.net.getLast?.map (fun p => (p.op, p.addr, p.data))) = some (2, w.addr, w.data)
      ∧ KeepsBut [.regs, .tiles, .bough, .net] s u)) ∧
  (∀ (s : State) (t : Nat) (i : Item), (tileAt s t).item = some i → (tileAt s t).saved = none → (tileAt s t).stepping = 0 → tileFrozen s t = false →
    ((tileAt s t).state = 0x73 → (tileAt s t).provPend = 0 → (tileAt s t).cbuf = [] → (tileAt s t).wrOut = [] → (tileAt s t).werr = none →
      Does (.itemCompletionReport t) s (fun u => (tileAt u t).state = 0x70 ∧ (tileAt u t).item = none
        ∧ u.dsp.reports = s.dsp.reports ++ [⟨t, i, 0, (tileAt s t).exitCode⟩] ∧ rd u (tilBlk t + 0x20) = satInc (rd s (tilBlk t + 0x20))
        ∧ KeepsBut [.regs, .tiles, .dsp] s u ∧ RegsBut (fun a => a = tilBlk t + 0x20) s u)) ∧
    ((tileAt s t).state = 0x72 → (tileAt s t).locked = false →
      (∀ va : Nat, (tileAt s t).werr = some va → Does (.tileAbort t) s (fun u => rdF u (tilBlk t + 0x14) 19 16 = 0xB ∧ rd u (tilBlk t + 0x18) = word va
        ∧ u.dsp.reports = s.dsp.reports ++ [⟨t, i, 0xB, 0⟩] ∧ (tileAt u t).state = 0x70 ∧ u.mem = s.mem)) ∧
      ((tileAt s t).expired = true → Does (.tileWatchdogExpiry t) s (fun u => rdF u (tilBlk t + 0x14) 19 16 = 9
        ∧ u.dsp.reports = s.dsp.reports ++ [⟨t, i, 9, 0⟩] ∧ (tileAt u t).state = 0x70)) ∧
      (BlockOpen s (8 + t / 512) 8 → Does (.tileKill (.host 0) t) s (fun u => rdF u (tilBlk t + 0x14) 19 16 = 0xA
        ∧ u.dsp.reports = s.dsp.reports ++ [⟨t, i, 0xA, 0⟩] ∧ rd u (tilBlk t + 0x2C) = satInc (rd s (tilBlk t + 0x2C)) ∧ (tileAt u t).state = 0x70)) ∧
      ((tileAt s t).wake = true → Does (.waitEnd t) s (fun u => (tileAt u t).state = 0x71 ∧ (tileAt u t).wake = false ∧ TileOnly [] s u t)) ∧
      (arrayOff s t = true → t < 4096 → Does (.tileOff t) s (fun u => (tileAt u t).state = 0x77 ∧ (tileAt u t).before = 0x72 ∧ TileOnly [] s u t))) ∧
    ((tileAt s t).state = 0x74 → BlockOpen s (8 + t / 512) 8 → Does (.tileResume .warden t) s (fun u => (tileAt u t).state = 0x71 ∧ (tileAt u t).pc = (tileAt s t).pc ∧ TileOnly [] s u t)) ∧
    (∀ (n : Nat) (h : Held), (tileAt s t).preempt = some n → mayPreempt (tileAt s t) = true → arrayOff s t = false → heldAt s (t / 512) n = some h →
      Does (.preemptionStop t) s (fun u => (tileAt u t).state = 0x76 ∧ (tileAt u t).before = (tileAt s t).state ∧ (tileAt u t).item = some i
        ∧ (tileAt u t).incoming.map (·.desc) = some h.item.desc ∧ rd u (tilBlk t + 0x28) = satInc (rd s (tilBlk t + 0x28)) ∧ u.mem = s.mem)) ∧
    (∀ j : Item, (tileAt s t).state = 0x76 → (tileAt s t).restoring = false → (tileAt s t).incoming = some j → Does (.contextSaveDone t) s (fun u =>
      (tileAt u t).state = 0x71 ∧ (tileAt u t).item = some j ∧ (tileAt u t).pc = j.entry
      ∧ (tileAt u t).saved.map (fun c => (c.pc, c.regs.vals, c.state, c.tmr)) = some ((tileAt s t).pc, (tileAt s t).regs.vals, (tileAt s t).before, (tileAt s t).tmr)
      ∧ TileOnly [] s u t))) ∧
  (∀ (s : State) (t : Nat) (c : SavedTile), (tileAt s t).saved = some c →
    ((tileAt s t).state = 0x76 → (tileAt s t).restoring = true → tileFrozen s t = false → Does (.contextRestoreDone t) s (fun u =>
      (tileAt u t).state = c.state ∧ (tileAt u t).pc = c.pc ∧ (tileAt u t).regs = c.regs ∧ (tileAt u t).tmr = c.tmr ∧ (tileAt u t).wd = c.wd
      ∧ (tileAt u t).saved = none ∧ (tileAt u t).item.map (·.desc) = some c.item.desc ∧ TileOnly [] s u t)) ∧
    ((tileAt s t).restoring = false → BlockOpen s (8 + t / 512) 8 → Does (.tileDiscardSlot .warden t) s (fun u => (tileAt u t).saved = none
      ∧ u.dsp.reports = s.dsp.reports ++ [⟨t, c.item, 0xA, 0⟩] ∧ TileOnly [.dsp] s u t))) ∧
  (∀ (s : State) (t : Nat), t < 4096 → BlockOpen s (8 + t / 512) 8 → Does (.tileWake (.station (256 * (8 + t / 512) + 4)) t) s (fun u => (tileAt u t).wake = true ∧ TileOnly [] s u t)) ∧
  (∀ (s : State) (t : Nat) (src : Writer), tilCtrlOk t src = false → shut s (8 + t / 512) 8 = false → exec (.tileWake src t) s = .next s ∧ exec (.tileKill src t) s = .next s
    ∧ exec (.tileResume src t) s = .next s ∧ exec (.tileDiscardSlot src t) s = .next s)

/-! ### Words of tile instructions (09) -/

/-- Tile words (09 R279-R301): decode of encode, encode of decode, and which words are listed. -/
def Obligations.TileWordsDecodeAndEncodeAgree : Prop :=
  (∀ (i : Instr) (t w : Nat), wellFormed i = true → tileWord i = some (t, w) → w < 2 ^ 32 ∧ tileDecode t w = some i) ∧
  (∀ (i : Instr) (t w : Nat), t < 4096 → w < 2 ^ 32 → tileDecode t w = some i → wellFormed i = true ∧ tileWord i = some (t, w)) ∧
  (∀ t w : Nat, w < 2 ^ 32 → (tileDecode t w).isSome = legalWord w) ∧
  (∀ (i : Instr) (t w : Nat) (s : State), wellFormed i = true → tileWord i = some (t, w) → progWord s t (tileAt s t).pc ≠ w →
    exec i s = .next s)

/-! ### The dispatchers (10) -/

/-- Posts, cancels and releases (10 R302-R317). -/
def Obligations.PostsAreCheckedAndItemsHeld : Prop :=
  (∀ (s : State) (g p : Nat) (v : Word), g < 8 → p < 2048 → dspOff s g = false → BlockOpen s (8 + g) 0 →
    (∀ w : Nat, w < 7 → Does (.postSlotStore g p w v) s (fun t => postWords t g p = (postWords s g p).set w v
      ∧ (∀ h q : Nat, h * 2048 + q ≠ g * 2048 + p → postWords t h q = postWords s h q) ∧ t.dsp = { s.dsp with posted := t.dsp.posted }
      ∧ KeepsBut [.dsp] s t)) ∧
    (∀ (d : List Word) (i : Item) (dist n gen : Nat), d = (postWords s g p).set 7 v → i = { desc := d } →
      dist = distance i.releaseTime (dlCore s g i.dlist).now40 → n = freeReady s g → gen = (sget 0 s.dsp.gens (g * 65536 + n) + 1) % 256 →
      postCheck s g d = (([(0x10, !rdB s (dspBlk g) 31),
          (0x11, nfld (wordAt d 5) 31 31 ≠ 0 || nfld (wordAt d 6) 31 28 ≠ 0 || (!i.timed && nfld (wordAt d 6) 27 20 ≠ 0) || setEmpty s g i.tset),
          (0x12, i.flowValid && i.flow / 2 ^ 21 ≠ g), (0x13, !qEn s g i.queue),
          (0x14, i.timed && (!dlEn s g i.dlist || !(dlCore s g i.dlist).run)), (0x15, i.timed && decide (2 ^ 32 < dist) && decide (dist < 2 ^ 39)),
          (0x16, decide (qMax s g i.queue ≤ qCount s g i.queue)), (0x17, decide (qMin s g i.queue ≤ qCount s g i.queue) && poolFull s g),
          (0x18, i.timed && decide (16384 ≤ listCount s g i.dlist))] : List (Nat × Bool)).find? (·.2)).map (·.1) ∧
      (∀ c : Nat, postCheck s g d = some c → Does (.descriptorPost g p v) s (fun t => resultOf t g p = word (c * 2 ^ 24)
        ∧ rd t (dspBlk g + 0x44) = satInc (rd s (dspBlk g + 0x44)) ∧ t.dsp.slots = s.dsp.slots
        ∧ KeepsBut [.regs, .dsp] s t ∧ RegsBut (fun a => a = dspBlk g + 0x44) s t)) ∧
      (postCheck s g d = none →
        let kept (code : Nat) (st : Stage) (j : Item) (t : State) : Prop := resultOf t g p = word (code * 2 ^ 24 + gen * 2 ^ 16 + n)
          ∧ (heldAt t g n).map (fun h => (h.stage, h.item)) = some (st, j) ∧ qCount t g i.queue = qCount s g i.queue + 1
          ∧ rdF t (dspBlk g + 0x20) 16 0 = rdF s (dspBlk g + 0x20) 16 0 - 1 ∧ rd t (dspBlk g + 0x40) = satInc (rd s (dspBlk g + 0x40))
          ∧ (∀ k : Nat, k ≠ n → k < 65536 → (heldAt t g k).map (fun h => (h.stage, h.item)) = (heldAt s g k).map (fun h => (h.stage, h.item)))
        let j : Item := { desc := if i.timed then d else d.set 7 0, slot := n, gen := gen, eclass := qClass s g i.queue }
        (i.timed = false → i.flowValid = false → Does (.descriptorPost g p v) s (fun t => kept 1 .ready j t ∧ KeepsBut [.regs, .dsp] s t
          ∧ RegsBut (fun a => a = qCfg g i.queue + 8 ∨ a = dspBlk g + 0x20 ∨ a = dspBlk g + 0x40) s t)) ∧
        (i.timed = true → 0 < dist → dist ≤ 2 ^ 32 → Does (.descriptorPost g p v) s (fun t => kept 1 .delay j t
          ∧ (heldAt t g n).map (·.due) = some i.releaseTime ∧ rdF t (dlCfg g i.dlist + 4) 14 0 = listCount s g i.dlist + 1 ∧ KeepsBut [.regs, .dsp] s t
          ∧ RegsBut (fun a => a = qCfg g i.queue + 8 ∨ a = dspBlk g + 0x20 ∨ a = dspBlk g + 0x40 ∨ a = dlCfg g i.dlist + 4) s t)) ∧
        (i.timed = true → i.flowValid = false → dist = 0 → Does (.descriptorPost g p v) s (fun t => kept 1 .ready j t
          ∧ rd t (dspBlk g + 0x50) = rd s (dspBlk g + 0x50) ∧ KeepsBut [.regs, .dsp] s t)) ∧
        (i.timed = true → i.flowValid = false → 2 ^ 39 ≤ dist → Does (.descriptorPost g p v) s (fun t => kept 2 .ready { j with late := true } t
          ∧ rd t (dspBlk g + 0x50) = satInc (rd s (dspBlk g + 0x50)) ∧ KeepsBut [.regs, .dsp] s t)) ∧
        (∀ w : List Word, i.timed = false → i.flowValid = true → ctxOf s (ctxKey g i.flow) = some w →
          (pinned w = false → Does (.descriptorPost g p v) s (fun t => kept 1 .ready j t ∧ ctxOf t (ctxKey g i.flow) = some (ctxSet w 0 0 0 1)
            ∧ KeepsBut [.regs, .dsp] s t)) ∧
          (pinned w = true → nfld (wordAt w 0) 31 16 = 0 → Does (.descriptorPost g p v) s (fun t => kept 1 .chain j t
            ∧ ctxOf t (ctxKey g i.flow) = some (ctxSet (ctxSet (ctxSet w 0 31 16 1) 1 31 16 n) 1 15 0 n) ∧ KeepsBut [.regs, .dsp] s t))) ∧
        (i.timed = false → i.flowValid = true → ctxOf s (ctxKey g i.flow) = none → ctxKey g i.flow ∉ s.dsp.reads → ctxLoad s g < 16384 →
          (heldItems s g).all (fun q => q.2.stage ≠ .backlog) = true → s.bough.waiting = [] → 1 ≤ slotsFree s (dspStation g) →
          bit (routeOf s (dspStation g) (stationOf s (ctxAddr s (ctxKey g i.flow)))) 31 = true → injArmed s (8 + g) 7 = false →
          cacheable s (dspStation g) 1 (ctxAddr s (ctxKey g i.flow)) = false →
          Does (.descriptorPost g p v) s (fun t => kept 1 .lookup j t ∧ t.dsp.reads = s.dsp.reads ++ [ctxKey g i.flow]
            ∧ (t.net.getLast?.map (fun q => (q.op, q.addr, q.len))) = some (1, ctxAddr s (ctxKey g i.flow), 64)
            ∧ rd t (dspBlk g + 0x5C) = satInc (rd s (dspBlk g + 0x5C)) ∧ KeepsBut [.regs, .dsp, .bough, .net] s t)))) ∧
    (∀ st tag : Nat, populated st = true → injArmed s (8 + g) 7 = false → Does (.resultRead st g p tag) s (fun t =>
      (t.net.getLast?.map (fun q => (q.op, q.dst, q.tag, q.data))) = some (4, st, tag % 2 ^ 16, toBytes 4 (sget 0 s.dsp.results (g * 2048 + p)).toNat)
      ∧ KeepsBut [.net] s t))) ∧
  (∀ (s : State) (g n : Nat) (x : Word), g < 8 → dspOff s g = false → BlockOpen s (8 + g) 0 → n = fld x 15 0 →
    ((∀ h : Held, heldAt s g n = some h → h.item.gen ≠ fld x 23 16 ∨ ∃ j : Nat, h.stage = .service j) → Does (.dspCancel g x) s (fun t =>
      rdB t (dspBlk g + 4) 2 = true ∧ KeepsBut [.regs] s t ∧ RegsBut (fun a => a = dspBlk g + 4) s t)) ∧
    (∀ h : Held, heldAt s g n = some h → h.item.gen = fld x 23 16 → rdB s (dspBlk g + 0x2004 + 0x10 * h.item.queue) 31 = false →
      srising s.dsp.slots = true →
      let gone (t : State) : Prop := heldAt t g n = none ∧ qCount t g h.item.queue = qCount s g h.item.queue - 1
        ∧ rd t (dspBlk g + 0x4C) = satInc (rd s (dspBlk g + 0x4C)) ∧ rdB t (dspBlk g + 4) 2 = rdB s (dspBlk g + 4) 2
      (h.stage = .delay → Does (.dspCancel g x) s (fun t => gone t ∧ rdF t (dlCfg g h.item.dlist + 4) 14 0 = (listCount s g h.item.dlist - 1) % 2 ^ 15
        ∧ t.dsp.ctxs = s.dsp.ctxs ∧ KeepsBut [.regs, .dsp] s t)) ∧
      (h.stage = .ready → h.item.flowValid = false → Does (.dspCancel g x) s (fun t => gone t ∧ KeepsBut [.regs, .dsp, .tiles] s t)) ∧
      (h.stage = .lookup → ctxOf s (ctxKey g h.item.flow) = none → Does (.dspCancel g x) s (fun t => gone t
        ∧ sget 0 t.dsp.ghosts (ctxKey g h.item.flow) = sget 0 s.dsp.ghosts (ctxKey g h.item.flow) + 1 ∧ KeepsBut [.regs, .dsp] s t)) ∧
      (∀ w : List Word, h.stage = .chain → ctxOf s (ctxKey g h.item.flow) = some w → nfld (wordAt w 0) 31 16 = 1 →
        (heldItems s g).all (fun q => q.2.next ≠ some n) = true → Does (.dspCancel g x) s (fun t => gone t
          ∧ ctxOf t (ctxKey g h.item.flow) = some ((ctxEnd 0xF 0 (ctxSet w 0 31 16 0)).set 1 0) ∧ KeepsBut [.regs, .dsp] s t)))) ∧
  (∀ (s : State) (g k n tick : Nat) (h : Held), g < 8 → k < 8 → n < 65536 → dspOff s g = false → dlEn s g k = true →
    ((dlCore s g k).run = false → Does (.delayListRelease g k) s (fun t => rdB t (dlCfg g k + 4) 31 = true ∧ t.dsp = s.dsp ∧ KeepsBut [.regs] s t
      ∧ RegsBut (fun a => a = dlCfg g k + 4) s t)) ∧
    ((dlCore s g k).run = true → tick = rdF s (dlCfg g k) 15 0 → 1 ≤ tick → s.dsp.slots = [(g * 65536 + n, some h)] → h.stage = .delay → h.item.dlist = k →
      (distance (lastTick (dlCore s g k) tick) h.due < 2 ^ 39 → h.item.flowValid = false → Does (.delayListRelease g k) s (fun t =>
        (heldAt t g n).map (fun x => (x.stage, x.item)) = some (.ready, { h.item with
          late := decide (tick < distance (dlCore s g k).now40 h.due), release := h.due % 2 ^ 32 })
        ∧ rdF t (dlCfg g k + 4) 14 0 = 0
        ∧ rd t (dspBlk g + 0x50) = (if tick < distance (dlCore s g k).now40 h.due then satInc (rd s (dspBlk g + 0x50)) else rd s (dspBlk g + 0x50))
        ∧ KeepsBut [.regs, .dsp] s t ∧ RegsBut (fun a => a = dlCfg g k + 4 ∨ a = dspBlk g + 0x50) s t)) ∧
      (2 ^ 39 ≤ distance (lastTick (dlCore s g k) tick) h.due → Does (.delayListRelease g k) s (fun t => t.dsp = s.dsp
        ∧ rdF t (dlCfg g k + 4) 14 0 = 1 ∧ KeepsBut [.regs] s t ∧ RegsBut (fun a => a = dlCfg g k + 4) s t))))

/-- Starts, ends, contexts and configuration (10 R307-R327). -/
def Obligations.ItemsStartEndAndFlowsAdvance : Prop :=
  (∀ (s : State) (g n j : Nat) (h : Held), g < 8 → n < 65536 → dspOff s g = false → h.stage = .ready → nextTile s g h.item.tset = some j →
    (tileAt s (g * 512 + j)).preempt = none →
    let begun (t : State) : Prop := (heldAt t g n).map (·.stage) = some (.service (g * 512 + j))
      ∧ (tileAt t (g * 512 + j)).incoming.map (fun i => (i.desc, i.eclass)) = some (h.item.desc, qClass s g h.item.queue)
      ∧ rd t (dspBlk g + 0x48) = satInc (rd s (dspBlk g + 0x48)) ∧ sget 511 t.dsp.lastTile (g * 16 + h.item.tset) = j
      ∧ KeepsBut [.regs, .dsp, .tiles] s t ∧ RegsBut (fun a => a = dspBlk g + 0x48) s t
    (s.dsp.slots = [(g * 65536 + n, some h)] → qEn s g h.item.queue = true → classMay s g h.item.queue = true →
      Does (.itemStart g) s (fun t => begun t ∧ (h.item.flowValid = true →
        ctxOf t (ctxKey g h.item.flow) = (ctxOf s (ctxKey g h.item.flow)).map (fun w => ctxAdd w 2)))) ∧
    (∀ (m : Nat) (x : Held), n < m → m < 65536 → s.dsp.slots = [(g * 65536 + n, some h), (g * 65536 + m, some x)] → h.item.queue < 256 → x.item.queue < 256 →
      h.order < 2 ^ 64 → x.order < 2 ^ 64 → qEn s g h.item.queue = true → classMay s g h.item.queue = true →
      qPrio s g h.item.queue < qPrio s g x.item.queue → Does (.itemStart g) s (fun t => begun t ∧ heldAt t g m = some x)) ∧
    (s.dsp.slots = [(g * 65536 + n, some h)] → (qEn s g h.item.queue = false ∨ classMay s g h.item.queue = false) → exec (.itemStart g) s = .next s)) ∧
  (∀ (s : State) (g n v : Nat) (h : Held) (x : Tile), g < 8 → n < 65536 → v / 512 = g → dspOff s g = false → h.stage = .ready →
    s.dsp.slots = [(g * 65536 + n, some h)] → qEn s g h.item.queue = true → classMay s g h.item.queue = true → qPreempts s g h.item.queue = true →
    nextTile s g h.item.tset = none → s.tiles = [(v, x)] → inSet s g h.item.tset (v % 512) = true → victimOk s g (qPrio s g h.item.queue) v = true →
    Does (.preemptRequest g) s (fun t => tileAt t v = { x with preempt := some n } ∧ KeepsBut [.tiles] s t)) ∧
  (∀ (s : State) (g : Nat) (r : TileReport) (h : Held), g < 8 → dspOff s g = false → s.dsp.reports = [r] → r.tile / 512 = g →
    s.dsp.slots = [(g * 65536 + r.item.slot, some h)] → r.item.slot < 65536 → h.item.queue = r.item.queue → h.stage = .service r.tile →
    let c := dspBlk g + 0x2000 + 0x10 * r.item.queue
    let ended (t : State) : Prop := t.dsp.slots = [] ∧ t.dsp.reports = [] ∧ qCount t g r.item.queue = qCount s g r.item.queue - 1
      ∧ rd t (dspBlk g + 0x4C) = (if r.cause = 0 then rd s (dspBlk g + 0x4C) else satInc (rd s (dspBlk g + 0x4C)))
    (rdB s (c + 4) 31 = false → r.item.flowValid = false → Does (.itemCompletion g) s (fun t => ended t ∧ t.dsp.ctxs = s.dsp.ctxs
      ∧ KeepsBut [.regs, .dsp] s t ∧ RegsBut (fun a => a = dspBlk g + 0x4C ∨ a = qCfg g r.item.queue + 8 ∨ a = dspBlk g + 0x20) s t)) ∧
    (rdB s (c + 4) 31 = true → r.item.flowValid = false → Does (.itemCompletion g) s (fun t => ended t
      ∧ (∃ q : Packet, t.net = s.net ++ [q] ∧ q.op = 3 ∧ q.len = 16
        ∧ q.addr = rdF s c 31 4 * 16 + rdF s (c + 4) 15 0 * 2 ^ 32 + 16 * ((rd s (c + 8)).toNat % 2 ^ rdF s (c + 4) 20 16)
        ∧ q.data = wordsToBytes [word (r.item.slot + r.item.gen * 2 ^ 16 + (if r.cause = 0 then r.code else 0) * 2 ^ 24),
            word (r.cause + b2n r.item.late * 2 ^ 4 + b2n r.item.limit * 2 ^ 5 + min 255 r.item.restarts * 2 ^ 8 + r.tile * 2 ^ 16),
            word r.item.flow, word r.item.cycles])
      ∧ rd t (c + 8) = rd s (c + 8) + 1 ∧ KeepsBut [.regs, .dsp, .net] s t)) ∧
    (∀ w : List Word, rdB s (c + 4) 31 = false → r.item.flowValid = true → ctxOf s (ctxKey g r.item.flow) = some w → w.length = 16 →
      nfld (wordAt w 0) 31 16 = 0 → Does (.itemCompletion g) s (fun t => ended t
        ∧ ctxOf t (ctxKey g r.item.flow) = some (ctxSet (ctxEnd r.cause r.code w) 0 0 0 0) ∧ KeepsBut [.regs, .dsp] s t))) ∧
  (∀ (s : State) (g n : Nat) (r : TileReport) (h x : Held) (w : List Word), g < 8 → dspOff s g = false → s.dsp.reports = [r] → r.tile / 512 = g →
    n < r.item.slot → s.dsp.slots = [(g * 65536 + n, some x), (g * 65536 + r.item.slot, some h)] → r.item.slot < 65536 → h.stage = .service r.tile →
    rdB s (dspBlk g + 0x2004 + 0x10 * r.item.queue) 31 = false → r.item.flowValid = true → x.stage = .chain → x.next = none →
    ctxOf s (ctxKey g r.item.flow) = some w → w.length = 16 → nfld (wordAt w 0) 31 16 = 1 → nfld (wordAt w 1) 15 0 = n →
    Does (.itemCompletion g) s (fun t => (heldAt t g n).map (fun y => (y.stage, y.item)) = some (.ready, x.item) ∧ heldAt t g r.item.slot = none
      ∧ (ctxOf t (ctxKey g r.item.flow)).map (fun y => (nfld (wordAt y 0) 31 16, (wordAt y 0).testBit 0)) = some (0, (wordAt w 0).testBit 0)
      ∧ KeepsBut [.regs, .dsp] s t)) ∧
  (∀ (s : State) (g n k : Nat) (p : Packet) (h : Held), g < 8 → n < 65536 → dspOff s g = false → s.bough.inbox = [p] → p.dst = dspStation g → p.op = 4 →
    s.dsp.reads = [k] → k / 2 ^ 21 = g → p.addr = ctxAddr s k → s.dsp.slots = [(g * 65536 + n, some h)] → h.stage = .lookup → h.item.flowValid = true →
    ctxKey g h.item.flow = k → s.dsp.ctxs = [] → sget 0 s.dsp.ghosts k = 0 →
    (p.status = 0 → p.poison = false → p.data.length = 64 → pinned (bytesToWords p.data) = false → Does (.flowContextFill 0) s (fun t =>
      (heldAt t g n).map (fun y => (y.stage, y.item)) = some (.ready, h.item) ∧ ctxOf t k = some (ctxSet (bytesToWords p.data) 0 0 0 1)
      ∧ t.dsp.reads = [] ∧ t.bough.inbox = [] ∧ KeepsBut [.dsp, .bough] s t)) ∧
    (p.poison = true → rdB s (dspBlk g + 0x2004 + 0x10 * h.item.queue) 31 = false → EventFits s 0x0891 2 → sget none s.dsp.poisonLast g = none →
      Does (.flowContextFill 0) s (fun t => heldAt t g n = none ∧ t.dsp.ctxs = [] ∧ rd t (dspBlk g + 0x4C) = satInc (rd s (dspBlk g + 0x4C))
        ∧ rd t (dspBlk g + 0x60) = satInc (rd s (dspBlk g + 0x60)) ∧ EventPlaced t 0x0891 (word g) ∧ KeepsBut [.regs, .ward, .dsp, .bough] s t))) ∧
  (∀ (s : State) (g n : Nat) (h : Held) (w : List Word), g < 8 → n < 65536 → dspOff s g = false → s.dsp.slots = [(g * 65536 + n, some h)] →
    h.stage = .backlog → ctxOf s (ctxKey g h.item.flow) = some w → pinned w = false → Does (.entryBacklogEnter g) s (fun t =>
      (heldAt t g n).map (fun y => (y.stage, y.item)) = some (.ready, h.item) ∧ ctxOf t (ctxKey g h.item.flow) = some (ctxSet w 0 0 0 1)
      ∧ KeepsBut [.dsp] s t)) ∧
  (∀ (s : State) (g v : Nat) (i : Item), g < 8 → dspOff s g = false → s.dsp.restarts = [v] → v / 512 = g → (tileAt s v).item = some i →
    (rdF s (dspBlk g) 7 0 = 0 ∨ i.restarts + 1 < rdF s (dspBlk g) 7 0 → Does (.restartReport g) s (fun t =>
      (tileAt t v).item = some { i with restarts := i.restarts + 1 } ∧ rd t (dspBlk g + 0x54) = satInc (rd s (dspBlk g + 0x54)) ∧ t.dsp.restarts = []
      ∧ KeepsBut [.regs, .dsp, .tiles] s t ∧ RegsBut (fun a => a = dspBlk g + 0x54) s t)) ∧
    (0 < rdF s (dspBlk g) 7 0 → rdF s (dspBlk g) 7 0 ≤ i.restarts + 1 → (tileAt s v).state = 0x72 → (tileAt s v).locked = false → (tileAt s v).stepping = 0 →
      EventFits s 0x0892 1 → Does (.restartReport g) s (fun t => rdF t (tilBlk v + 0x14) 19 16 = 0xA
        ∧ t.dsp.reports.getLast? = some ⟨v, { i with restarts := i.restarts + 1, limit := true }, 0xA, 0⟩ ∧ EventPlaced t 0x0892 (word v)
        ∧ t.mem = s.mem))) ∧
  (∀ (s : State) (g : Nat) (src : Writer) (v : Word), g < 8 → BlockOpen s (8 + g) 0 → wardenOrPf0 src = true →
    (∀ q : Nat, q < 256 → ((upto 256).foldl (fun n k => n + if k = q then fld v 16 0 else qMin s g k) 0 ≤ 65536 → Does (.dspQminWrite src g q v) s (fun t =>
        qMin t g q = fld v 16 0 ∧ KeepsBut [.regs] s t ∧ RegsBut (fun a => a = qCfg g q + 4) s t)) ∧
      (65536 < (upto 256).foldl (fun n k => n + if k = q then fld v 16 0 else qMin s g k) 0 → Does (.dspQminWrite src g q v) s (fun t =>
        rdB t (dspBlk g + 4) 0 = true ∧ KeepsBut [.regs] s t ∧ RegsBut (fun a => a = dspBlk g + 4) s t))) ∧
    (∀ k : Nat, k < 8 → 16 ≤ fld v 15 0 → fld v 15 0 % 2 = 0 → (listCount s g k = 0 → Does (.dspDlCfgWrite src g k v) s (fun t =>
        dlEn t g k = bit v 31 ∧ rdF t (dlCfg g k) 26 24 = fld v 26 24 ∧ rdF t (dlCfg g k) 15 0 = fld v 15 0 ∧ KeepsBut [.regs] s t
        ∧ RegsBut (fun a => a = dlCfg g k) s t)) ∧
      (listCount s g k ≠ 0 → (fld v 26 24 ≠ rdF s (dlCfg g k) 26 24 ∨ fld v 15 0 ≠ rdF s (dlCfg g k) 15 0) → Does (.dspDlCfgWrite src g k v) s (fun t =>
        rdB t (dspBlk g + 4) 0 = true ∧ KeepsBut [.regs] s t ∧ RegsBut (fun a => a = dspBlk g + 4) s t))) ∧
    (bit v 31 = false → rdB s (dspBlk g) 31 = true → Does (.dspEnClear src g v) s (fun t => rdB t (dspBlk g) 31 = false ∧ rdB t (dspBlk g + 4) 3 = true
      ∧ rdF t (dspBlk g) 7 0 = fld v 7 0 ∧ KeepsBut [.regs] s t ∧ RegsBut (fun a => a = dspBlk g ∨ a = dspBlk g + 4) s t)) ∧
    (bit v 31 = true → rdB s (dspBlk g) 31 = false → (flowTableOk s g = true → Does (.dspEnSet src g v) s (fun t => rdB t (dspBlk g) 31 = true
        ∧ rdB t (dspBlk g + 4) 3 = false ∧ t.dsp = s.dsp ∧ KeepsBut [.regs] s t ∧ RegsBut (fun a => a = dspBlk g ∨ a = dspBlk g + 4) s t)) ∧
      (flowTableOk s g = false → Does (.dspEnSet src g v) s (fun t => rdB t (dspBlk g) 31 = false ∧ rdB t (dspBlk g + 4) 0 = true ∧ KeepsBut [.regs] s t))) ∧
    (∀ (k : Nat) (w : List Word), dspOff s g = false → bit v 31 = true → s.dsp.ctxs = [(k, w)] → k / 2 ^ 21 = g → Does (.dspFlowFlush src g v) s (fun t =>
      t.dsp.ctxs = (if pinned w then [(k, w)] else []) ∧ rdB t (dspBlk g + 4) 1 = true ∧ sget none t.dsp.flush g = some none
      ∧ t.net.map (fun q => (q.op, q.addr, q.data)) = s.net.map (fun q => (q.op, q.addr, q.data)) ++ [(3, ctxAddr s k, wordsToBytes w)]
      ∧ KeepsBut [.regs, .dsp, .net] s t ∧ RegsBut (fun a => a = dspBlk g + 4) s t))) ∧
  (∀ (s : State) (g : Nat), g < 8 → dspOff s g = false →
    (∀ (k : Nat) (w : List Word), rdB s (dspBlk g + 4) 3 = true → heldItems s g = [] → s.dsp.reads = [] → s.dsp.ctxs = [(k, w)] → k / 2 ^ 21 = g →
      Does (.drainEnd g) s (fun t => t.dsp.ctxs = [] ∧ rdB t (dspBlk g + 4) 3 = false
        ∧ t.net.map (fun q => (q.op, q.addr, q.data)) = s.net.map (fun q => (q.op, q.addr, q.data)) ++ [(3, ctxAddr s k, wordsToBytes w)]
        ∧ KeepsBut [.regs, .dsp, .net] s t ∧ RegsBut (fun a => a = dspBlk g + 4) s t)) ∧
    ((sget none s.dsp.flush g).isSome = true → Does (.flowFlushDone g) s (fun t => rdB t (dspBlk g + 4) 1 = false ∧ sget none t.dsp.flush g = none
      ∧ KeepsBut [.regs, .dsp] s t ∧ RegsBut (fun a => a = dspBlk g + 4) s t))) ∧
  (∀ (s : State) (st g c : Nat), g < 8 → c < 8 → populated st = true → BlockOpen s (8 + g) 0 → Does (.clsCycLowRead st g c) s (fun t =>
    (st, dspBlk g + 0x80 + 8 * c, rd s (dspBlk g + 0x84 + 8 * c)) ∈ t.dsp.latches ∧ KeepsBut [.dsp] s t))

/-! ### Porters and translation (11) -/

/-- Transfers (11 R336-R349). -/
def Obligations.TransfersMoveBeatByBeat : Prop :=
  (∀ (s : State) (c : Nat) (src : Writer) (v : Word), isPorter c = true → ptrOff s c = false →
    BlockOpen s (c / 256) (if c / 256 = 0 then 0 else 1) → ptrRecv s c = false →
    (ptrWriter s c src = true → 2 ^ rdF s (ptrBlk c) 4 0 < (fld v 15 0 + 65536 - ptrCons s c) % 65536 → Does (.ptrProdWrite src c v) s (fun t =>
      rdB t (ptrBlk c + 4) 9 = true ∧ KeepsBut [.regs] s t ∧ RegsBut (fun a => a = ptrBlk c + 4) s t)) ∧
    (ptrWriter s c src = true → (fld v 15 0 + 65536 - ptrCons s c) % 65536 ≤ 2 ^ rdF s (ptrBlk c) 4 0 → Does (.ptrProdWrite src c v) s (fun t =>
      ptrProd t c = fld v 15 0 ∧ ptrState t c = (if ptrState s c = 0x80 ∧ fld v 15 0 ≠ ptrCons s c then 0x82 else ptrState s c) ∧ KeepsBut [.regs] s t
      ∧ RegsBut (fun a => a = ptrBlk c + 4 ∨ a = ptrBlk c + 0x10) s t)) ∧
    (ptrWriter s c src = false → exec (.ptrProdWrite src c v) s = .next s)) ∧
  (∀ (s : State) (die c : Nat), (die = 0 ∨ isGroveDie die = true) → c ∈ channelsOf die → ptrOff s c = false → ptrState s c = 0x82 →
    (porterAt s c).recording = false → (porterAt s c).desc = none → (porterAt s c).reading = false →
    ((channelsOf die).filter (fun k => (porterAt s k).mover)).length < movers die →
    (∀ k ∈ channelsOf die, k ≠ c → ptrState s k = 0x82 → (ptrGuar s c = true ∧ (ptrGuar s k = true → c < k))
      ∨ (ptrGuar s c = false ∧ ptrGuar s k = false ∧ ptrPrio s c < ptrPrio s k)) →
    s.bough.waiting = [] → 1 ≤ slotsFree s c → injArmed s die 7 = false →
    let a := rdF s (ptrBlk c + 8) 31 6 * 64 + rdF s (ptrBlk c + 0xC) 15 0 * 2 ^ 32 + 64 * (ptrCons s c % 2 ^ rdF s (ptrBlk c) 4 0)
    a < 2 ^ 48 → bit (routeOf s c (stationOf s a)) 31 = true → cacheable s c 1 a = false →
    Does (.moverTake die) s (fun t => ptrState t c = 0x81 ∧ (porterAt t c).mover = true ∧ (porterAt t c).reading = true
      ∧ (t.net.getLast?.map (fun q => (q.op, q.src, q.addr, q.len))) = some (1, c, a, 64)
      ∧ (∀ k : Nat, k ≠ c → porterAt t k = porterAt s k) ∧ KeepsBut [.regs, .porters, .moverLast, .bough, .net] s t)) ∧
  (∀ (s : State) (c : Nat) (p : Packet) (x : Porter), isPorter c = true → ptrOff s c = false → ptrRecv s c = false → porterAt s c = x → s.bough.inbox = [p] →
    p.dst = c → p.op = 4 → p.tag = 0xFFFF → x.reading = true → x.recording = false →
    (∀ st : Nat, (p.poison = true ∧ st = 0x0D) ∨ (p.poison = false ∧ p.status = 6 ∧ st = 6) ∨ (p.poison = false ∧ p.status = 0x0E ∧ st = 0x20) →
      x.desc = none → x.offDue = false → rdB s (ptrBlk c + 0x1C) 31 = false → EventFits s 0x08A2 2 → Does (.descriptorReadAnswer 0) s (fun t =>
        ptrState t c = 0x84 ∧ ptrCons t c = (ptrCons s c + 1) % 65536 ∧ rdF t (ptrBlk c + 0x34) 23 16 = st
        ∧ rd t (ptrBlk c + 0x48) = satInc (rd s (ptrBlk c + 0x48)) ∧ EventPlaced t 0x08A2 (word c) ∧ t.net = s.net ∧ t.bough.inbox = []
        ∧ KeepsBut [.regs, .ward, .porters, .bough] s t)) ∧
    (∀ d : List Word, p.poison = false → p.status = 0 → p.data.length = 64 → d = bytesToWords p.data → ptrDescOk s c d = true →
      dVirtSrc d = false → dVirtDst d = false → dUnit d = false → dHostSrc d = false → dHostDst d = false → beatLen d true true 0 (dLen d) = dLen d →
      ptrState s c = 0x81 → x.mover = true → x.stop = none → s.bough.waiting = [] → dSrc d % 256 + dLen d ≤ 256 → flitsOf (dLen d) ≤ slotsFree s c →
      injArmed s (c / 256) 7 = false → bit (routeOf s c (stationOf s (dSrc d))) 31 = true → cacheable s c 1 (dSrc d) = false →
      Does (.descriptorReadAnswer 0) s (fun t => (porterAt t c).desc = some d ∧ (porterAt t c).next = dLen d
        ∧ (porterAt t c).beats.map (fun b => (b.off, b.len, b.st, b.src, b.dst)) = [(0, dLen d, .reading, dSrc d, dDst d)]
        ∧ (t.net.getLast?.map (fun q => (q.op, q.src, q.addr, q.len))) = some (1, c, dSrc d, dLen d) ∧ ptrState t c = 0x81
        ∧ KeepsBut [.regs, .porters, .bough, .net] s t))) ∧
  (∀ (s : State) (c : Nat) (p : Packet) (x : Porter) (b : Beat) (d : List Word), isPorter c = true → ptrOff s c = false → ptrRecv s c = false →
    porterAt s c = x → s.bough.inbox = [p] → p.dst = c → p.tag = b.tag → b.tag < 0xFF00 → x.beats = [b] → x.desc = some d → dLen d ≤ x.next →
    x.stop = none →
    (p.op = 4 → b.st = .reading →
      (p.status = 0 → p.poison = false → p.data.length = b.len → dUnit d = false → dHostDst d = false → ptrGuar s c = false → s.bough.waiting = [] →
        b.dst % 256 + b.len ≤ 256 → b.dst < 2 ^ 48 → 1 ≤ slotsFree s c → injArmed s (c / 256) 7 = false →
        fld (routeOf s c (stationOf s b.dst)) 31 30 = 2 → cacheable s c 2 b.dst = false → Does (.beatReadAnswer c (some 0) [] 0) s (fun t =>
          (porterAt t c).beats = [{ b with st := .writing, data := p.data }] ∧ t.bough.inbox = []
          ∧ (t.net.getLast?.map (fun q => (q.op, q.src, q.addr, q.data))) = some (2, c, b.dst, p.data) ∧ KeepsBut [.regs, .porters, .bough, .net] s t)) ∧
      (p.poison = true → Does (.beatReadAnswer c (some 0) [] 0) s (fun t => (porterAt t c).beats = [] ∧ (porterAt t c).stop = some 0x0D
        ∧ (porterAt t c).failAt = b.off ∧ t.net = s.net ∧ KeepsBut [.regs, .porters, .bough] s t))) ∧
    (p.op = 5 → b.st = .writing →
      (p.status = 0 → p.poison = false → Does (.beatWriteAnswer c (some 0) 0) s (fun t => (porterAt t c).beats = []
        ∧ rd t (ptrBlk c + 0x30) = word x.next ∧ rd t (ptrBlk c + 0x40) = (if b.len = 0 then rd s (ptrBlk c + 0x40) else satAdd (rd s (ptrBlk c + 0x40)) b.len)
        ∧ t.net = s.net ∧ KeepsBut [.regs, .porters, .bough] s t)) ∧
      (p.status = 0x0E → p.poison = false → Does (.beatWriteAnswer c (some 0) 0) s (fun t => (porterAt t c).beats = [] ∧ (porterAt t c).stop = some 0x20
        ∧ (porterAt t c).failAt = b.off ∧ rd t (ptrBlk c + 0x30) = word (min b.off x.next) ∧ t.net = s.net ∧ KeepsBut [.regs, .porters, .bough] s t)))) ∧
  (∀ (s : State) (c : Nat) (x : Porter) (d : List Word), isPorter c = true → ptrOff s c = false → ptrRecv s c = false → porterAt s c = x →
    x.recording = false → x.desc = some d → x.beats = [] → ptrState s c = 0x81 → x.offDue = false →
    (x.stop = none → dLen d = x.next → rdB s (ptrBlk c + 0x1C) 31 = false → dNotify d = false → ptrProd s c = (ptrCons s c + 1) % 65536 →
      Does (.descriptorComplete c) s (fun t => ptrCons t c = ptrProd s c ∧ ptrState t c = 0x80 ∧ (porterAt t c).mover = false ∧ (porterAt t c).desc = none
        ∧ rd t (ptrBlk c + 0x44) = satInc (rd s (ptrBlk c + 0x44)) ∧ t.net = s.net ∧ KeepsBut [.regs, .porters] s t)) ∧
    (x.stop = none → dLen d = x.next → rdB s (ptrBlk c + 0x1C) 31 = true → s.bough.waiting = [] → 1 ≤ slotsFree s c → injArmed s (c / 256) 7 = false →
      (replicaTb s (c / 256) (rdF s (ptrBlk c) 10 8)).run = true →
      let a := rdF s (ptrBlk c + 0x18) 31 4 * 16 + rdF s (ptrBlk c + 0x1C) 15 0 * 2 ^ 32 + 16 * ((rd s (ptrBlk c + 0x20)).toNat % 2 ^ rdF s (ptrBlk c + 0x1C) 20 16)
      a < 2 ^ 48 → fld (routeOf s c (stationOf s a)) 31 30 = 2 → cacheable s c 2 a = false → Does (.descriptorComplete c) s (fun t =>
        (porterAt t c).recording = true ∧ (porterAt t c).notify = dNotify d ∧ ptrCons t c = ptrCons s c ∧ rd t (ptrBlk c + 0x20) = rd s (ptrBlk c + 0x20) + 1
        ∧ (t.net.getLast?.map (fun q => (q.op, q.src, q.addr, q.data))) = some (2, c, a, wordsToBytes [word (ptrCons s c + chanNo c * 2 ^ 24 + 2 ^ 31),
            word (dLen d), word (dUser d), word (replicaTb s (c / 256) (rdF s (ptrBlk c) 10 8)).ns]) ∧ KeepsBut [.regs, .porters, .bough, .net] s t)) ∧
    (∀ st : Nat, x.stop = some st → st ∈ [6, 0x0D, 0x20] → rdB s (ptrBlk c + 0x1C) 31 = false → dNotify d = false → EventFits s 0x08A2 2 →
      Does (.descriptorComplete c) s (fun t => ptrState t c = 0x84 ∧ ptrCons t c = (ptrCons s c + 1) % 65536 ∧ rdF t (ptrBlk c + 0x34) 23 16 = st
        ∧ rd t (ptrBlk c + 0x48) = satInc (rd s (ptrBlk c + 0x48)) ∧ (porterAt t c).mover = false ∧ EventPlaced t 0x08A2 (word c)
        ∧ KeepsBut [.regs, .ward, .porters] s t))) ∧
  (∀ (s : State) (c : Nat) (p : Packet) (x : Porter), isPorter c = true → ptrOff s c = false → ptrRecv s c = false → porterAt s c = x →
    s.bough.inbox = [p] → p.dst = c → p.op = 5 → p.tag = 0xFFFE → x.recording = true → x.notify = false → x.offDue = false → ptrState s c = 0x81 →
    ptrProd s c = (ptrCons s c + 1) % 65536 → Does (.cqRecordAck 0) s (fun t => ptrCons t c = ptrProd s c ∧ ptrState t c = 0x80
      ∧ (porterAt t c).recording = false ∧ (porterAt t c).mover = false ∧ t.bough.inbox = [] ∧ KeepsBut [.regs, .porters, .bough] s t
      ∧ RegsBut (fun a => a = ptrBlk c + 4 ∨ a = ptrBlk c + 0x14) s t)) ∧
  (∀ (s : State) (c : Nat) (x : Porter), isPorter c = true → ptrOff s c = false → porterAt s c = x → ptrState s c = 0x81 → x.beats = [] → x.offDue = false →
    (∀ (k va : Nat) (dst : Bool), x.stop = some 256 → x.xfault = some (k, dst, va) → k < 16 → va < 2 ^ 39 → Does (.porterTranslationFault c) s (fun t =>
      ptrState t c = 0x83 ∧ rd t (ptrBlk c + 0x30) = word x.failAt ∧ rdF t (ptrBlk c + 0x34) 3 0 = k ∧ rdB t (ptrBlk c + 0x34) 6 = dst
      ∧ rdB t (ptrBlk c + 0x34) 7 = dst ∧ rd t (ptrBlk c + 0x38) = lo32 va ∧ rdF t (ptrBlk c + 0x3C) 6 0 = va / 2 ^ 32 ∧ (porterAt t c).mover = false
      ∧ (porterAt t c).next = x.failAt ∧ (porterAt t c).desc = x.desc ∧ KeepsBut [.regs, .porters] s t)) ∧
    (x.stop = some 257 → Does (.moverPreempt c) s (fun t => ptrState t c = 0x82 ∧ (porterAt t c) = { x with mover := false, stop := none }
      ∧ rd t (ptrBlk c + 0x4C) = satInc (rd s (ptrBlk c + 0x4C)) ∧ KeepsBut [.regs, .porters] s t
      ∧ RegsBut (fun a => a = ptrBlk c + 4 ∨ a = ptrBlk c + 0x4C) s t)))

/-- Channel control, units and translation (11 R334-R356). -/
def Obligations.ChannelsStopUnitsCloseAndWalksEnd : Prop :=
  (∀ (s : State) (c : Nat) (src : Writer), isPorter c = true → ptrOff s c = false → BlockOpen s (c / 256) (if c / 256 = 0 then 0 else 1) →
    ptrWriter s c src = true → ptrRecv s c = false → (porterAt s c).recording = false →
    (ptrState s c = 0x83 →
      Does (.resume src c) s (fun t => ptrState t c = 0x82 ∧ KeepsBut [.regs] s t ∧ RegsBut (fun a => a = ptrBlk c + 4) s t) ∧
      (∀ d : List Word, (porterAt s c).desc = some d → dNotify d = false → (porterAt s c).mover = false → (porterAt s c).offDue = false →
        rdB s (ptrBlk c + 0x1C) 31 = false →
        Does (.skip src c) s (fun t => ptrState t c = (if ptrProd s c = (ptrCons s c + 1) % 65536 then 0x80 else 0x82)
          ∧ ptrCons t c = (ptrCons s c + 1) % 65536 ∧ rdF t (ptrBlk c + 0x34) 23 16 = 0x24 ∧ (porterAt t c).desc = none ∧ t.net = s.net
          ∧ KeepsBut [.regs, .porters] s t) ∧
        Does (.abort src c) s (fun t => ptrState t c = 0x84 ∧ ptrCons t c = (ptrCons s c + 1) % 65536 ∧ rdF t (ptrBlk c + 0x34) 23 16 = 0x22
          ∧ (porterAt t c).desc = none ∧ t.net = s.net ∧ KeepsBut [.regs, .porters] s t))) ∧
    (ptrState s c = 0x81 → (porterAt s c).beats.all (fun b => b.st = .reading || b.st = .ready || b.st = .writing) = true → Does (.abort src c) s (fun t =>
      (porterAt t c).stop = some 0x22 ∧ (porterAt t c).failAt = (porterAt s c).next ∧ (porterAt t c).beats = (porterAt s c).beats ∧ KeepsBut [.porters] s t)) ∧
    (ptrState s c = 0x84 → Does (.go src c) s (fun t => ptrState t c = (if ptrProd s c = ptrCons s c then 0x80 else 0x82) ∧ KeepsBut [.regs] s t
      ∧ RegsBut (fun a => a = ptrBlk c + 4) s t)) ∧
    (ptrState s c = 0x80 → exec (.resume src c) s = .next s ∧ exec (.skip src c) s = .next s ∧ exec (.abort src c) s = .next s
      ∧ exec (.go src c) s = .next s)) ∧
  (∀ (s : State) (c : Nat) (src : Writer) (v : Word), isPorter c = true → ptrOff s c = false → BlockOpen s (c / 256) (if c / 256 = 0 then 0 else 1) →
    wardenOrPf0 src = true → (porterAt s c).offDue = false →
    (rd s (ptrBlk c) = 0 → ptrState s c = 0x85 → bit v 31 = true → bit v 30 = false → bit v 29 = false → fld v 4 0 ≤ 12 → (porterAt s c).desc = none →
      ringEmpty s c = true → Does (.ptrChCfgWrite src c v) s (fun t => ptrState t c = 0x80 ∧ ptrEn t c = true ∧ ptrPrio t c = fld v 25 24
        ∧ rdF t (ptrBlk c) 4 0 = fld v 4 0 ∧ rdF t (ptrBlk c) 10 8 = fld v 10 8 ∧ KeepsBut [.regs] s t
        ∧ RegsBut (fun a => a = ptrBlk c ∨ a = ptrBlk c + 4) s t)) ∧
    (ptrEn s c = true → bit v 31 = true → fld v 25 24 ≠ ptrPrio s c → Does (.ptrChCfgWrite src c v) s (fun t => rd t (ptrBlk c) = rd s (ptrBlk c)
      ∧ rdB t (ptrBlk c + 4) 10 = true ∧ KeepsBut [.regs] s t ∧ RegsBut (fun a => a = ptrBlk c + 4) s t)) ∧
    (rd s (ptrBlk c) = 0 → bit v 31 = false → bit v 30 = true → fld v 4 0 ≤ 12 → guarOk s c = false → Does (.ptrChCfgWrite src c v) s (fun t =>
      rdB t (ptrBlk c) 30 = false ∧ rdB t (ptrBlk c + 4) 10 = true ∧ KeepsBut [.regs] s t)) ∧
    (rd s (ptrBlk c) = setBit v 31 true → v &&& (if c / 256 = 0 then 0x7300071F else 0x63FF071F) = v → bit v 30 = false → fld v 4 0 ≤ 12 →
      (ptrState s c = 0x80 ∨ ptrState s c = 0x83 ∨ ptrState s c = 0x84 → Does (.ptrChCfgWrite src c v) s (fun t => ptrState t c = 0x85 ∧ ptrEn t c = false
        ∧ KeepsBut [.regs] s t ∧ RegsBut (fun a => a = ptrBlk c ∨ a = ptrBlk c + 4) s t)) ∧
      (ptrState s c = 0x81 → Does (.ptrChCfgWrite src c v) s (fun t => ptrState t c = 0x81 ∧ ptrEn t c = false ∧ (porterAt t c).offDue = true
        ∧ KeepsBut [.regs, .porters] s t)))) ∧
  (∀ (s : State) (c : Nat) (x : Porter), isPorter c = true → ptrOff s c = false → ptrRecv s c = true → porterAt s c = x →
    (∀ p : Packet, s.bough.inbox = [p] → p.dst = c → p.op = 3 → p.cut = false → p.status = 0 → p.addr < 2 ^ 17 → x.last = false → x.sender = none →
      x.reading = false → x.recording = false → ptrState s c = 0x80 →
      (x.desc = none → bit (word p.addr) 16 = false → Does (.unitPacketReceive 0) s (fun t => ptrState t c = 0x81 ∧ rdB t (ptrBlk c + 4) 8 = true
        ∧ (porterAt t c).sender = some p.src ∧ rd t (ptrBlk c + 0x50) = (if p.len = 0 then rd s (ptrBlk c + 0x50) else satAdd (rd s (ptrBlk c + 0x50)) p.len)
        ∧ t.bough.inbox = [] ∧ t.net = s.net ∧ KeepsBut [.regs, .porters, .bough] s t)) ∧
      (∀ d : List Word, x.desc = some d → dVirtDst d = false → x.stop = none → x.beats = [] → p.data.length = p.len → 0 < p.len → p.addr % 65536 + p.len ≤ dLen d →
        beatLen d false true (p.addr % 65536) p.len = p.len →
        let a := dstAt d (p.addr % 65536)
        a < 2 ^ 48 → a % 256 + p.len ≤ 256 → s.bough.waiting = [] → 1 ≤ slotsFree s c → injArmed s (c / 256) 7 = false →
        fld (routeOf s c (stationOf s a)) 31 30 = 2 → cacheable s c 2 a = false → Does (.unitPacketReceive 0) s (fun t => ptrState t c = 0x81
          ∧ (porterAt t c).sender = some p.src ∧ (porterAt t c).last = bit (word p.addr) 16 ∧ (porterAt t c).overrun = x.overrun
          ∧ (porterAt t c).beats.map (fun b => (b.off, b.len, b.st)) = [(p.addr % 65536, p.len, .writing)]
          ∧ (t.net.getLast?.map (fun q => (q.op, q.src, q.addr, q.data))) = some (2, c, a, p.data) ∧ KeepsBut [.regs, .porters, .bough, .net] s t))) ∧
    (rdB s (ptrBlk c + 4) 8 = true → x.last = false → x.noDesc = false → x.stop = none →
      let closed (t : State) : Prop := (porterAt t c).last = true ∧ (porterAt t c).failAt = x.placed
        ∧ (porterAt t c).beats = x.beats.filter (fun b => b.st = .writing || b.st = .written) ∧ KeepsBut [.porters] s t
      (∀ src : Writer, ptrWriter s c src = true → BlockOpen s (c / 256) (if c / 256 = 0 then 0 else 1) → Does (.closeUnit src c) s closed) ∧
      (∀ id : Nat, x.sender = some id → dieAlive s (id / 256) = false → Does (.peerLossCloseUnit c) s closed)) ∧
    (∀ d : List Word, x.desc = some d → x.last = true → x.stop = some unitClosed → x.beats = [] → x.recording = false → x.offDue = false → dNotify d = false →
      rdB s (ptrBlk c + 0x1C) 31 = false → ptrProd s c = (ptrCons s c + 1) % 65536 → ptrState s c = 0x81 → Does (.descriptorComplete c) s (fun t =>
        ptrState t c = 0x80 ∧ rdB t (ptrBlk c + 4) 8 = false ∧ rdF t (ptrBlk c + 0x34) 23 16 = 0x20 ∧ ptrCons t c = ptrProd s c
        ∧ (porterAt t c).sender = none ∧ KeepsBut [.regs, .porters] s t))) ∧
  (∀ (s : State) (g e : Nat) (p : Packet) (w : Walk), g < 8 → s.bough.inbox = [p] → p.dst = (8 + g) * 256 → p.op = 4 → p.poison = false → p.status = 0 →
    s.xlt.walks = [w] → w.grove = g → w.sent = true → p.tag = w.id % 2 ^ 16 → p.data.length = 8 → e = ofBytes p.data →
    (∀ k base a : Nat, w.level = 1 → level1 e = .table k base → a = level2At k base w.va → a % 8 = 0 → a < 2 ^ 48 → s.bough.waiting = [] →
      1 ≤ slotsFree s ((8 + g) * 256) → injArmed s (8 + g) 7 = false → bit (routeOf s ((8 + g) * 256) (stationOf s a)) 31 = true →
      Does (.translationWalkDone 0) s (fun t => t.xlt.walks = [{ w with level := 2, k := k }] ∧ t.bough.inbox = []
        ∧ (t.net.getLast?.map (fun q => (q.op, q.src, q.addr, q.len))) = some (1, (8 + g) * 256, a, 8) ∧ KeepsBut [.regs, .xlt, .bough, .net] s t)) ∧
    (∀ (x base tl : Nat) (ww : Bool), w.level = 2 → w.stale = false → w.user = .tile tl → (tileAt s tl).stall = some (.xlate w.id) →
      level2 w.k e = .page x base ww → (w.write = true → ww = true) → sget [] s.xlt.tlb g = [] → Does (.translationWalkDone 0) s (fun t => t.xlt.walks = []
        ∧ sget [] t.xlt.tlb g = [{ asid := w.asid, page := w.va / 2 ^ x * 2 ^ x, k := x, base := base, w := ww }]
        ∧ (tileAt t tl).xaddr = some (base + w.va % 2 ^ x) ∧ (tileAt t tl).stall = none ∧ KeepsBut [.tiles, .xlt, .bough] s t)) ∧
    (∀ tl : Nat, w.level = 1 → e % 2 = 0 → w.user = .tile tl → tl / 512 = g → (tileAt s tl).stall = some (.xlate w.id) → Does (.translationWalkDone 0) s (fun t =>
      t.xlt.walks = [] ∧ sget [] t.xlt.tlb g = sget [] s.xlt.tlb g ∧ (tileAt t tl).state = 0x74
      ∧ rd t (xltBlk g + 0x100 + 16 * (rdF s (xltBlk g + 0xC) 15 0 % 16)) = lo32 w.va
      ∧ rd t (xltBlk g + 0x104 + 16 * (rdF s (xltBlk g + 0xC) 15 0 % 16)) = word (nfld w.va 38 32 + w.asid * 2 ^ 8 + 2 * 2 ^ 16 + b2n w.write * 2 ^ 20)
      ∧ rdF t (xltBlk g + 0xC) 15 0 = (rdF s (xltBlk g + 0xC) 15 0 + 1) % 65536 ∧ rd t (xltBlk g + 0x18) = satInc (rd s (xltBlk g + 0x18))
      ∧ t.mem = s.mem ∧ t.net = s.net))) ∧
  (∀ (s : State) (g : Nat) (src : Writer) (v : Word), g < 8 →
    (wardenOrPf0 src = true → BlockOpen s (8 + g) 2 →
      (rdB s (xltBlk g) 0 = false → fld v 31 30 < 3 → Does (.xltInvalWrite src g v) s (fun t => rdB t (xltBlk g) 0 = true
        ∧ sget none t.xlt.inval g = some (fld v 31 30, fld v 7 0, rdF s (xltBlk g + 8) 26 0 * 4096, (s.xlt.walks.filter (fun w => w.grove = g)).map (·.id))
        ∧ KeepsBut [.regs, .xlt] s t ∧ RegsBut (fun a => a = xltBlk g) s t)) ∧
      ((rdB s (xltBlk g) 0 = true ∨ fld v 31 30 = 3) → Does (.xltInvalWrite src g v) s (fun t => rdB t (xltBlk g) 2 = true
        ∧ rdB t (xltBlk g) 0 = rdB s (xltBlk g) 0 ∧ KeepsBut [.regs] s t ∧ RegsBut (fun a => a = xltBlk g) s t))) ∧
    (∀ (scope asid page : Nat) (ids : List Nat), sget none s.xlt.inval g = some (scope, asid, page, ids) →
      (s.xlt.walks.all (fun w => !ids.contains w.id) = true → Does (.invalDone g) s (fun t => rdB t (xltBlk g) 0 = false ∧ sget none t.xlt.inval g = none
        ∧ sget [] t.xlt.tlb g = (sget [] s.xlt.tlb g).filter (fun e => !(scope = 2 || (e.asid = asid && (scope = 1 || e.page = page / 2 ^ e.k * 2 ^ e.k))))
        ∧ KeepsBut [.regs, .xlt] s t ∧ RegsBut (fun a => a = xltBlk g) s t)) ∧
      (s.xlt.walks.any (fun w => ids.contains w.id) = true → exec (.invalDone g) s = .next s)))

/-! ### DRAM (12) -/

/-- The code of R377 corrects single symbols and knows its marker (12 R377-R379). -/
def Obligations.CodeCorrectsEverySingleSymbolError : Prop :=
  (∀ (x8 : Bool) (b : List Byte), b.length = 16 →
    (encodeCw x8 b).length = 18 ∧ cwClass x8 (encodeCw x8 b) = .clean ∧ decodeCw x8 (encodeCw x8 b) = b ∧
    (∀ j e : Nat, j < 18 → 0 < e → e < 256 →
      cwClass x8 ((encodeCw x8 b).set j ((encodeCw x8 b).getD j 0 ^^^ e)) = .corrected j e)) ∧
  (∀ x8 : Bool, cwClass x8 (markerCw x8) = .marker)

/-- Channel states and the DRAM commands (12 R362-R390). -/
def Obligations.ChannelsAreConfiguredTrainedAndManaged : Prop :=
  (∀ (s : State) (b c : Nat) (args : List Word), c < 16 → wordAt args 0 = c → chanState s c ∈ chanStates →
    (Serving s b 0x0701 args → Does (.memInfo b) s (fun t => OnlyAnswer s t ∧ Answered t b 0 0
      ((upto 4).map (fun i => rd s (memBlk c + 4 * i)) ++ (upto 12).map (fun i => rd s (memCnt c i)) ++ [rd s (memBlk c + 0x50), rd s (memBlk c + 0x54)]))) ∧
    (Serving s b 0x0706 args → Does (.memErrlog b) s (fun t => Answered t b 0 0
        ([word (rdF s (memBlk c + 0x18) 4 0), rd s (memCnt c 0), rd s (memCnt c 2), word (rdF s (memBlk c + 0x18) 31 31)]
          ++ (upto 64).map (fun i => rd s (memBlk c + 0x100 + 4 * i))) ∧ KeepsBut [.regs, .ward] s t
      ∧ ((wordAt args 1).testBit 0 = false → OnlyAnswer s t)
      ∧ ((wordAt args 1).testBit 0 = true → rdF t (memBlk c + 0x18) 4 0 = 0 ∧ rdB t (memBlk c + 0x18) 31 = false
        ∧ (∀ i : Nat, i < 64 → rd t (memBlk c + 0x100 + 4 * i) = 0)
        ∧ RegsBut (fun a => a = memBlk c + 0x18 ∨ ∃ i : Nat, i < 64 ∧ a = memBlk c + 0x100 + 4 * i) s t))) ∧
    (∀ en period : Nat, Serving s b 0x0705 args → wordAt args 1 = en → en < 2 → wordAt args 2 = period → 1 ≤ period → period ≤ 168 →
      chanState s c = 0x93 ∨ chanState s c = 0x94 → Does (.memScrub b) s (fun t => Answered t b 0 0 [] ∧ rdB t (memBlk c) 21 = (en == 1)
        ∧ (chanAt t c).period = period ∧ (en = 1 → rd t (memBlk c + 0x14) = 0) ∧ KeepsBut [.regs, .ward, .dram] s t
        ∧ RegsBut (fun a => a = memBlk c ∨ a = memBlk c + 0x14) s t)) ∧
    (Serving s b 0x0703 args → chanState s c = 0x91 ∨ chanState s c = 0x95 →
      (mapMoves s c = false ∨ (wordAt args 1).testBit 0 = true → Does (.memTrain b) s (fun t => Begun t b ∧ chanState t c = 0x92
        ∧ (chanAt t c).inService = false ∧ KeepsBut [.regs, .ward, .dram] s t ∧ RegsBut (fun a => a = memBlk c) s t)) ∧
      (mapMoves s c = true → (wordAt args 1).testBit 0 = false → Does (.memTrain b) s (fun t => Answered t b 4 0x0705 [] ∧ OnlyAnswer s t))) ∧
    (Serving s b 0x0707 args → chanState s c = 0x91 ∨ chanState s c = 0x93 ∨ chanState s c = 0x95 →
      (flowInto s c = false → (∀ r : Nat, r < 8 → regionOn s c r = false) → Does (.memDisable b) s (fun t => Answered t b 0 0 [rd t (memBlk c + 8)]
        ∧ chanState t c = 0x90 ∧ chanMapped t c = false ∧ (∀ k : Nat, k / 2 ^ 34 = c → sget [] t.dram.cells k = [])
        ∧ KeepsBut [.regs, .ward, .dram] s t ∧ RegsBut (fun a => a = memBlk c ∨ a = memBlk (c / 2 * 2) + 8 ∨ a = memBlk (c / 2 * 2 + 1) + 8) s t)) ∧
      (flowInto s c = true → Does (.memDisable b) s (fun t => Answered t b 4 0x0708 [] ∧ OnlyAnswer s t)))) ∧
  (∀ (s : State) (b c : Nat) (args : List Word), c < 16 → nfld (wordAt args 0) 7 0 = c → wordAt args 1 = 0 → wordAt args 2 = 0 → wordAt args 3 = 0 →
    Serving s b 0x0702 args → chanState s c ∈ [0x90, 0x91, 0x95] →
    (spdCrcOk (args.drop 4) = false → Does (.memConfig b) s (fun t => Answered t b 4 0x0701 [] ∧ OnlyAnswer s t)) ∧
    (spdCrcOk (args.drop 4) = true → spdInfo (args.drop 4) = none → Does (.memConfig b) s (fun t => Answered t b 4 0x0702 [] ∧ OnlyAnswer s t)) ∧
    (∀ i : SpdInfo, spdCrcOk (args.drop 4) = true → spdInfo (args.drop 4) = some i →
      (spdFits i = false → Does (.memConfig b) s (fun t => Answered t b 4 0x0703 [] ∧ OnlyAnswer s t)) ∧
      (spdFits i = true → chanMapped s c = false →
        let sp := min i.speed (nfld (wordAt args 0) 9 8)
        let f (k : Nat) : Nat := nfld (wordAt args 0) k k
        Does (.memConfig b) s (fun t => Answered t b 0 0 [rd t (memBlk c + 4), word sp] ∧ chanState t c = 0x91 ∧ rdF t (memBlk c) 17 16 = sp
          ∧ rdB t (memBlk c) 20 = (decide (2 ≤ sp) && f 16 == 0) ∧ rdB t (memBlk c) 21 = false
          ∧ rd t (memBlk c + 4) = word (f 16 * 2 ^ 31 + f 17 * 2 ^ 30 + f 19 * 2 ^ 29 + f 18 * 2 ^ 28 + i.type * 2 ^ 26 + b2n i.x8 * 2 ^ 25
              + (i.rows - 15) * 2 ^ 22 + Nat.log2 i.lranks * 2 ^ 20 + Nat.log2 i.pranks * 2 ^ 18 + (17 + i.rows + Nat.log2 i.lranks))
          ∧ KeepsBut [.regs, .ward, .dram] s t ∧ RegsBut (fun a => a = memBlk c ∨ a = memBlk c + 4) s t)))) ∧
  (∀ (s : State) (b g lo len : Nat) (args : List Word), Serving s b 0x0704 args → g < 8 → wordAt args 0 = g → word64At args 2 = g * 0x4000000000 + lo →
    word64At args 4 = len → len < 2 ^ 39 → lo < 0x4000000000 → lo % 64 = 0 → len % 64 = 0 →
    (0 < len → lo + len ≤ cap0 s g → rdB s (memBlk (2 * g) + 8) 31 = false → chanState s (2 * g) = 0x93 →
      (flowInto s (2 * g) = false → (chanAt s (2 * g)).fill = none → Does (.memFill b) s (fun t => Answered t b 0 0 []
        ∧ (chanAt t (2 * g)).fill = some { next := lo / 64, last := (lo + len) / 64 - 1, pattern := word64At args 6 }
        ∧ rdB t (memBlk (2 * g)) 22 = true ∧ rd t (memBlk (2 * g) + 0x10) = word (lo / 64) ∧ KeepsBut [.regs, .ward, .dram] s t
        ∧ RegsBut (fun a => a = memBlk (2 * g) ∨ a = memBlk (2 * g) + 0x10) s t)) ∧
      ((chanAt s (2 * g)).fill.isSome = true → Does (.memFill b) s (fun t => Answered t b 7 0x0706 [] ∧ OnlyAnswer s t)) ∧
      (flowInto s (2 * g) = true → (chanAt s (2 * g)).fill = none → Does (.memFill b) s (fun t => Answered t b 4 0x0708 [] ∧ OnlyAnswer s t))) ∧
    (cap0 s g + cap1 s g ≤ lo → rdB s (memBlk (2 * g) + 8) 31 = false → chanState s (2 * g) ∈ chanStates → Does (.memFill b) s (fun t => Answered t b 2 0x0707 [] ∧ OnlyAnswer s t))) ∧
  (∀ (s : State) (c phase rank : Nat) (trn : List Word) (k : Taken), c < 16 → chanState s c = 0x92 → s.ward.taken = [k] → k.phase = .running → k.op = 0x0703 →
    wordAt k.args 0 = c → (chanAt s c).inService = false →
    (mapMoves s c = false → (EventFits s 0x0701 0 → Does (.trainingDone c true 0 0 trn) s (fun t => EventPlaced t 0x0701 (word c))) ∧
      Does (.trainingDone c true 0 0 trn) s (fun t => chanState t c = 0x93
        ∧ mapLog t c = rdF s (memBlk c + 4) 5 0 ∧ Answered t k.booth 0 0 [word 0x93, word (rdF s (memBlk c + 4) 5 0), rd t (memBlk c + 8)]
        ∧ (∀ n : Nat, n < (if isX8 s c then 9 else 18) → rd t (memBlk c + 0x400 + 4 * n) = trn.getD n 0)
        ∧ (∀ j : Nat, j / 2 ^ 34 = c → sget [] t.dram.cells j = []) ∧ KeepsBut [.regs, .ward, .dram] s t)) ∧
    (∀ e ∈ [Instr.trainingDone c false phase rank trn, Instr.trainingPhaseTimeout c phase rank],
      (EventFits s 0x0702 3 → Does e s (fun t => EventPlaced t 0x0702 (word c))) ∧
      Does e s (fun t => chanState t c = 0x95 ∧ Answered t k.booth 9 0x0704 [] ∧ OnlyRegs (fun a => a = memBlk c) [] s t))) ∧
  (∀ (s : State) (c : Nat) (trn : List Word), c < 16 → chanState s c = 0x92 → (chanAt s c).inService = true → s.ward.taken = [] → EventFits s 0x0707 2 → ringCount s < 255 →
    Does (.trainingDone c true 0 0 trn) s (fun t => chanState t c = 0x93 ∧ (chanAt t c).inService = false ∧ (chanAt t c).alerts = []
      ∧ t.dram.cells = s.dram.cells ∧ (∀ n : Nat, n < (if isX8 s c then 9 else 18) →
          rd t (memBlk c + 0x400 + 4 * n) = setFld (setFld (rd s (memBlk c + 0x400 + 4 * n)) 23 16 (fld (trn.getD n 0) 23 16)) 7 0 (fld (trn.getD n 0) 7 0))
      ∧ EventPlaced t 0x0707 (word c) ∧ KeepsBut [.regs, .ward, .dram] s t)) ∧
  (∀ (s : State) (c rank : Nat) (trn : List Word), c < 16 →
    (chanState s c = 0x93 → wantsRefresh s c = true → (chanAt s c).queue.any (·.write) = false → (chanAt s c).rt = [] → s.dram.cache = [] → s.clk.dieResets = [] →
      Does (.selfRefreshEntry c) s (fun t => chanState t c = 0x94 ∧ (chanAt t c).rows = [] ∧ t.dram.cells = s.dram.cells ∧ KeepsBut [.regs, .dram] s t
        ∧ RegsBut (fun a => a = memBlk c) s t)) ∧
    (chanState s c = 0x94 → wantsRefresh s c = false → dieState s (chanDie c) = 0x30 → s.dram.kept = [] →
      Does (.selfRefreshExit c true true rank trn) s (fun t => chanState t c = 0x93 ∧ t.dram.cells = s.dram.cells
        ∧ (∀ n : Nat, n < (if isX8 s c then 9 else 18) →
            rd t (memBlk c + 0x400 + 4 * n) = setFld (rd s (memBlk c + 0x400 + 4 * n)) 7 0 (fld (trn.getD n 0) 7 0))
        ∧ KeepsBut [.regs, .dram] s t ∧ RegsBut (fun a => a = memBlk c ∨ ∃ n : Nat, n < 18 ∧ a = memBlk c + 0x400 + 4 * n) s t) ∧
      (EventFits s 0x0702 3 → Does (.selfRefreshExit c true false rank trn) s (fun t => chanState t c = 0x95 ∧ EventPlaced t 0x0702 (word c)
        ∧ OnlyRegs (fun a => a = memBlk c) [.dram] s t)))) ∧
  (∀ (s : State) (c : Nat) (f : FillJob), c < 16 → (chanAt s c).fill = some f → EventFits s 0x0705 (if f.aborted then 2 else 0) → f.aborted = true ∨ f.last < f.next →
    Does (.memFillDone c) s (fun t => (chanAt t c).fill = none ∧ rdB t (memBlk c) 22 = false ∧ EventPlaced t 0x0705 (word c)
      ∧ OnlyRegs (fun a => a = memBlk c) [.dram] s t)) ∧
  (∀ (s : State) (c : Nat) (src : Writer), c < 16 → BlockOpen s (chanDie c) (3 + c % 2) →
    (src = .warden ∨ src = .host 0 → Does (.ceLogClear src c) s (fun t => rdF t (memBlk c + 0x18) 4 0 = 0 ∧ rdB t (memBlk c + 0x18) 31 = rdB s (memBlk c + 0x18) 31
      ∧ (∀ i : Nat, i < 64 → rd t (memBlk c + 0x100 + 4 * i) = 0) ∧ KeepsBut [.regs] s t
      ∧ RegsBut (fun a => a = memBlk c + 0x18 ∨ ∃ i : Nat, i < 64 ∧ a = memBlk c + 0x100 + 4 * i) s t)) ∧
    (src ≠ .warden → src ≠ .host 0 → exec (.ceLogClear src c) s = .next s))

/-- Service of DRAM lines (12 R368-R388). -/
def Obligations.DramServesItsQueueAndKeepsItsCode : Prop :=
  (∀ (s : State) (c : Nat) (r : HomeReq), c < 16 → chanState s c = 0x93 → wantsRefresh s c = false → s.rmc.homeReqs = [r] → r.home = c / 2 →
    rmcWaits s (c / 2) = false → reqChan s r = c → r.awaits = [] →
    let x := chanAt s c
    let es := entriesOf s (c / 2) r.pkt s.dram.nextAcc
    let held := (x.queue.filter (fun e => e.write = decide (r.pkt.op ≠ 1))).length
    (held + es.length ≤ 128 → Does (.dramRequest c none) s (fun t => chanAt t c = { x with queue := x.queue ++ es } ∧ t.rmc.homeReqs = []
      ∧ t.dram.accesses = s.dram.accesses ++ [{ id := s.dram.nextAcc, pkt := r.pkt, left := es.length }]
      ∧ t.dram.cells = s.dram.cells ∧ KeepsBut [.rmc, .dram] s t)) ∧
    (128 < held + es.length → exec (.dramRequest c none) s = .next s)) ∧
  (∀ (s : State) (c bank : Nat) (e a : DramEntry), c < 16 → chanState s c = 0x93 → (chanAt s c).parityLow = false → inPanic s c = false →
    sget 0 (chanAt s c).owed (bank / 16) < 8 → (chanAt s c).fill = none →
    ((chanAt s c).queue = [e] → (pick s c bank = some 0 ↔ bankKey s c e.line = bank)) ∧
    ((chanAt s c).queue = [a, e] → a.write = false → e.write = false → a.line ≠ e.line → bankKey s c a.line = bank → bankKey s c e.line = bank →
      sget none (chanAt s c).rows bank = some (rowOf s c e.line) → rowOf s c a.line ≠ rowOf s c e.line →
      pick s c bank = some (if 16 ≤ sget 0 (chanAt s c).hits bank then 0 else 1))) ∧
  (∀ (s : State) (c bank : Nat) (e : DramEntry) (a : Access), c < 16 → pick s c bank = some 0 → (chanAt s c).queue = [e] → linePlain s c e.line = true →
    s.dram.accesses = [a] → a.id = e.acc → a.left = 1 → a.poison = false → a.data = [] → isCacheMsg a.pkt = false → e.pos = 0 →
    injArmed s (chanDie c) 2 = false → whereUsed s (chanDie c) 2 = [] → injArmed s (a.pkt.dst / 256) 7 = false →
    let x8 := isX8 s c
    (e.write = true → a.pkt.op = 3 → e.off + e.len ≤ 64 →
      ((e.poison = true ∨ wholeCws e.off e.len = true) → Does (.dramRequest c (some bank)) s (fun t =>
        (∀ k : Nat, k < 4 → sget [] t.dram.cells (cellKey c e.line k) = (if e.poison then markerCw x8
            else if cwTouched e.off e.len k then encodeCw x8 ((e.data.drop (16 * k - e.off)).take 16) else sget [] s.dram.cells (cellKey c e.line k)))
        ∧ (∀ j : Nat, (∀ k : Nat, k < 4 → j ≠ cellKey c e.line k) → sget [] t.dram.cells j = sget [] s.dram.cells j)
        ∧ (chanAt t c).queue = [] ∧ sget none (chanAt t c).rows bank = some (rowOf s c e.line) ∧ t.dram.accesses = [] ∧ t.net = s.net
        ∧ KeepsBut [.dram] s t)) ∧
      (∀ (l : List Byte) (k0 : Nat), l.length = 64 → (∀ k : Nat, k < 4 → sget [] s.dram.cells (cellKey c e.line k) = encodeCw x8 ((l.drop (16 * k)).take 16)) →
        e.poison = false → (∀ k : Nat, k < 4 → cwTouched e.off e.len k = (k == k0)) → cwPartly e.off e.len k0 = true → k0 < 4 → e.data.length = e.len →
        Does (.dramRmw c bank) s (fun t => (∀ k : Nat, k < 4 → sget [] t.dram.cells (cellKey c e.line k) = encodeCw x8 (((overlay l e.off e.data).drop (16 * k)).take 16))
          ∧ (∀ j : Nat, (∀ k : Nat, k < 4 → j ≠ cellKey c e.line k) → sget [] t.dram.cells j = sget [] s.dram.cells j)
          ∧ rd t (memCnt c 4) = satInc (rd s (memCnt c 4)) ∧ t.dram.accesses = [] ∧ KeepsBut [.regs, .dram] s t ∧ RegsBut (fun a => a = memCnt c 4) s t)) ∧
      (∀ k0 : Nat, k0 < 4 → e.poison = false → (∀ k : Nat, k < 4 → sget [] s.dram.cells (cellKey c e.line k) = (if k = k0 then markerCw x8
          else encodeCw x8 (List.replicate 16 0))) → cwPartly e.off e.len k0 = true → Does (.dramRmw c bank) s (fun t =>
        t.dram.cells = s.dram.cells ∧ rd t (memCnt c 3) = satInc (rd s (memCnt c 3)) ∧ rdF t (memBlk c + 0x54) 4 3 = 2 ∧ rdB t (memBlk c + 0x54) 2 = true
        ∧ KeepsBut [.regs, .dram] s t))) ∧
    (e.write = false → a.pkt.op = 1 → e.len = a.pkt.len → e.off + e.len ≤ 64 → (chanAt s c).writeBacks = [] →
      (∀ l : List Byte, l.length = 64 →
        ((∀ k : Nat, k < 4 → sget [] s.dram.cells (cellKey c e.line k) = encodeCw x8 ((l.drop (16 * k)).take 16)) →
          Does (.dramReadDecode c bank) s (fun t => (t.net.getLast?.map (fun p => (p.op, p.dst, p.tag, p.status, p.data)))
              = some (4, a.pkt.src, a.pkt.tag, 0, (l.drop e.off).take e.len)
            ∧ t.net.length = s.net.length + 1 ∧ t.dram.cells = s.dram.cells ∧ (chanAt t c).queue = [] ∧ t.dram.accesses = [] ∧ KeepsBut [.dram, .net] s t)) ∧
        (∀ k0 j er : Nat, k0 < 4 → j < 18 → 0 < er → er < 256 → rdF s (memBlk c + 0x18) 4 0 = 0 →
          let good (k : Nat) : List Nat := encodeCw x8 ((l.drop (16 * k)).take 16)
          (∀ k : Nat, k < 4 → sget [] s.dram.cells (cellKey c e.line k) = (if k = k0 then (good k).set j ((good k).getD j 0 ^^^ er) else good k)) →
          Does (.dramReadDecode c bank) s (fun t => (t.net.getLast?.map (fun p => (p.op, p.dst, p.status, p.data)))
              = some (4, a.pkt.src, 0, (l.drop e.off).take e.len) ∧ t.dram.cells = s.dram.cells ∧ (chanAt t c).writeBacks = [(e.line, k0, good k0)]
            ∧ rd t (memCnt c 0) = satInc (rd s (memCnt c 0)) ∧ rdF t (memBlk c + 0x18) 4 0 = 1 ∧ rd t (logAddr c 0 0) = word e.line
            ∧ rd t (logAddr c 0 1) = logPlace s c e.line k0 j ∧ rd t (logAddr c 0 2) = word er ∧ KeepsBut [.regs, .dram, .ras, .net] s t))) ∧
      (∀ k0 : Nat, k0 < 4 → sget [] s.dram.cells (cellKey c e.line k0) ≠ [] → cwClass x8 (sget [] s.dram.cells (cellKey c e.line k0)) = .bad →
        (∀ k : Nat, k < 4 → k ≠ k0 → sget [] s.dram.cells (cellKey c e.line k) = encodeCw x8 (List.replicate 16 0)) → (chanAt s c).ueLast = none →
        EventFits s 0x0703 2 → Does (.dramReadDecode c bank) s (fun t => (t.net.getLast?.map (fun p => (p.op, p.dst, p.status)))
              = some (4, a.pkt.src, if cwTouched e.off e.len k0 then 0x0D else 0)
            ∧ sget [] t.dram.cells (cellKey c e.line k0) = markerCw x8 ∧ rd t (memCnt c 1) = satInc (rd s (memCnt c 1)) ∧ rd t (memBlk c + 0x50) = word e.line
            ∧ rd t (memBlk c + 0x54) = word k0 ∧ EventPlaced t 0x0703 (word c) ∧ KeepsBut [.regs, .ward, .dram, .ras, .net] s t)))) ∧
  (∀ (s : State) (c line k : Nat) (l : List Nat) (ws : List (Nat × Nat × List Nat)), c < 16 → k < 4 → chanState s c = 0x93 →
    (chanAt s c).writeBacks = (line, k, l) :: ws → injArmed s (chanDie c) 2 = false → whereUsed s (chanDie c) 2 = [] →
    Does (.correctedWriteBack c) s (fun t => (chanAt t c).writeBacks = ws
      ∧ t.dram.cells = (if writeQueued (chanAt s c) line k then s.dram.cells else sset [] s.dram.cells (cellKey c line k) l) ∧ KeepsBut [.dram] s t)) ∧
  (∀ (s : State) (c rank : Nat), c < 16 → chanState s c = 0x93 → rank < 2 ^ rdF s (memBlk c + 4) 21 20 →
    let owed := sget 0 (chanAt s c).owed rank
    ((inPanic s c = true ∨ ∃ e ∈ (chanAt s c).queue, rankOf s c e.line = rank) → owed < 8 → Does (.refreshDue c rank 1) s (fun t =>
      sget 0 (chanAt t c).owed rank = owed + 1 ∧ rd t (memCnt c 9) = satInc (rd s (memCnt c 9)) ∧ KeepsBut [.regs, .dram] s t
      ∧ RegsBut (fun a => a = memCnt c 9) s t)) ∧
    (inPanic s c = false → (∀ e ∈ (chanAt s c).queue, rankOf s c e.line ≠ rank) → -8 < owed → Does (.refreshDue c rank 2) s (fun t =>
      sget 0 (chanAt t c).owed rank = owed - 1 ∧ sget none (chanAt t c).rows (16 * rank) = none ∧ KeepsBut [.dram] s t)) ∧
    (0 ≤ owed → Does (.refreshDue c rank 0) s (fun t => sget 0 (chanAt t c).owed rank = (if owed = 8 then 0 else owed)
      ∧ (∀ b : Nat, sget none (chanAt t c).rows b = (if b / 16 = rank then none else sget none (chanAt s c).rows b)) ∧ KeepsBut [.dram] s t))) ∧
  (∀ (s : State) (c : Nat), c < 16 → chanState s c = 0x93 →
    (∀ p : Packet, (chanAt s c).rtWait = [p] → p.op = 3 → p.dst = chanStation c → p.len = 64 → p.addr % 64 = 0 → p.addr / 0x4000000000 = c / 2 →
      (chanAt s c).rt.length < 1024 → rdF s (memBlk c + 0xC) 26 16 = 256 → inPanic s c = false → Does (.rtPortWrite c true false) s (fun t =>
        (chanAt t c).rtWait = [] ∧ (chanAt t c).rt.length = (chanAt s c).rt.length + 1 ∧ rdF t (memBlk c + 0xC) 10 0 = (chanAt s c).rt.length + 1
        ∧ inPanic t c = decide (256 ≤ (chanAt s c).rt.length + 1) ∧ rd t (memCnt c 11) = satInc (rd s (memCnt c 11)) ∧ KeepsBut [.regs, .dram] s t
        ∧ RegsBut (fun a => a = memBlk c ∨ a = memBlk c + 0xC ∨ a = memCnt c 11) s t)) ∧
    (∀ (e : DramEntry) (a : Access), (chanAt s c).rt = [e] → linePlain s c e.line = true → e.off = 0 → e.len = 64 → e.poison = false → s.dram.accesses = [a] →
      a.id = e.acc → a.left = 1 → a.pkt.op = 3 → isCacheMsg a.pkt = false → injArmed s (chanDie c) 2 = false → whereUsed s (chanDie c) 2 = [] →
      16 ≤ rdF s (memBlk c + 0xC) 26 16 → Does (.rtPortWrite c false true) s (fun t => (chanAt t c).rt = []
        ∧ rdF t (memBlk c + 0xC) 10 0 = 0 ∧ inPanic t c = false ∧ t.dram.accesses = []
        ∧ (∀ k : Nat, k < 4 → sget [] t.dram.cells (cellKey c e.line k) = encodeCw (isX8 s c) ((e.data.drop (16 * k)).take 16))
        ∧ (∀ j : Nat, (∀ k : Nat, k < 4 → j ≠ cellKey c e.line k) → sget [] t.dram.cells j = sget [] s.dram.cells j) ∧ KeepsBut [.regs, .dram] s t))) ∧
  (∀ (s : State) (c : Nat) (parity : Bool), c < 16 → chanState s c = 0x93 → injArmed s (chanDie c) (if parity then 4 else 3) = false →
    let l := (chanAt s c).alerts.filter (fun t => decide (s.tu.tick < t + tickMs))
    let n := if parity then 6 else 5
    (rdB s (memBlk c + 4) (if parity then 30 else 31) = true →
      (l.length < 7 → Does (.alertNFall c parity) s (fun t => rd t (memCnt c n) = satInc (rd s (memCnt c n)) ∧ chanState t c = 0x93
        ∧ (chanAt t c).alerts = l ++ [s.tu.tick] ∧ ((chanAt t c).parityLow = true ↔ parity = true ∨ (chanAt s c).parityLow = true)
        ∧ t.dram.cells = s.dram.cells ∧ KeepsBut [.regs, .dram] s t ∧ RegsBut (fun a => a = memCnt c n) s t)) ∧
      (7 ≤ l.length → Does (.alertNFall c parity) s (fun t => rd t (memCnt c n) = satInc (rd s (memCnt c n)) ∧ chanState t c = 0x92
        ∧ (chanAt t c).inService = true ∧ rd t (memCnt c 7) = satInc (rd s (memCnt c 7)) ∧ t.dram.cells = s.dram.cells ∧ KeepsBut [.regs, .dram] s t))) ∧
    (rdB s (memBlk c + 4) (if parity then 30 else 31) = false → exec (.alertNFall c parity) s = .next s)) ∧
  (∀ (s : State) (c : Nat), c < 16 → (chanAt s c).parityLow = true → Does (.alertNRise c) s (fun t => (chanAt t c).parityLow = false ∧ (chanAt t c).rows = []
    ∧ (chanAt t c).queue = (chanAt s c).queue ∧ t.dram.cells = s.dram.cells ∧ KeepsBut [.dram] s t)) ∧
  (∀ (s : State) (c : Nat) (f : FillJob), c < 16 → chanState s c = 0x93 → wantsRefresh s c = false → inPanic s c = false → (chanAt s c).fill = some f →
    f.aborted = false → f.next ≤ f.last → linePlain s c f.next = true → injArmed s (chanDie c) 2 = false → whereUsed s (chanDie c) 2 = [] →
    Does (.fillLineWrite c) s (fun t => (chanAt t c).fill = some { f with next := f.next + 1, written := f.written + 1 }
      ∧ rd t (memBlk c + 0x10) = word (f.next + 1)
      ∧ (∀ k : Nat, k < 4 → sget [] t.dram.cells (cellKey c f.next k) = encodeCw (isX8 s c) (toBytes 8 f.pattern ++ toBytes 8 f.pattern))
      ∧ (∀ j : Nat, (∀ k : Nat, k < 4 → j ≠ cellKey c f.next k) → sget [] t.dram.cells j = sget [] s.dram.cells j) ∧ KeepsBut [.regs, .dram] s t
      ∧ RegsBut (fun a => a = memBlk c + 0x10) s t)) ∧
  (∀ (s : State) (c line : Nat) (b : List Byte), c < 16 → chanState s c = 0x93 → rdB s (memBlk c) 21 = true → wantsRefresh s c = false → inPanic s c = false →
    rd s (memBlk c + 0x14) = word line → line < 2 ^ 31 → b.length = 64 →
    (∀ k : Nat, k < 4 → sget [] s.dram.cells (cellKey c line k) = encodeCw (isX8 s c) ((b.drop (16 * k)).take 16)) →
    ((line + 1) * 64 < chanCap s c → Does (.scrubRead c) s (fun t => rd t (memBlk c + 0x14) = word (line + 1) ∧ t.dram = s.dram ∧ KeepsBut [.regs] s t
      ∧ RegsBut (fun a => a = memBlk c + 0x14) s t)) ∧
    (chanCap s c ≤ (line + 1) * 64 → EventFits s 0x0706 0 → Does (.scrubRead c) s (fun t => rd t (memBlk c + 0x14) = 0
      ∧ rd t (memCnt c 10) = satInc (rd s (memCnt c 10)) ∧ (chanAt t c).passCorr = 0 ∧ EventPlaced t 0x0706 (word c)
      ∧ OnlyRegs (fun a => a = memBlk c + 0x14 ∨ a = memCnt c 10) [.dram] s t)))

/-! ### Encryption (13) -/

/-- The encryption of a line (13 R399). AES-256 is opaque: this holds for every block cipher. -/
def Obligations.LinesAreEncryptedByCounterBlocks : Prop :=
  ∀ (key : List Word) (c a : Nat) (p : List Byte), c < 2 ^ 64 → a < 2 ^ 48 → p.length = 64 →
    (∀ j : Nat, j < 4 →
      let x := c * 2 ^ 64 + nfld a 47 6 * 2 ^ 22 + j * 2 ^ 20
      ((cipher key c a p).drop (16 * j)).take 16 = toBytes 16 (ofBytes ((p.drop (16 * j)).take 16) ^^^ (Config.aes256 key x).toNat)) ∧
    (cipher key c a p).length = 64 ∧ cipher key c a (cipher key c a p) = p

/-- Regions of the encryption unit (13 R393-R417). -/
def Obligations.RegionsAreBuiltServedAndRebuilt : Prop :=
  (∀ (key : List Word) (ctr addr : Nat) (b : List Byte), b.length = 64 → cipher key ctr addr (cipher key ctr addr b) = b) ∧
  (∀ (s : State) (b g : Nat) (args : List Word), g < 8 → wordAt args 0 = g → Serving s b 0x0781 args → Does (.memEncInfo b) s (fun t => OnlyAnswer s t
    ∧ Answered t b 0 0 (rd s (encBlk g) :: (upto 32).map (fun i => rd s (encBlk g + 0x100 + 4 * i)) ++ (upto 9).map (fun i => rd s (encCnt g i))))) ∧
  (∀ (s : State) (b g r base size mta : Nat) (drbg : Bool) (args : List Word), g < 8 → r < 8 → nfld (wordAt args 0) 2 0 = g → nfld (wordAt args 0) 6 4 = r →
    wordAt args 1 = base → wordAt args 2 = size → wordAt args 3 = mta → base < 2 ^ 18 → 0 < size → size ≤ 262144 → mta < 2 ^ 18 →
    Serving s b 0x0782 args → rgnState s g r = 0xA0 →
    let m := metaMib (linesOf size)
    let imp := (wordAt args 0).testBit 9
    let clear := rangeTaken s g base size = false ∧ rangeTaken s g mta m = false ∧ overlaps base size mta m = false
    let ready := rangeReady s g base size = true ∧ rangeReady s g mta m = true
    (¬ clear → Does (.memRegionSetup b drbg) s (fun t => Answered t b 4 0x0781 [] ∧ KeepsBut [.regs, .ward] s t ∧ RegsBut (fun a => a = keyBase) s t)) ∧
    (clear → ¬ ready → Does (.memRegionSetup b drbg) s (fun t => Answered t b 0xC 0x0782 [] ∧ KeepsBut [.regs, .ward] s t ∧ RegsBut (fun a => a = keyBase) s t)) ∧
    (clear → ready → imp = false → drbg = false → Does (.memRegionSetup b drbg) s (fun t => Answered t b 0xC 0x0787 [] ∧ KeepsBut [.regs, .ward] s t
      ∧ RegsBut (fun a => a = keyBase) s t)) ∧
    (clear → ready → imp = true → Does (.memRegionSetup b drbg) s (fun t => match Config.kwUnwrap (setVal s 1) g r ((args.drop 4).take 18) with
      | none => Answered t b 4 0x0783 [] ∧ KeepsBut [.regs, .ward] s t ∧ RegsBut (fun a => a = keyBase) s t
      | some k => Answered t b 0 0 [word m, word (treeDepth (linesOf size))] ∧ rgnState t g r = 0xA1 ∧ rdB t (rgnReg g r 3) 8 = true
        ∧ (rgnAt t g r).dataKey = k.take 8 ∧ (rgnAt t g r).tagKey = k.drop 8 ∧ KeepsBut [.regs, .ward, .dram] s t)) ∧
    (clear → ready → imp = false → drbg = true → Does (.memRegionSetup b drbg) s (fun t => Answered t b 0 0 [word m, word (treeDepth (linesOf size))]
      ∧ rgnState t g r = 0xA1 ∧ rgnBase t g r = base ∧ rgnSize t g r = size ∧ rgnMeta t g r = mta ∧ rgnDepth t g r = treeDepth (linesOf size)
      ∧ rdB t (rgnReg g r 3) 16 = (wordAt args 0).testBit 8 ∧ rdB t (encBlk g) r = true ∧ (rgnAt t g r).clock = 0
      ∧ rdB t keyBase 5 = true ∧ KeepsBut [.regs, .ward, .dram, .fresh] s t
      ∧ RegsBut (fun a => a = keyBase ∨ a = encBlk g ∨ ∃ i : Nat, i < 4 ∧ a = rgnReg g r i) s t))) ∧
  (∀ (s : State) (g r : Nat), g < 8 → r < 8 → rgnState s g r = 0xA1 → rdB s (encBlk g) r = true → EventFits s 0x0781 0 →
    Does (.treeBuildDone g r) s (fun t => rgnState t g r = 0xA2 ∧ rdB t (encBlk g) r = false ∧ EventPlaced t 0x0781 (word (g + r * 16))
      ∧ (rgnAt t g r).clock = nodesBelow (linesOf (rgnSize s g r)) (rgnDepth s g r) ∧ OnlyRegs (fun a => a = encBlk g ∨ a = rgnReg g r 3) [.dram] s t)) ∧
  (∀ (s : State) (b g r : Nat) (args : List Word), g < 8 → r < 8 → nfld (wordAt args 0) 2 0 = g → nfld (wordAt args 0) 6 4 = r →
    (Serving s b 0x0783 args → rgnState s g r ∈ [0xA1, 0xA2, 0xA3] → Does (.memRegionClear b) s (fun t => Answered t b 0 0 [] ∧ rgnState t g r = 0xA0
      ∧ rgnSize t g r = 0 ∧ rgnAt t g r = {} ∧ (∀ k : Nat, k / 2 ^ 40 = g * 8 + r → sget none t.dram.cache k = none) ∧ t.dram.cells = s.dram.cells
      ∧ KeepsBut [.regs, .ward, .dram] s t)) ∧
    (Serving s b 0x0784 args → ∀ k j : Nat, nfld (wordAt args 1) 3 0 = k → wordAt args 2 = j → 1 ≤ k → k ≤ rgnDepth s g r →
      j < levelNodes (linesOf (rgnSize s g r)) k →
      let listed := (upto 64).any (fun i => rd s (brokenReg g i 0) = word (2 ^ 31 + k * 2 ^ 4 + r) && rd s (brokenReg g i 1) = word j)
      ((rgnState s g r = 0xA3 ∧ k = rgnDepth s g r) ∨ (rgnState s g r = 0xA2 ∧ listed = true) → Does (.memRekeySubtree b) s (fun t => Answered t b 0 0 []
        ∧ (rgnAt t g r).jobs = (rgnAt s g r).jobs ++ [(k, j)] ∧ rdB t (encBlk g) r = true ∧ KeepsBut [.regs, .ward, .dram] s t
        ∧ RegsBut (fun a => a = encBlk g) s t)) ∧
      (rgnState s g r = 0xA2 → listed = false → Does (.memRekeySubtree b) s (fun t => Answered t b 4 0x0784 [] ∧ OnlyAnswer s t)))) ∧
  (∀ (s : State) (g r : Nat), g < 8 → r < 8 → rgnState s g r = 0xA3 → (rgnAt s g r).jobs = [(rgnDepth s g r, 0)] → EventFits s 0x0784 0 → s.dram.cells = [] →
    (∀ n : Nat, n < 64 → fld (rd s (brokenReg g n 0)) 7 4 ≤ rgnDepth s g r) → Does (.subtreeRebuildDone g r) s (fun t => rgnState t g r = 0xA2 ∧ (rgnAt t g r).jobs = [] ∧ rdB t (encBlk g) r = false
      ∧ (rgnAt t g r).clock = (rgnAt s g r).clock + buildNodes s g r (rgnDepth s g r) 0 ∧ EventPlaced t 0x0784 (word (g + r * 16))
      ∧ (∀ n : Nat, n < 64 → bit (rd t (brokenReg g n 0)) 31 = true → fld (rd t (brokenReg g n 0)) 2 0 = r →
          1 ≤ (rd t (brokenReg g n 1)).toNat / 7 ^ (rgnDepth s g r - fld (rd t (brokenReg g n 0)) 7 4))
      ∧ KeepsBut [.regs, .ward, .dram] s t)) ∧
  (∀ (s : State) (b e : Nat) (args : List Word), e < 16 → wordAt args 0 = e → Serving s b 0x0785 args →
    (sget [] s.ward.keyHashes e = [] → setVal s 1 ≤ e → s.ward.audit.length < 1024 → Does (.memKeyProvision b true) s (fun t => Answered t b 0 0 []
      ∧ sget [] t.ward.keyHashes e = (args.drop 1).take 12
      ∧ (t.ward.audit.getLast?.map (fun a => (a.kind, a.setting, a.booth, a.result, a.old, a.new))) = some (4, 0xFF, b, 0, e, wordAt ((args.drop 1).take 12) 0)
      ∧ KeepsBut [.ward] s t)) ∧
    (sget [] s.ward.keyHashes e ≠ [] → Does (.memKeyProvision b true) s (fun t => Answered t b 4 0x0785 [] ∧ OnlyAnswer s t)) ∧
    (sget [] s.ward.keyHashes e = [] → e < setVal s 1 → Does (.memKeyProvision b true) s (fun t => Answered t b 4 0x0786 [] ∧ OnlyAnswer s t))) ∧
  (∀ (s : State) (c bank r : Nat) (e : DramEntry) (a : Access) (x y : CounterLine) (ct : List Byte), c < 16 → pick s c bank = some 0 → (chanAt s c).queue = [e] →
    lineRegion s c e.line = some r → r < 8 → rgnState s (c / 2) r = 0xA2 → encGated s (c / 2) = false → 1 < rgnDepth s (c / 2) r →
    s.dram.accesses = [a] → a.id = e.acc → a.left = 1 → a.poison = false → a.data = [] → isCacheMsg a.pkt = false → e.pos = 0 → e.poison = false →
    (∀ n : Nat, n ∈ [2, 5, 6] → injArmed s (chanDie c) n = false ∧ whereUsed s (chanDie c) n = []) → injArmed s (a.pkt.dst / 256) 7 = false →
    let g := c / 2
    let i := regionLine s g r c e.line
    let ctr := wordOf x.bytes (i % 7)
    let addr := lineAddr s c e.line
    let k := rgnAt s g r
    beneathBroken s g r 0 i = false → cached s g r 1 (i / 7) = some x → cached s g r 0 (i / 8) = some y → x.flips = [] → y.flips = [] →
    x.bytes.length = 64 → y.bytes.length = 64 → k.flips = [] → k.clock < 2 ^ 64 - 1 → ct.length = 64 →
    (∀ j : Nat, j < 4 → sget [] s.dram.cells (cellKey c e.line j) = encodeCw (isX8 s c) ((ct.drop (16 * j)).take 16)) →
    (e.write = false → a.pkt.op = 1 → e.len = a.pkt.len → e.off + e.len ≤ 64 →
      (ctr ≠ 0 → EventFits s 0x0782 2 → sget none s.dram.tagLast g = none → Does (.encLineRead c bank) s (fun t =>
        if wordOf y.bytes (i % 8) = lineTag k.tagKey ctr addr ct then
          (t.net.getLast?.map (fun p => (p.op, p.dst, p.tag, p.status, p.data)))
              = some (4, a.pkt.src, a.pkt.tag, 0, ((cipher k.dataKey ctr addr ct).drop e.off).take e.len)
            ∧ t.dram.cells = s.dram.cells ∧ rd t (encCnt g 6) = satInc (satInc (rd s (encCnt g 6))) ∧ KeepsBut [.regs, .dram, .net] s t
            ∧ RegsBut (fun a => a = encCnt g 6) s t
        else
          (t.net.getLast?.map (fun p => (p.op, p.dst, p.status))) = some (4, a.pkt.src, 0x0D)
            ∧ (∀ j : Nat, j < 4 → sget [] t.dram.cells (cellKey c e.line j) = markerCw (isX8 s c)) ∧ rd t (encCnt g 0) = satInc (rd s (encCnt g 0))
            ∧ EventPlaced t 0x0782 (word (g + r * 16)) ∧ KeepsBut [.regs, .ward, .dram, .ras, .net] s t)) ∧
      (ctr = 0 → Does (.encLineRead c bank) s (fun t => (t.net.getLast?.map (fun p => (p.op, p.dst, p.status, p.data))) = some (if rdB s (rgnReg g r 3) 16
            then (4, a.pkt.src, 0, List.replicate e.len 0) else (4, a.pkt.src, 0x0D, [])) ∧ t.dram.cells = s.dram.cells
        ∧ rd t (encCnt g 3) = satInc (rd s (encCnt g 3)) ∧ KeepsBut [.regs, .dram, .net] s t))) ∧
    (e.write = true → a.pkt.op = 3 →
      let wrote (t : State) (p : List Byte) : Prop := (∀ j : Nat, j < 4 → sget [] t.dram.cells (cellKey c e.line j)
            = encodeCw (isX8 s c) (((cipher k.dataKey (k.clock + 1) addr p).drop (16 * j)).take 16))
        ∧ (∀ q : Nat, (∀ j : Nat, j < 4 → q ≠ cellKey c e.line j) → sget [] t.dram.cells q = sget [] s.dram.cells q)
        ∧ (cached t g r 1 (i / 7)).map (fun z => (wordOf z.bytes (i % 7), z.dirty)) = some (k.clock + 1, true)
        ∧ (cached t g r 0 (i / 8)).map (fun z => (wordOf z.bytes (i % 8), z.dirty))
            = some (lineTag k.tagKey (k.clock + 1) addr (cipher k.dataKey (k.clock + 1) addr p), true)
        ∧ (rgnAt t g r).clock = k.clock + 1 ∧ t.dram.accesses = [] ∧ t.net = s.net ∧ KeepsBut [.regs, .dram] s t
      (e.off = 0 → e.len = 64 → e.data.length = 64 → Does (.encFullWrite c bank) s (fun t => wrote t e.data)) ∧
      (0 < e.len → e.len < 64 → e.off + e.len ≤ 64 → e.data.length = e.len →
        (ctr = 0 → Does (.encPartialWrite c bank) s (fun t => wrote t (overlay (List.replicate 64 0) e.off e.data))) ∧
        (ctr ≠ 0 → Does (.encPartialWrite c bank) s (fun t =>
          if wordOf y.bytes (i % 8) = lineTag k.tagKey ctr addr ct then wrote t (overlay (cipher k.dataKey ctr addr ct) e.off e.data)
          else (∀ j : Nat, j < 4 → sget [] t.dram.cells (cellKey c e.line j) = markerCw (isX8 s c)) ∧ (rgnAt t g r).clock = k.clock
          ∧ rd t (encCnt g 2) = satInc (rd s (encCnt g 2)) ∧ t.net = s.net ∧ KeepsBut [.regs, .ward, .dram, .ras] s t))))) ∧
  (∀ (s : State) (c bank : Nat) (e : DramEntry) (a : Access), c < 16 → pick s c bank = some 0 → (chanAt s c).queue = [e] →
    (lineMeta s c e.line).isSome = true → lineRegion s c e.line = none → encGated s (c / 2) = false → s.dram.accesses = [a] → a.id = e.acc → a.left = 1 →
    a.poison = false → a.data = [] → isCacheMsg a.pkt = false → e.pos = 0 → e.len = a.pkt.len → injArmed s (a.pkt.dst / 256) 7 = false →
    (e.write = (a.pkt.op != 1)) → (a.pkt.op = 1 ∨ a.pkt.op = 2) → Does (.metaAccess c bank) s (fun t =>
      (t.net.getLast?.map (fun p => (p.dst, p.status, p.data))) = some (a.pkt.src, 0, if e.write then [] else List.replicate e.len 0)
      ∧ rd t (encCnt (c / 2) 4) = satInc (rd s (encCnt (c / 2) 4)) ∧ t.dram.cells = s.dram.cells ∧ KeepsBut [.regs, .dram, .net] s t
      ∧ RegsBut (fun a => a = encCnt (c / 2) 4) s t)) ∧
  (∀ (s : State) (g set : Nat), g < 8 →
    ((setKeys s g set).length < 16 → exec (.counterCacheEvict g set) s = .next s) ∧
    ((setKeys s g set).length = 16 → (∀ q ∈ setKeys s g set, keyLevel q = 0 ∧ ∃ z : CounterLine, sget none s.dram.cache q = some z ∧ z.dirty = false) →
      Does (.counterCacheEvict g set) s (fun t => (∃ q ∈ setKeys s g set, sget none t.dram.cache q = none
          ∧ (∀ p : Nat, p ≠ q → sget none t.dram.cache p = sget none s.dram.cache p)
          ∧ (∀ p ∈ setKeys s g set, ((sget none s.dram.cache q).map (·.used)).getD 0 ≤ ((sget none s.dram.cache p).map (·.used)).getD 0))
        ∧ t.dram.cells = s.dram.cells ∧ KeepsBut [.dram] s t)))

/-! ### Lanes and port engines (14) -/

/-- LANE commands (14 R419-R457). -/
def Obligations.LaneCommandsChangeWhatTheyName : Prop :=
  (∀ (s : State) (b l : Nat) (args : List Word), l < 4 → wordAt args 0 = l →
    (Serving s b 0x0C01 args → Does (.laneInfo b) s (fun t => OnlyAnswer s t ∧ Answered t b 0 0 ([word (fLrl s l + b2n (rdB s (clkBlk (1 + l)) 4) * 2)]
      ++ (upto 32).map (packBytes (fun i => lanState s (128 * l + i))) ++ (upto 32).map (packBytes (fun i => portState s (16 * l + i / 8) (i % 8)))))) ∧
    (∀ f : Nat, Serving s b 0x0C02 args → dieState s (1 + l) = 0x30 ∨ dieState s (1 + l) = 0x34 → wordAt args 1 = f → f < 2 →
      (lanesOff s l = true → Does (.laneLrlSet b) s (fun t => Answered t b 0 0 [] ∧ fLrl t l = f ∧ KeepsBut [.ward, .lan] s t)) ∧
      (lanesOff s l = false → Does (.laneLrlSet b) s (fun t => Answered t b 4 0x0C01 [] ∧ OnlyAnswer s t))) ∧
    (∀ c : Nat, Serving s b 0x0C0E args → dieState s (1 + l) = 0x30 ∨ dieState s (1 + l) = 0x34 → wordAt args 1 = c → c < 65536 →
      (lanesOff s l = true → Does (.laneTrimTry b) s (fun t => Answered t b 0 0 [] ∧ sget 0 t.lan.trim l = c ∧ KeepsBut [.ward, .lan] s t)) ∧
      (lanesOff s l = false → Does (.laneTrimTry b) s (fun t => Answered t b 4 0x0C01 [] ∧ OnlyAnswer s t)))) ∧
  (∀ (s : State) (b n k : Nat) (args : List Word), n < 512 → 1 ≤ k → n % 128 + k ≤ 128 → wordAt args 0 = n + k * 2 ^ 16 →
    (∀ tx rx : Nat, Serving s b 0x0C03 args → (∀ i : Nat, i < k → lanState s (n + i) ∈ [0xB0, 0xB1, 0xB2]) → wordAt args 1 = tx → wordAt args 2 = rx →
      nfld tx 9 9 = 0 → tx < 8192 → nfld rx 7 5 = 0 → rx < 8192 →
      (nfld tx 3 0 + nfld tx 8 4 ≤ 39 → Does (.laneConfig b) s (fun t => Answered t b 0 0 []
        ∧ (∀ i : Nat, i < k → rd t (lanBlk (n + i) + 8) = word rx ∧ rd t (lanBlk (n + i) + 4)
            = word (nfld tx 3 0 + nfld tx 8 4 * 2 ^ 5 + nfld tx 11 10 * 2 ^ 10 + nfld tx 12 12 * 2 ^ 12))
        ∧ KeepsBut [.regs, .ward, .lan] s t ∧ RegsBut (fun a => ∃ i : Nat, i < k ∧ (a = lanBlk (n + i) + 4 ∨ a = lanBlk (n + i) + 8)) s t)) ∧
      (39 < nfld tx 3 0 + nfld tx 8 4 → Does (.laneConfig b) s (fun t => Answered t b 4 0x0C09 [] ∧ OnlyAnswer s t))) ∧
    (∀ eyes : List (List Nat), Serving s b 0x0C04 args → (∀ i : Nat, i < k → lanState s (n + i) ∈ [0xB1, 0xB2]) →
      ((∀ i : Nat, i < k → ∀ x : Nat × Nat, portOfLane s (n + i) = some x → portState s x.1 x.2 ≠ 0xBA) → Does (.laneTune b eyes) s (fun t => Answered t b 0 0 (((t.ward.taken.find? (fun k => k.booth = b)).map (fun k => k.resp)).getD [])
        ∧ (∀ i : Nat, i < k → ∀ j : Nat, j < 32 → (eyes.getD i []).getD j 0 ≤ (eyes.getD i []).getD (rdF t (lanBlk (n + i) + 8) 4 0) 0)
        ∧ KeepsBut [.regs, .ward, .lan] s t ∧ RegsBut (fun a => ∃ i : Nat, i < k ∧ a = lanBlk (n + i) + 8) s t)) ∧
      ((∃ x : Nat × Nat, portOfLane s n = some x ∧ portState s x.1 x.2 = 0xBA) → Does (.laneTune b eyes) s (fun t => Answered t b 4 0x0C05 [] ∧ OnlyAnswer s t))) ∧
    (∀ mode loop gen chk : Nat, Serving s b 0x0C05 args → (∀ i : Nat, i < k → lanState s (n + i) ∈ [0xB0, 0xB2]) → wordAt args 1 = mode + loop * 2 ^ 8 →
      wordAt args 2 = gen + chk * 2 ^ 4 → mode ≤ 5 → loop < 4 → gen ≤ 7 → chk ≤ 7 →
      (1 ≤ mode → modeHasM (fLrl s (n / 128)) mode = true → (4 ≤ mode ∨ gen ≤ 5 ∧ chk ≤ 5) → Does (.laneTest b) s (fun t => Answered t b 0 0 []
        ∧ (∀ i : Nat, i < k → lanState t (n + i) = 0xB2 ∧ lanMode t (n + i) = mode ∧ rdB t (lanBlk (n + i) + 0xC) 1 = true
            ∧ rd t (lanBlk (n + i)) = word (loop * 2 ^ 2 + gen * 2 ^ 4 + chk * 2 ^ 8))
        ∧ KeepsBut [.regs, .ward, .lan] s t ∧ RegsBut (fun a => ∃ i : Nat, i < k ∧ (a = lanBlk (n + i) ∨ a = lanBlk (n + i) + 0xC)) s t)) ∧
      (mode = 0 → Does (.laneTest b) s (fun t => Answered t b 0 0 [] ∧ ∀ i : Nat, i < k → lanState t (n + i) = 0xB0)) ∧
      (modeHasM (fLrl s (n / 128)) mode = false ∨ (mode ∈ [1, 2, 3] ∧ 6 ≤ gen) → Does (.laneTest b) s (fun t => Answered t b 4 0x0C02 [] ∧ OnlyAnswer s t)))) ∧
  (∀ (s : State) (b n clear : Nat) (args : List Word), n < 512 → clear < 2 → wordAt args 0 = n → wordAt args 1 = clear → Serving s b 0x0C06 args →
    lanState s n = 0xB2 → rdB s (lanBlk n + 0xC) 2 = true → injArmed s (1 + n / 128) 2 = false → ∀ errors : Nat, 1 ≤ errors →
    Does (.lanePrbsRead b errors) s (fun t => Answered t b 0 0 [1, satAdd (rd s (lanBlk n + 0x18)) errors, word (min (2 ^ 32 - 1) (2 * (s.tu.tick - sget 0 s.lan.prbsAt n)))]
      ∧ rd t (lanBlk n + 0x18) = (if clear = 1 then 0 else satAdd (rd s (lanBlk n + 0x18)) errors) ∧ KeepsBut [.regs, .ward] s t
      ∧ RegsBut (fun a => a = lanBlk n + 0x18) s t)) ∧
  (∀ (s : State) (b p k cfg d0 d1 : Nat) (args : List Word), p < 64 → k < 8 → wordAt args 0 = p + k * 2 ^ 8 → wordAt args 1 = cfg → wordAt args 2 = d0 → wordAt args 3 = d1 →
    Serving s b 0x0C07 args →
    (portRefusal s p k cfg = none → nfld d0 28 24 = 0 → nfld d0 15 12 = 0 → Does (.lanePortConfig b) s (fun t =>
      let st := if nfld cfg 31 28 = 0 then 0xB8 else if nfld cfg 31 28 = 9 then 0xBB else 0xB9
      Answered t b 0 0 [word st] ∧ portState t p k = st ∧ portSpeed t p k = nfld cfg 31 28 ∧ rd t (penDef p k) = word d0 ∧ rd t (penDef p k + 4) = word d1
      ∧ (∀ n ∈ cfgLanes p k cfg, lanState t n = 0xB1 ∧ lanMode t n = speedMode cfg)
      ∧ (∀ n ∈ cfgLanes p k (rd s (penCfg p k)).toNat, n ∉ cfgLanes p k cfg → lanState t n = 0xB0) ∧ KeepsBut [.regs, .ward, .lan, .tal] s t)) ∧
    (∀ x : Nat × Nat, portRefusal s p k cfg = some x → Does (.lanePortConfig b) s (fun t => Answered t b x.1 x.2 [] ∧ OnlyAnswer s t)) ∧
    (let sp := nfld cfg 31 28
     1 ≤ sp → sp ≤ 8 → speedFec sp (nfld cfg 27 26) = true → nfld cfg 18 16 = 0 → 1518 ≤ nfld cfg 13 0 → nfld cfg 13 0 ≤ 9216 →
      (k % speedLanes sp ≠ 0 → portRefusal s p k cfg = some (4, 0x0C03)) ∧
      (k % speedLanes sp = 0 → k + speedLanes sp ≤ 8 → (∀ n ∈ cfgLanes p k cfg, ∀ x : Nat × Nat, portOfLane s n = some x → x.2 = k) →
        (modeHasM (fLrl s (p / 16)) (speedMode cfg) = false → portRefusal s p k cfg = some (4, 0x0C02)) ∧
        (modeHasM (fLrl s (p / 16)) (speedMode cfg) = true → portRefusal s p k cfg
          = if sp ≠ portSpeed s p k ∧ stationInContract s (engineStation p) = true then some (4, 0x0C04) else none)))) ∧
  (∀ (s : State) (b p : Nat) (args : List Word), p < 64 → wordAt args 0 = p →
    (Serving s b 0x0C08 args → dieState s (engineDie p) ∈ [0x30, 0x31, 0x34] → nfld (wordAt args 1) 31 30 = 0 → nfld (wordAt args 1) 29 20 ≤ 1024 →
      nfld (wordAt args 2) 3 0 = 0 → nfld (wordAt args 3) 30 21 = 0 → nfld (wordAt args 3) 20 16 ≤ 16 → Does (.laneEngineConfig b) s (fun t =>
      Answered t b 0 0 [] ∧ rd t (penBlk p + 0x60) = word (wordAt args 1) ∧ rd t (penBlk p + 0x70) = word (wordAt args 2)
      ∧ rd t (penBlk p + 0x74) = word (wordAt args 3) ∧ KeepsBut [.regs, .ward, .lan] s t
      ∧ RegsBut (fun a => a ∈ [penBlk p + 0x60, penBlk p + 0x70, penBlk p + 0x74, penBlk p + 0x78]) s t)) ∧
    (Serving s b 0x0C0F args → Does (.laneStats b) s (fun t => OnlyAnswer s t ∧ Answered t b 0 0
      ((upto 8).map (fun i => rd s (stageCnt p i)) ++ (upto 80).map (fun i => rd s (portCnt p (i / 10) (i % 10)))))) ∧
    (Serving s b 0x0C0D args → dieState s (engineDie p) ∈ [0x30, 0x31] → nfld (wordAt args 1) 7 3 = 0 → nfld (wordAt args 1) 31 16 = 0 → wordAt args 3 < 256 →
      1000 ≤ wordAt args 4 → wordAt args 4 ≤ 4000000000 → 1 ≤ wordAt args 5 → wordAt args 5 ≤ 256 →
      (∀ i : Nat, i < wordAt args 5 → nfld (wordAt args (6 + i)) 23 0 ≠ 0) →
      let tb := nfld (wordAt args 1) 2 0
      let base := wordAt args 2 + wordAt args 3 * 2 ^ 32
      let ahead := (base + 2 ^ 40 - (tbAt s tb).core.now40) % 2 ^ 40
      ((tbAt s tb).core.run = true → 10000 ≤ ahead → ahead ≤ 1000000000 → Does (.laneGateLoad b) s (fun t => Answered t b 0 0 []
        ∧ (∃ g : GateList, sget none t.lan.shadow p = some g ∧ g.tb = tb ∧ g.base = base ∧ g.cycle = wordAt args 4 ∧ g.dflt = nfld (wordAt args 1) 15 8
          ∧ g.entries = (upto (wordAt args 5)).map (fun i => word (wordAt args (6 + i)))) ∧ t.lan.active = s.lan.active
        ∧ rdB t (penBlk p + 0x68) 16 = true ∧ KeepsBut [.regs, .ward, .lan] s t)) ∧
      ((tbAt s tb).core.run = true → ahead < 10000 ∨ 1000000000 < ahead → Does (.laneGateLoad b) s (fun t => Answered t b 2 0x0C08 [] ∧ OnlyAnswer s t)) ∧
      ((tbAt s tb).core.run = false → Does (.laneGateLoad b) s (fun t => Answered t b 0xC 0x0C0A [] ∧ OnlyAnswer s t)))) ∧
  (∀ (s : State) (b l : Nat) (args : List Word), l < 4 → wordAt args 0 = l → dieState s (1 + l) ∈ [0x30, 0x31, 0x34] →
    let e := (upto 8).map (fun i => word (wordAt args (1 + i)))
    let key := (upto 4).map (fun i => word (wordAt args (1 + i)))
    (Serving s b 0x0C09 args → 1 ≤ nfld (wordAt args 1) 3 0 → nfld (wordAt args 1) 3 0 ≤ 6 → nfld (wordAt args 1) 11 11 = 0 → nfld (wordAt args 1) 31 24 = 0 →
      nfld (wordAt args 5) 31 15 = 0 → nfld (wordAt args 6) 15 12 = 0 → nfld (wordAt args 6) 31 24 = 0 → wordAt args 8 = 0 →
      (∀ i : Nat, (clsFind s.lan.cls l e = some i ∨ (clsFind s.lan.cls l e = none ∧ clsFree s.lan.cls l e = some i)) → Does (.laneClsWrite b) s (fun t =>
        Answered t b 0 0 [word (i % 65536)] ∧ clsFind t.lan.cls l e = some i ∧ sget [] t.lan.cls i = e
        ∧ (∀ j : Nat, j ≠ i → sget [] t.lan.cls j = sget [] s.lan.cls j) ∧ KeepsBut [.ward, .lan] s t)) ∧
      (clsFind s.lan.cls l e = none → clsFree s.lan.cls l e = none → Does (.laneClsWrite b) s (fun t => Answered t b 0xB 0x0C06 [] ∧ OnlyAnswer s t))) ∧
    (Serving s b 0x0C0A args →
      (∀ i : Nat, clsFind s.lan.cls l key = some i → Does (.laneClsDelete b) s (fun t => Answered t b 0 0 [] ∧ sget [] t.lan.cls i = []
        ∧ (∀ j : Nat, j ≠ i → sget [] t.lan.cls j = sget [] s.lan.cls j) ∧ KeepsBut [.ward, .lan] s t)) ∧
      (clsFind s.lan.cls l key = none → Does (.laneClsDelete b) s (fun t => Answered t b 4 0x0C07 [] ∧ OnlyAnswer s t))) ∧
    (Serving s b 0x0C0B args → ∀ i : Nat, clsFind s.lan.cls l key = some i → Does (.laneClsRead b) s (fun t => Answered t b 0 0 (sget [] s.lan.cls i) ∧ OnlyAnswer s t)) ∧
    (Serving s b 0x0C0C args → ∀ i : Nat, wordAt args 1 = i → i < 4095 → Does (.lanePolicerSet b) s (fun t => Answered t b 0 0 []
      ∧ (sget none t.lan.pol (l * 4096 + i)).map (fun q => (q.cir, q.cbs, q.eir, q.ebs, q.tc, q.tp)) = some (wordAt args 2, wordAt args 3, wordAt args 4, wordAt args 5,
          4000 * wordAt args 3, 4000 * wordAt args 5) ∧ t.lan.cls = s.lan.cls ∧ KeepsBut [.ward, .lan] s t))) ∧
  (∀ (s : State) (l : Nat), l < 4 →
    (dieState s (1 + l) = 0x34 → srising s.lan.clsKept = true → s.lan.gateKept = [] → s.lan.kept = [] → Does (.laneSettingsReapply l) s (fun t => dieState t (1 + l) = 0x30
      ∧ (∀ i : Nat, i / 65536 = l → sget [] t.lan.cls i = sget [] s.lan.clsKept i)
      ∧ (∀ v : Nat, sget none s.lan.trial l = some v → sget 0 t.lan.trim l = v) ∧ KeepsBut [.regs, .ward, .lan] s t)) ∧
    (s.pkg.held = false → dieAlive s (1 + l) = true →
      (EventFits s 0x0C03 3 → ringCount s < 200 → (∀ p : Nat, p < 64 → ∀ k : Nat, k < 8 → portState s p k ≠ 0xBA) → Does (.lrlLockLost l) s (fun t =>
        rdB t (clkBlk (1 + l)) 4 = false ∧ EventPlaced t 0x0C03 (word l) ∧ (∀ n : Nat, n / 128 = l → lanePowered s n = true → rdB t (lanBlk n + 0xC) 1 = true)
        ∧ (∀ p k : Nat, p / 16 = l → k < 8 → portState s p k ≠ 0xB8 → portState t p k = 0xB9) ∧ KeepsBut [.regs, .ward] s t)) ∧
      Does (.lrlRelock l) s (fun t => rdB t (clkBlk (1 + l)) 4 = true
        ∧ (∀ p k : Nat, p / 16 = l → k < 8 → portState t p k = (if portSpeed s p k = 9 then 0xBB else portState s p k)) ∧ KeepsBut [.regs] s t)))

/-- Signals, frames and gate lists (14 R421-R451). -/
def Obligations.FramesPassTheirStagesAndSignalsShow : Prop :=
  (∀ (s : State) (n : Nat), n < 512 → lanePowered s n = true →
    (rdB s (lanBlk n + 0xC) 0 = false → rdB s (lanBlk n + 0xC) 1 = false →
      Does (.losAssert n) s (fun t => rdB t (lanBlk n + 0xC) 0 = true ∧ rdB t (lanBlk n + 0xC) 1 = true ∧ rd t (lanBlk n + 0x10) = satInc (rd s (lanBlk n + 0x10))
        ∧ rd t (lanBlk n + 0x14) = satInc (rd s (lanBlk n + 0x14)) ∧ (∀ x : Nat × Nat, portOfLane s n = some x → portState t x.1 x.2 ≠ 0xBA)
        ∧ KeepsBut [.regs, .ward, .lan] s t) ∧
      Does (.lolAssert n) s (fun t => rdB t (lanBlk n + 0xC) 0 = false ∧ rdB t (lanBlk n + 0xC) 1 = true ∧ rd t (lanBlk n + 0x14) = satInc (rd s (lanBlk n + 0x14))
        ∧ (∀ x : Nat × Nat, portOfLane s n = some x → portState t x.1 x.2 ≠ 0xBA) ∧ KeepsBut [.regs, .ward, .lan] s t)) ∧
    (rdB s (lanBlk n + 0xC) 0 = true → EventFits s 0x0C01 1 → sget none s.lan.sigLast n = none → Does (.losClear n) s (fun t => rdB t (lanBlk n + 0xC) 0 = false
      ∧ EventPlaced t 0x0C01 (word n) ∧ OnlyRegs (fun a => a = lanBlk n + 0xC) [.lan] s t)) ∧
    (∀ u : Nat, rdB s (lanBlk n + 0xC) 0 = true → sget none s.lan.sigLast n = some u → s.tu.tick < u + 500000 → Does (.losClear n) s (fun t =>
      rdB t (lanBlk n + 0xC) 0 = false ∧ sget 0 t.lan.sigSince n = sget 0 s.lan.sigSince n + 1 ∧ t.ward = s.ward ∧ KeepsBut [.regs, .lan] s t)) ∧
    (rdB s (lanBlk n + 0xC) 1 = true →
      (rdB s (lanBlk n + 0xC) 0 = true → exec (.lolClear n) s = .next s) ∧
      (rdB s (lanBlk n + 0xC) 0 = false → rdB s (clkBlk (1 + n / 128)) 4 = true → Does (.lolClear n) s (fun t => rdB t (lanBlk n + 0xC) 1 = false
        ∧ OnlyRegs (fun a => a = lanBlk n + 0xC) [.lan] s t)))) ∧
  (∀ (s : State) (n errors : Nat), n < 512 →
    (lanState s n = 0xB2 → rdF s (lanBlk n) 11 8 ≠ 0 → Does (.prbsLockAcquired n) s (fun t => rdB t (lanBlk n + 0xC) 2 = true ∧ sget 0 t.lan.prbsAt n = s.tu.tick
      ∧ KeepsBut [.regs, .lan] s t ∧ RegsBut (fun a => a = lanBlk n + 0xC) s t)) ∧
    (rdB s (lanBlk n + 0xC) 2 = true → injArmed s (1 + n / 128) 2 = false → 1 ≤ errors → Does (.prbsLockLost n errors) s (fun t => rdB t (lanBlk n + 0xC) 2 = false
      ∧ rd t (lanBlk n + 0x18) = satAdd (rd s (lanBlk n + 0x18)) errors ∧ KeepsBut [.regs] s t ∧ RegsBut (fun a => a = lanBlk n + 0xC ∨ a = lanBlk n + 0x18) s t))) ∧
  (∀ (s : State) (p k : Nat), k < 8 → engineRuns s p = true →
    (portState s p k = 0xB9 → portSpeed s p k ≠ 9 → lanesClear s p k = true → EventFits s 0x0C02 1 → Does (.portLinkChange p k true) s (fun t => portState t p k = 0xBA
      ∧ EventPlaced t 0x0C02 (word (p + k * 256)) ∧ OnlyRegs (fun a => a = penCfg p k) [] s t)) ∧
    (lanesClear s p k = false → exec (.portLinkChange p k true) s = .next s) ∧
    (portState s p k = 0xBA →
      Does (.portLinkChange p k false) s (fun t => portState t p k = 0xB9 ∧ OnlyRegs (fun a => a = penCfg p k) [] s t) ∧
      (∀ errs : Nat, rdF s (penCfg p k) 27 26 = 3 → injArmed s (engineDie p) 0 = false →
        (1 ≤ errs → errs ≤ 15 → Does (.fecCodeword p k errs true) s (fun t => rd t (portCnt p k 2) = satAdd (rd s (portCnt p k 2)) errs
          ∧ KeepsBut [.regs] s t ∧ RegsBut (fun a => a = portCnt p k 2) s t)) ∧
        (15 < errs → EventFits s 0x0C04 2 → sget none s.lan.fecLast p = none → Does (.fecCodeword p k errs true) s (fun t =>
          rd t (portCnt p k 3) = satInc (rd s (portCnt p k 3)) ∧ EventPlaced t 0x0C04 (word p) ∧ OnlyRegs (fun a => a = portCnt p k 3) [.lan] s t))) ∧
      (∀ frame : List Byte, injArmed s (engineDie p) 1 = false →
        let body := frame.take (frame.length - 4)
        let bad := frame.length < 64 ∨ rdF s (penCfg p k) 13 0 < frame.length ∨ ofBytes (frame.drop (frame.length - 4)) ≠ crc32 body
        let x := parseFrame body s.tu.ens.ether
        let key := frameKeyWords x p k (rdB s (penCfg p k) 19)
        (bad → Does (.frameReceive p k frame false) s (fun t => rd t (portCnt p k 1) = satInc (rd s (portCnt p k 1)) ∧ KeepsBut [.regs] s t
          ∧ RegsBut (fun a => a = portCnt p k 1) s t)) ∧
        (Does (.frameReceive p k frame true) s (fun t => rd t (portCnt p k 1) = satInc (rd s (portCnt p k 1)) ∧ KeepsBut [.regs] s t)) ∧
        (¬ bad → rdB s (clkBlk (engineDie p) + 0x10) 16 = true → x.fallback = false →
          (clsFind s.lan.cls (p / 16) key = none → rdB s (penDef p k) 31 = true → Does (.frameReceive p k frame false) s (fun t =>
            rd t (portCnt p k 0) = satInc (rd s (portCnt p k 0)) ∧ rd t (stageCnt p 1) = satInc (rd s (stageCnt p 1))
            ∧ rd t (stageCnt p 2) = satInc (rd s (stageCnt p 2)) ∧ KeepsBut [.regs] s t
            ∧ RegsBut (fun a => a = portCnt p k 0 ∨ a = stageCnt p 1 ∨ a = stageCnt p 2) s t)) ∧
          (∀ (i dst strip : Nat) (e : List Word), clsFind s.lan.cls (p / 16) key = some i → sget [] s.lan.cls i = e → e.length = 8 → wordAt e 4 = dst → dst < 4096 →
            nfld (wordAt e 5) 11 0 = 0xFFF → nfld (wordAt e 5) 23 16 = strip → s.lan.rxq = [] → s.bough.waiting = [] →
            fld (routeOf s (engineStation p) dst) 31 30 = 2 → rdF s (penBlk p + 0x60) 29 20 = 512 → rdF s (penBlk p + 0x60) 19 10 = 448 →
            frame.length ≤ 256 → strip + 4 < frame.length → Does (.frameReceive p k frame false) s (fun t =>
            (t.net.getLast?.map (fun q => (q.op, q.src, q.dst, q.data))) = some (3, engineStation p, dst, body.drop strip)
            ∧ (t.net.getLast?.map (fun q => q.addr)) = some 65536 ∧ t.net.length = s.net.length + 1
            ∧ sget [] t.lan.cls i = e.set 7 (satInc (e.getD 7 0)) ∧ rd t (stageCnt p 7) = satInc (rd s (stageCnt p 7))
            ∧ KeepsBut [.regs, .lan, .bough, .net] s t ∧ RegsBut (fun a => a = portCnt p k 0 ∨ a = stageCnt p 7) s t)))))) ∧
  (∀ (f : List Byte) (e : Nat), beAt f 12 2 = 0xAEFE → beAt f 14 1 / 16 = 1 → 4 ≤ beAt f 16 2 → 22 ≤ f.length → 18 + beAt f 16 2 ≤ f.length →
    (parseFrame f e).kind = 1 ∧ (parseFrame f e).vid = 0 ∧ (parseFrame f e).k1 = beAt f 15 1 + beAt f 18 2 * 2 ^ 8 ∧ (parseFrame f e).seqId = beAt f 20 2) ∧
  (∀ (s : State) (pe src k : Nat) (q : Packet), engineRuns s pe = true → s.bough.inbox = [q] → q.dst = engineStation pe → q.src = src → q.op = 3 → q.addr = 65536 →
    16 < q.data.length → q.data.length ≤ 256 → q.len = q.data.length → nfld (ofBytes (q.data.take 4)) 2 0 = k → portSpeed s pe k ≠ 9 → s.lan.txq = [] →
    let w0 := ofBytes (q.data.take 4)
    let good := nfld w0 15 8 = 0 ∧ ofBytes ((q.data.drop 4).take 12) = 0 ∧ portState s pe k = 0xBA ∧ q.data.length ≤ rdF s (penCfg pe k) 13 0 + 12
    (good → Does (.txUnitQueued pe src) s (fun t => t.lan.txq
        = [TxFrame.mk pe k (nfld w0 5 3) (w0.testBit 6) (w0.testBit 7) (nfld w0 31 16) (q.data.drop 16)] ∧ t.bough.inbox = [] ∧ KeepsBut [.lan, .bough] s t)) ∧
    (¬ good → portState s pe k ≠ 0xBB → Does (.txUnitQueued pe src) s (fun t => t.lan.txq = [] ∧ t.bough.inbox = []
      ∧ rd t (portCnt pe k 5) = satInc (rd s (portCnt pe k 5)) ∧ KeepsBut [.regs, .bough] s t))) ∧
  (∀ (s : State) (p k : Nat) (f g : TxFrame), engineRuns s p = true → k < 8 → s.lan.txq = [g, f] → f.pe = p → g.pe = p → f.port = k → g.port = k →
    (portState s p k = 0xBA → rdB s (penCfg p k) 20 = false → g.cls < f.cls → f.cls < 8 → f.oneStep = false → f.tsReq = false → f.data.length ≤ 60 →
      let pad := f.data ++ List.replicate (60 - f.data.length) 0
      Does (.frameTransmit p k) s (fun t => sget [] t.lan.wire (8 * p + k) = pad ++ toBytes 4 (crc32 pad) ∧ t.lan.txq = [g]
        ∧ rd t (portCnt p k 4) = satInc (rd s (portCnt p k 4)) ∧ KeepsBut [.regs, .lan] s t ∧ RegsBut (fun a => a = portCnt p k 4) s t)) ∧
    (portState s p k = 0xBA → rdB s (penCfg p k) 20 = true → gateNow s p = none → rdF s (penBlk p + 0x64) 31 24 = 0 → exec (.frameTransmit p k) s = .next s) ∧
    (portState s p k = 0xB9 → Does (.txDownDrop p k) s (fun t => t.lan.txq = [f] ∧ rd t (portCnt p k 6) = satInc (rd s (portCnt p k 6)) ∧ KeepsBut [.regs, .lan] s t
      ∧ RegsBut (fun a => a = portCnt p k 6) s t))) ∧
  (∀ (s : State) (p : Nat), engineRuns s p = true →
    Does (.gateEntryEnd p) s (fun t => rdF t (penBlk p + 0x68) 31 24 = gatesOf s p ∧ KeepsBut [.regs] s t ∧ RegsBut (fun a => a = penBlk p + 0x68) s t) ∧
    (∀ g : GateList, sget none s.lan.shadow p = some g → s.lan.leaving = [] → (replicaTb s (engineDie p) g.tb).run = true →
      (g.base * 2 ^ 40 ≤ (replicaTb s (engineDie p) g.tb).cnt % 2 ^ 80 → EventFits s 0x0C05 0 → Does (.gateListSwitch p) s (fun t =>
        sget none t.lan.active p = some g ∧ sget none t.lan.shadow p = none ∧ rdB t (penBlk p + 0x68) 16 = false
        ∧ (∀ e : Nat, e < 256 → rd t (penBlk p + 0x1000 + 4 * e) = g.entries.getD e 0) ∧ EventPlaced t 0x0C05 (word p) ∧ KeepsBut [.regs, .ward, .lan] s t)) ∧
      ((replicaTb s (engineDie p) g.tb).cnt % 2 ^ 80 < g.base * 2 ^ 40 → exec (.gateListSwitch p) s = .next s))) ∧
  (∀ (s : State) (p k n dst : Nat) (block : List Byte), engineRuns s p = true → k < 8 → portState s p k = 0xBB →
    (rdB s (lanBlk (8 * p + k) + 0xC) 1 = false → sget 0 s.lan.blocks (8 * p + k) = n → rdF s (penDef p k) 11 0 = dst → rdB s (penDef p k) 29 = false →
      block.length = 256 → s.bough.waiting = [] → fld (routeOf s (engineStation p) dst) 31 30 = 2 → Does (.rawBlockReceive p k block) s (fun t =>
        (t.net.getLast?.map (fun q => (q.op, q.src, q.dst, q.addr, q.data))) = some (3, engineStation p, dst, 256 * (n % 256) + (if n % 256 = 255 then 65536 else 0), block)
        ∧ sget 0 t.lan.blocks (8 * p + k) = n + 1 ∧ (rd t (stageCnt p 7) = if n % 256 = 255 then satInc (rd s (stageCnt p 7)) else rd s (stageCnt p 7))
        ∧ KeepsBut [.regs, .lan, .bough, .net] s t)) ∧
    (s.lan.txq = [] → Does (.rawUnderrun p k) s (fun t => rd t (portCnt p k 7) = satInc (rd s (portCnt p k 7))
      ∧ sget [] t.lan.wire (8 * p + k) = (List.replicate 64 (toBytes 4 (rd s (penDef p k + 4)).toNat)).flatten ∧ KeepsBut [.regs, .lan] s t)))

/-! ### Time (15) -/

/-- TIME commands (15 R461-R488). -/
def Obligations.TimeCommandsChangeWhatTheyName : Prop :=
  (∀ (s : State) (b n : Nat) (args : List Word), n < 8 →
    let tb := tbAt s n
    let send (l : List Nat) (h : TimeChange) : List PendingChange := l.map (fun d => PendingChange.mk d (s.tu.tick + 4096) n h)
    (Serving s b 0x0501 args → wordAt args 0 = n → Does (.timeInfo b) s (fun t => OnlyAnswer s t ∧ Answered t b 0 0 (
      if tb.core.run then [tbStateWord s n, word tb.core.ns, word (tb.core.wraps + tb.core.setSeq * 2 ^ 8), word (uint 32 tb.core.rate), word (min (2 ^ 32 - 1) tb.errEst),
        word (tb.priKind + tb.twinKind * 2 ^ 8), word (uint 32 (clampS 32 (phaseNs tb.twinOffset))), word (uint 32 (clampS 32 (phaseNs tb.core.slewRem)))]
      else [0xC0, 0, 0, 0, 0, word (tb.priKind + tb.twinKind * 2 ^ 8), 0, 0]))) ∧
    (Serving s b 0x0502 args → heldState s n ∈ [0xC0, 0xC1, 0xC6] → wordAt args 2 < 256 →
      let cnt := (wordAt args 2 * 2 ^ 32 + wordAt args 1) * 2 ^ 40
      (wordAt args 0 = n → Does (.timeSet b) s (fun t => Answered t b 0 0 [word (s.tu.tick + 4096)]
        ∧ t.tu = { s.tu with changes := s.tu.changes ++ send (0 :: timeDies s) (.load cnt (word64At args 3) (sint 32 (wordAt args 5))) } ∧ KeepsBut [.ward, .tu] s t)) ∧
      (∀ ch : Nat, ch < 32 → wordAt args 0 = n + 2 ^ 8 + ch * 2 ^ 16 → Does (.timeSet b) s (fun t => Begun t b
        ∧ t.tu = { s.tu with atEdge := s.tu.atEdge ++ [EdgeSet.mk b n ch cnt (word64At args 3) (sint 32 (wordAt args 5))] } ∧ KeepsBut [.ward, .tu] s t))) ∧
    (∀ kind : Nat, Serving s b 0x0503 args → heldState s n ∈ [0xC1, 0xC6] → wordAt args 2 ≤ 100000 → kind < 3 → wordAt args 0 = n + kind * 2 ^ 8 →
      let v := sint 32 (wordAt args 1)
      let may := classOf b ≠ .user ∨ (heldState s n = 0xC6 ∧ tb.func = 1)
      (may → (kind ≠ 0 ∨ v.natAbs ≤ 1000000000) → Does (.timeAdjust b) s (fun t => Answered t b 0 0 []
        ∧ t.tu = { s.tu with changes := s.tu.changes ++ send (0 :: timeDies s) (if kind = 0 then .step v
            else if kind = 1 then .slew (v * 2 ^ 40) (if wordAt args 2 = 0 then tb.slewPpb else wordAt args 2) else .rate v) } ∧ KeepsBut [.ward, .tu] s t)) ∧
      (may → kind = 0 → 1000000000 < v.natAbs → Does (.timeAdjust b) s (fun t => Answered t b 2 0x0502 [] ∧ OnlyAnswer s t)) ∧
      (¬ may → Does (.timeAdjust b) s (fun t => Answered t b 8 0 [] ∧ OnlyAnswer s t))) ∧
    (∀ pk pc wk wc bw lock : Nat, Serving s b 0x0504 args → heldState s n ∈ [0xC1, 0xC2, 0xC3, 0xC4, 0xC5, 0xC6] → pk < 3 → pc < 32 → wk < 3 → wc < 32 → 10 ≤ bw → bw ≤ 1000 →
      lock < 65536 → wordAt args 0 = n → wordAt args 1 = pk + pc * 2 ^ 8 → wordAt args 2 = wk + wc * 2 ^ 8 → wordAt args 3 = bw + lock * 2 ^ 16 → 1 ≤ wordAt args 4 →
      wordAt args 4 ≤ 100000 → wordAt args 5 < 2 →
      let taken := srcTaken s n (pk, pc) = true ∨ srcTaken s n (wk, wc) = true ∨ (pk = 2 ∧ wk = 2 ∧ wc = pc)
      (taken → Does (.timeSource b) s (fun t => Answered t b 4 0x0504 [] ∧ OnlyAnswer s t)) ∧
      (¬ taken → pk ≠ 0 → heldState s n ≠ 0xC6 → Does (.timeSource b) s (fun t => Answered t b 0 0 []
        ∧ (let u := tbAt t n
           (u.priKind, u.priCh, u.twinKind, u.twinCh, u.bw, u.lockNs) = (pk, pc, wk, wc, bw, lock) ∧ (u.slewPpb, u.holdLimit) = (wordAt args 4, wordAt args 6)
           ∧ u.stepOk = (wordAt args 5 = 1) ∧ u.core = tb.core ∧ u.state = tb.state)
        ∧ (∀ m : Nat, m < 8 → m ≠ n → tbAt t m = tbAt s m) ∧ KeepsBut [.ward, .tu] s t)) ∧
      (¬ taken → (pk ≠ 0 ∨ wk ≠ 0) → heldState s n = 0xC6 → tb.state = 0xC6 → Does (.timeSource b) s (fun t => Answered t b 0 0 [] ∧ (tbAt t n).state = 0xC2
        ∧ (tbAt t n).priKind = pk ∧ OnlyRegs (fun _ => False) [.tu] s t))) ∧
    (Serving s b 0x0505 args → heldState s n = 0xC3 → wordAt args 0 = n →
      (tb.twinLocked = false → Does (.timeTwinSwitch b) s (fun t => Answered t b 4 0x0509 [] ∧ OnlyAnswer s t)) ∧
      (tb.twinLocked = true → (tb.slewing = true ∨ tb.twinSlew = true) → Does (.timeTwinSwitch b) s (fun t => Answered t b 4 0x0501 [] ∧ OnlyAnswer s t)) ∧
      (tb.twinLocked = true → tb.slewing = false → tb.twinSlew = false → EventFits s 0x0502 1 → Does (.timeTwinSwitch b) s (fun t => Answered t b 0 0 []
        ∧ t.tu.changes = s.tu.changes ++ send (0 :: timeDies s) (.rate tb.twin.rate) ++ send (0 :: timeDies s) (.slew tb.twinOffset tb.slewPpb)
        ∧ (let u := tbAt t n
           (u.priKind, u.priCh, u.twinKind, u.twinCh) = (tb.twinKind, tb.twinCh, tb.priKind, tb.priCh) ∧ u.twinLocked = false ∧ u.state = tb.state ∧ u.core = tb.core)
        ∧ EventPlaced t 0x0502 (word n) ∧ OnlyRegs (fun _ => False) [.tu] s t))) ∧
    (∀ func : Nat, Serving s b 0x0506 args → heldState s n ∈ [0xC1, 0xC2, 0xC3, 0xC4, 0xC5] → func < 2 → wordAt args 0 = n + func * 2 ^ 8 → Does (.timeHost b) s (fun t =>
      Answered t b 0 0 [] ∧ t.tu = { s.tu with changes := s.tu.changes ++ send [0] (.host func) } ∧ KeepsBut [.ward, .tu] s t)) ∧
    (Serving s b 0x0507 args → heldState s n ∈ [0xC1, 0xC2, 0xC3, 0xC4, 0xC5, 0xC6] → wordAt args 0 = n →
      (tbInUse s n = true → Does (.timeStop b) s (fun t => Answered t b 4 0x050B [] ∧ OnlyAnswer s t)) ∧
      (tbInUse s n = false → Does (.timeStop b) s (fun t => Answered t b 0 0 [] ∧ t.tu = { s.tu with changes := s.tu.changes ++ send (0 :: timeDies s) .stop }
        ∧ KeepsBut [.ward, .tu] s t))) ∧
    (∀ sensor : Nat, Serving s b 0x050D args → heldState s n ∈ [0xC1, 0xC2, 0xC3, 0xC4, 0xC5, 0xC6] → sensor < 74 →
      (wordAt args 0 = n + 2 ^ 8 + sensor * 2 ^ 16 → Does (.timeModel b) s (fun t =>
        Answered t b 0 0 ([word (n + 2 ^ 8 + sensor * 2 ^ 16)] ++ (upto 9).map (fun i => word (wordAt args (1 + i))))
        ∧ (let m := (tbAt t n).model
           m.valid = true ∧ m.age = 0 ∧ (m.y0, m.a, m.c1, m.c2) = (sint 64 (word64At args 1), sint 64 (word64At args 3), sint 64 (word64At args 5), sint 64 (word64At args 7))
           ∧ m.t0 = sint 32 (wordAt args 9) ∧ m.sensor = sensor)
        ∧ (tbAt t n).core = tb.core ∧ (∀ m : Nat, m < 8 → m ≠ n → tbAt t m = tbAt s m) ∧ KeepsBut [.ward, .tu] s t)) ∧
      (wordAt args 0 = n → Does (.timeModel b) s (fun t => OnlyAnswer s t
        ∧ Answered t b 0 0 (word (n + tb.model.sensor * 2 ^ 16) :: ([tb.model.y0, tb.model.a, tb.model.c1, tb.model.c2].flatMap (fun v => [lo32 (uint 64 v), hi32 (uint 64 v)]))
            ++ [word (uint 32 tb.model.t0)]))))) ∧
  (∀ (s : State) (n : Nat) (e : EdgeSet), s.tu.atEdge = [e] → (∃ k : Taken, s.ward.taken.find? (fun k => k.booth = e.booth) = some k ∧ k.phase = .running) →
    (e.tb = n → Does (.timeSetNoEdge n) s (fun t => Answered t e.booth 0xA 0x050C [] ∧ t.tu = { s.tu with atEdge := [] } ∧ KeepsBut [.ward, .tu] s t)) ∧
    (e.ch = n → n < 32 → rdB s (capReg n 0) 12 = false → feedOk s 0x10 n = true → rdF s (capReg n 0) 1 0 = 0 → Does (.captureEdge n false) s (fun t =>
      Answered t e.booth 0 0 [word (s.tu.tick + 4096)] ∧ t.tu.atEdge = [] ∧ (let c := TbCore.advN { run := true, cnt := e.cnt, origin := e.origin, rate := e.rate } 4096
        t.tu.changes = s.tu.changes ++ (0 :: timeDies s).map (fun d => PendingChange.mk d (s.tu.tick + 4096) e.tb (.load c.cnt c.origin e.rate)))
      ∧ KeepsBut [.ward, .tu] s t))) ∧
  (∀ (s : State) (b pe k : Nat) (args : List Word), pe < 64 → k < 8 →
    (Serving s b 0x0510 args → wordAt args 0 = pe + k * 2 ^ 8 → (sint 32 (wordAt args 1)).natAbs ≤ 2 ^ 20 → (sint 32 (wordAt args 2)).natAbs ≤ 2 ^ 20 →
      Does (.timeTsComp b) s (fun t => Answered t b 0 0 [] ∧ sget (0, 0) t.tu.tsComp (8 * pe + k) = (sint 32 (wordAt args 1), sint 32 (wordAt args 2))
        ∧ (∀ m : Nat, m < 512 → m ≠ 8 * pe + k → sget (0, 0) t.tu.tsComp m = sget (0, 0) s.tu.tsComp m) ∧ KeepsBut [.ward, .tu] s t)) ∧
    (∀ n dom : Nat, n < 8 → Serving s b 0x0508 args → heldState s n ∈ [0xC1, 0xC2, 0xC3, 0xC4, 0xC5, 0xC6] → dom < 256 →
      let here := (upto 32).find? (fun i => (sget none s.tu.ptp i).any (fun p => p.pe = pe && p.port = k))
      let other := (ptpPorts s).any (fun p => p.tb = n && p.clockId ≠ word64At args 2 && (p.pe ≠ pe || p.port ≠ k))
      (wordAt args 0 = pe + k * 2 ^ 8 + n * 2 ^ 16 → here = none → Does (.timePtpPort b) s (fun t => Answered t b 2 0 [] ∧ OnlyAnswer s t)) ∧
      (∀ i : Nat, wordAt args 0 = pe + k * 2 ^ 8 + n * 2 ^ 16 → here = some i → ∀ u : State, syncKeys (timeKeys s) { s with tu := { s.tu with ptp := sset none s.tu.ptp i none } } = some u →
        Does (.timePtpPort b) s (fun t => Answered t b 0 0 [word i] ∧ sget none t.tu.ptp i = none ∧ t.lan = u.lan ∧ KeepsBut [.ward, .tu, .lan] s t)) ∧
      (∀ x : Nat, wordAt args 0 = pe + k * 2 ^ 8 + n * 2 ^ 16 + 2 ^ 24 → wordAt args 1 = x → nfld x 7 0 = dom → nfld x 15 11 = 0 → x < 2 ^ 24 →
        (dom < 24 ∨ 43 < dom → Does (.timePtpPort b) s (fun t => Answered t b 2 4 [] ∧ OnlyAnswer s t)) ∧
        (24 ≤ dom → dom ≤ 43 → other = true → Does (.timePtpPort b) s (fun t => Answered t b 4 0x0505 [] ∧ OnlyAnswer s t)) ∧
        (24 ≤ dom → dom ≤ 43 → other = false → nfld x 9 9 = 1 → rdB s (penBlk pe + 0x74) 31 = false → Does (.timePtpPort b) s (fun t => Answered t b 4 0x0508 [] ∧ OnlyAnswer s t)) ∧
        (24 ≤ dom → dom ≤ 43 → other = false → nfld x 9 9 = 0 ∨ rdB s (penBlk pe + 0x74) 31 = true →
          (here = none → (∀ i : Nat, i < 32 → (sget none s.tu.ptp i).isSome = true) → Does (.timePtpPort b) s (fun t => Answered t b 0xB 0x0506 [] ∧ OnlyAnswer s t)) ∧
          (∀ i : Nat, (here = some i ∨ (here = none ∧ (upto 32).find? (fun i => (sget none s.tu.ptp i).isNone) = some i)) →
            let q : PtpPort := { pe := pe, port := k, tb := n, domain := dom, masterOnly := nfld x 8 8 = 1, twoStep := nfld x 9 9 = 1, nonForward := nfld x 10 10 = 1, localPriority := nfld x 23 16, clockId := word64At args 2, asym := sint 32 (wordAt args 4) }
            let s1 : State := { s with tu := { s.tu with ptp := sset none s.tu.ptp i (some q) } }
            (∀ u : State, syncKeys (timeKeys s) s1 = some u → Does (.timePtpPort b) s (fun t => Answered t b 0 0 [word i] ∧ sget none t.tu.ptp i = some q ∧ t.lan = u.lan
              ∧ KeepsBut [.ward, .tu, .lan] s t)) ∧
            (syncKeys (timeKeys s) s1 = none → Does (.timePtpPort b) s (fun t => Answered t b 0xB 0x050A [] ∧ OnlyAnswer s t))))))) ∧
  (∀ (s : State) (b : Nat) (args : List Word),
    (∀ (i : Nat) (p : PtpPort), Serving s b 0x0509 args → i < 32 → wordAt args 0 = i → sget none s.tu.ptp i = some p → Does (.timePtpStatus b) s (fun t => OnlyAnswer s t
      ∧ Answered t b 0 0 [word p.portState, word (uint 32 (clampS 32 p.offset)), word p.delay, word p.parent, hi32 p.parent, word (p.parent / 2 ^ 64 % 2 ^ 16),
          word (p.clockClass % 256)])) ∧
    (Serving s b 0x050A args → wordAt args 0 < 4 → (∀ i : Nat, i < 8 → nfld (wordAt args (1 + i)) 11 9 = 0 ∧ wordAt args (1 + i) < 65536) → wordAt args 9 ≤ 720 →
      300 ≤ wordAt args 10 → wordAt args 10 ≤ 1800 →
      let e : SyncE := { enable := nfld (wordAt args 0) 0 0 = 1, qlOn := nfld (wordAt args 0) 1 1 = 1, srcs := (upto 8).map (fun i => { lane := nfld (wordAt args (1 + i)) 8 0, prio := nfld (wordAt args (1 + i)) 15 12 }), wtr := wordAt args 9, holdOff := wordAt args 10, ports := (upto 16).foldl (fun a i => a + wordAt args (11 + i) * 2 ^ (32 * i)) 0, sel := 0xF, ql := s.tu.synce.ql, sent := s.tu.synce.sent }
      (∀ u : State, syncKeys (timeKeys s) { s with tu := { s.tu with synce := e } } = some u → Does (.timeSynce b) s (fun t =>
        Answered t b 0 0 [0xF, word (s.tu.synce.ql % 256)] ∧ t.tu = { s.tu with synce := e } ∧ t.lan = u.lan ∧ KeepsBut [.ward, .tu, .lan] s t)) ∧
      (syncKeys (timeKeys s) { s with tu := { s.tu with synce := e } } = none → Does (.timeSynce b) s (fun t => Answered t b 0xB 0x050A [] ∧ OnlyAnswer s t))) ∧
    (∀ n on learn mask : Nat, Serving s b 0x050E args → n < 8 → on < 2 → learn < 2 → heldState s n ∈ [0xC1, 0xC2, 0xC3, 0xC4, 0xC5, 0xC6] → wordAt args 0 = n + on * 2 ^ 8 + learn * 2 ^ 9 →
      wordAt args 1 < 65536 → wordAt args 3 < 2 ^ 24 → nfld (wordAt args 4) 7 3 = 0 → wordAt args 4 < 65536 → 100 ≤ wordAt args 5 → wordAt args 5 ≤ 100000 → 1 ≤ wordAt args 8 →
      wordAt args 8 ≤ 16 → mask = (upto 16).foldl (fun a i => a + wordAt args (9 + i) * 2 ^ (32 * i)) 0 →
      (on = 1 → nodeId s = 0x3FFFF → Does (.timeEnsembleCfg b) s (fun t => Answered t b 0xC 0x0503 [] ∧ OnlyAnswer s t)) ∧
      (on = 1 → nodeId s ≠ 0x3FFFF → ∀ x ∈ maskPorts mask, rdB s (penBlk x.1 + 0x74) 31 = false → Does (.timeEnsembleCfg b) s (fun t => Answered t b 4 0x0508 [] ∧ OnlyAnswer s t)) ∧
      (on = 0 ∨ (nodeId s ≠ 0x3FFFF ∧ ∀ x ∈ maskPorts mask, rdB s (penBlk x.1 + 0x74) 31 = true) →
        let e : Ensemble := { s.tu.ens with enable := on = 1, learn := learn = 1, tb := n, ether := wordAt args 1, dest := ofBytes (toBytes 6 (wordAt args 2 + wordAt args 3 % 2 ^ 16 * 2 ^ 32)).reverse, domain := nfld (wordAt args 3) 23 16, k := nfld (wordAt args 4) 2 0, minPeers := nfld (wordAt args 4) 15 8, tau := wordAt args 5, asymUnc := wordAt args 6, delay := wordAt args 7, derate := wordAt args 8, ports := mask }
        let keys := syncKeys (timeKeys s) { s with tu := { s.tu with ens := e } }
        (∀ u : State, keys = some u → Does (.timeEnsembleCfg b) s (fun t => Answered t b 0 0 [] ∧ t.tu.ens = e ∧ t.tu.peers = (if n = s.tu.ens.tb then s.tu.peers else [])
          ∧ (∀ m : Nat, m < 8 → (tbAt t m).core = (tbAt s m).core ∧ (tbAt t m).state = (tbAt s m).state) ∧ t.lan = u.lan ∧ KeepsBut [.ward, .tu, .lan] s t)) ∧
        (keys = none → Does (.timeEnsembleCfg b) s (fun t => Answered t b 0xB 0x050A [] ∧ OnlyAnswer s t)))) ∧
    (∀ node : Nat, Serving s b 0x050F args → wordAt args 1 = node → node < 2 ^ 18 →
      let known := s.tu.peers.any (fun p => p.node = node)
      (wordAt args 0 = 1 → known = false → s.tu.peers.length < 64 → Does (.timePeer b) s (fun t => Answered t b 0 0 []
        ∧ t.tu.peers.map (fun p => (p.node, p.added)) = s.tu.peers.map (fun p => (p.node, p.added)) ++ [(node, true)]
        ∧ t.tu.peers.getLast?.map (fun p => p.asym) = some (sint 32 (wordAt args 2)) ∧ KeepsBut [.ward, .tu] s t)) ∧
      (wordAt args 0 = 1 → known = false → 64 ≤ s.tu.peers.length → Does (.timePeer b) s (fun t => Answered t b 0xB 0x0507 [] ∧ OnlyAnswer s t)) ∧
      (wordAt args 0 = 1 → known = true → Does (.timePeer b) s (fun t => Answered t b 0 0 []
        ∧ t.tu = { s.tu with peers := s.tu.peers.map (fun p => if p.node = node then { p with added := true, asym := sint 32 (wordAt args 2) } else p) } ∧ KeepsBut [.ward, .tu] s t)) ∧
      (wordAt args 0 = 0 → Does (.timePeer b) s (fun t => OnlyAnswer s t ∧ Answered t b 0 0 ((s.tu.peers.flatMap (peerWords
        ((s.tu.peers.map Peer.weight).sum + if s.tu.peers.any (fun (p : Peer) => p.weight ≠ 0) then s.tu.ens.w0 else 0)) ++ List.replicate 512 0).take 512))) ∧
      (wordAt args 0 = 2 → known = true → Does (.timePeer b) s (fun t => Answered t b 0 0 [] ∧ t.tu = { s.tu with peers := s.tu.peers.filter (fun p => p.node ≠ node) }
        ∧ KeepsBut [.ward, .tu] s t)) ∧
      (wordAt args 0 = 2 → known = false → Does (.timePeer b) s (fun t => Answered t b 4 0x050B [] ∧ OnlyAnswer s t))) ∧
    (∀ ch n edge loop : Nat, Serving s b 0x050B args → ch < 32 → n < 8 → edge < 4 → loop < 2 → wordAt args 0 = ch + n * 2 ^ 8 + edge * 2 ^ 12 + loop * 2 ^ 16 →
      (chInUse s ch = true → Does (.timeCaptureCfg b) s (fun t => Answered t b 4 0x0504 [] ∧ OnlyAnswer s t)) ∧
      (chInUse s ch = false → Does (.timeCaptureCfg b) s (fun t => Answered t b 0 0 [] ∧ (rdF t (capReg ch 0) 1 0, rdF t (capReg ch 0) 10 8, rdF t (capReg ch 0) 12 12) = (edge, n, loop)
        ∧ (sget {} t.tu.caps ch).records = [] ∧ KeepsBut [.regs, .ward, .tu] s t ∧ RegsBut (fun a => a = capReg ch 0) s t))) ∧
    (∀ o n mode : Nat, Serving s b 0x050C args → o < 16 → n < 8 → mode ≤ 4 → wordAt args 0 = o + n * 2 ^ 8 + mode * 2 ^ 12 →
      (mode = 2 → 8 ≤ wordAt args 1 ∧ wordAt args 1 ≤ 1000000000 ∧ wordAt args 1 % 2 = 0 ∧ 1000000000 % wordAt args 1 = 0) → wordAt args 5 < 256 → wordAt args 7 < 65536 →
      let c : OutCfg := OutCfg.mk n mode (wordAt args 1) (wordAt args 2) (sint 32 (wordAt args 3)) (wordAt args 4) (wordAt args 5) (word64At args 6) (wordAt args 8)
      let x := sget {} s.tu.outs o
      (x.next.isSome = true → Does (.timeOutputCfg b) s (fun t => Answered t b 0 0 [] ∧ sget {} t.tu.outs o = { x with later := some c } ∧ KeepsBut [.ward, .tu] s t)) ∧
      (x.next = none → mode = 0 ∨ (tbAt s n).core.run = false → Does (.timeOutputCfg b) s (fun t => Answered t b 0 0 [] ∧ (sget {} t.tu.outs o).next = none
        ∧ (sget {} t.tu.outs o).cfg = c ∧ KeepsBut [.ward, .tu] s t)) ∧
      (x.next = none → (tbAt s n).core.run = true → mode = 1 ∨ mode = 2 → Does (.timeOutputCfg b) s (fun t => Answered t b 0 0 []
        ∧ (∃ e : Nat, (sget {} t.tu.outs o).next = some e ∧ ptpNow s n < e ∧ e ≤ ptpNow s n + (if mode = 1 then 1000000000 else wordAt args 1)
            ∧ ((e : Int) - c.offset) % ((if mode = 1 then 1000000000 else wordAt args 1 : Nat) : Int) = 0) ∧ KeepsBut [.ward, .tu] s t)) ∧
      (x.next = none → (tbAt s n).core.run = true → mode = 3 ∨ mode = 4 →
        let at_ := (tbAt s n).core.origin + wordAt args 5 * 2 ^ 32 + wordAt args 4
        (ptpNow s n ≤ at_ → Does (.timeOutputCfg b) s (fun t => Answered t b 0 0 [] ∧ (sget {} t.tu.outs o).next = some at_ ∧ (sget {} t.tu.outs o).cfg = c
          ∧ KeepsBut [.ward, .tu] s t)) ∧
        (at_ < ptpNow s n → Does (.timeOutputCfg b) s (fun t => Answered t b 0 0 [] ∧ (sget {} t.tu.outs o).next = none ∧ rd t (tuBase + 0x18) = satInc (rd s (tuBase + 0x18))
          ∧ KeepsBut [.regs, .ward, .tu] s t)))))

/-- Events of the time unit (15 R461-R485). -/
def Obligations.TimeEventsFollowTheRules : Prop :=
  (∀ (c : TbCore) (j k : Nat), (c.advN j).advN k = c.advN (j + k)
    ∧ (c.run = true → c.slewRem = 0 → ((c.advN k).cnt : Int) = ((c.cnt : Int) + k * (2 ^ 41 + 2 * c.rate)) % 2 ^ 80)
    ∧ (c.run = true → 0 ≤ c.slewRem → c.slewRem ≤ k * slewStep c.slewPpb → (c.advN k).slewRem = 0
        ∧ ((c.advN k).cnt : Int) = ((c.cnt : Int) + k * (2 ^ 41 + 2 * c.rate) + c.slewRem) % 2 ^ 80)) ∧
  (∀ (s : State) (n : Nat), n < 8 → (tbAt s n).core.run = true →
    (let c := (tbAt s n).core
     c.slewRem = 0 → c.cnt < 2 ^ 80 → 2 ^ 80 ≤ (c.cnt : Int) + 2 ^ 41 + 2 * c.rate → c.origin < 2 ^ 64 → 0 ≤ c.rate → c.rate < 2 ^ 31 →
      (c.advN 1).wraps = 0 ∧ (c.advN 1).origin = (c.origin + 2 ^ 40) % 2 ^ 64 ∧ exec (.wrapsWrap n) s = .next (deviceTick s)) ∧
    (let c := (tbAt s n).core
     c.slewRem ≠ 0 → c.slewRem.natAbs ≤ slewStep c.slewPpb → (c.advN 1).slewRem = 0 ∧ exec (.slewEnd n) s = .next (deviceTick s))) ∧
  (∀ (s : State) (station n : Nat), n < 8 → s.pkg.held = false → Does (.tuTbNsRead station n) s (fun t =>
    t.tu.latches.find? (fun l => l.station = station && l.tb = n) = some (liveLatch s station n) ∧ t.tu.latches.length ≤ 32
      ∧ t.tu = { s.tu with latches := t.tu.latches } ∧ KeepsBut [.tu] s t)) ∧
  (∀ (s : State) (die : Nat) (e : PendingChange), s.tu.changes.find? (fun e => e.die = die) = some e →
    (s.tu.tick < e.tick → exec (.timePacketApply die) s = .next s) ∧
    (e.tick ≤ s.tu.tick → die ≠ 0 → dieAlive s die = true → Does (.timePacketApply die) s (fun t =>
      replicaTb t die e.tb = (replicaTb s die e.tb).changeLate e.change (s.tu.tick - e.tick) ∧ t.tu.changes = s.tu.changes.erase e ∧ t.tu.tbs = s.tu.tbs
        ∧ rd t (tuBase + 8) = (if s.tu.tick = e.tick then rd s (tuBase + 8) else satInc (rd s (tuBase + 8)))
        ∧ (∀ d : Nat, d < 16 → d ≠ die → sget {} t.tu.replicas d = sget {} s.tu.replicas d) ∧ KeepsBut [.regs, .tu] s t ∧ RegsBut (fun a => a = tuBase + 8) s t)) ∧
    (e.tick = s.tu.tick → die = 0 → s.tu.outs = [] →
      (∀ (c o : Nat) (r : Int), e.change = .load c o r → c < 2 ^ 80 → o < 2 ^ 64 → (tbAt s e.tb).state = 0xC0 → Does (.timePacketApply die) s (fun t =>
        ((tbAt t e.tb).core.run = true ∧ (tbAt t e.tb).core.cnt = c ∧ (tbAt t e.tb).core.origin = o ∧ (tbAt t e.tb).core.rate = r
          ∧ (tbAt t e.tb).core.setSeq = ((tbAt s e.tb).core.setSeq + 1) % 256 ∧ (tbAt t e.tb).core.slewRem = 0 ∧ (tbAt t e.tb).core.stepAcc = 0)
        ∧ (tbAt t e.tb).state = 0xC1 ∧ OnlyRegs (fun _ => False) [.tu] s t)) ∧
      (∀ n : Int, e.change = .step n → 0 ≤ n → (tbAt s e.tb).core.cnt + n * 2 ^ 40 < 2 ^ 80 → (tbAt s e.tb).core.origin < 2 ^ 64 → EventFits s 0x0503 1 → Does (.timePacketApply die) s (fun t =>
        ((tbAt t e.tb).core.cnt : Int) = (tbAt s e.tb).core.cnt + n * 2 ^ 40 ∧ (tbAt t e.tb).core.stepAcc = (tbAt s e.tb).core.stepAcc + n
        ∧ (tbAt t e.tb).core.origin = (tbAt s e.tb).core.origin ∧ EventPlaced t 0x0503 (word e.tb) ∧ OnlyRegs (fun _ => False) [.tu] s t)) ∧
      (∀ (a : Int) (p : Nat), e.change = .slew a p → (tbAt s e.tb).core.slewRem + a ≠ 0 → Does (.timePacketApply die) s (fun t =>
        (tbAt t e.tb).core.slewRem = (tbAt s e.tb).core.slewRem + a ∧ (tbAt t e.tb).core.slewPpb = p ∧ (tbAt t e.tb).state = (tbAt s e.tb).state ∧ KeepsBut [.tu] s t)) ∧
      (e.change = .stop → (tbAt s e.tb).state ≠ 0xC0 → Does (.timePacketApply die) s (fun t => (tbAt t e.tb).core.run = false ∧ (tbAt t e.tb).state = 0xC0
        ∧ (tbAt t e.tb).priValid = false ∧ OnlyRegs (fun _ => False) [.tu] s t)))) ∧
  (∀ (s : State) (die : Nat) (drift : Int), die < 16 → die ≠ 0 → isDie die = true → dieAlive s die = true → injArmed s 0 6 = false →
    (drift = 0 → exec (.spineMarkCheck die drift) s = .next s) ∧
    (drift ≠ 0 → EventFits s 0x050B 2 → Does (.spineMarkCheck die drift) s (fun t => rd t (tuBase + 0xC) = satInc (rd s (tuBase + 0xC)) ∧ EventPlaced t 0x050B (word die)
      ∧ (∀ n : Nat, n < 8 → replicaTb t die n = (tbAt s n).core) ∧ OnlyRegs (fun a => a = tuBase + 0xC) [.tu] s t))) ∧
  (∀ (s : State) (ch n : Nat) (falling : Bool), ch < 32 → rdB s (capReg ch 0) 12 = false → feedOk s 0x10 ch = true → s.tu.atEdge = [] → rdF s (capReg ch 0) 10 8 = n →
    (tbAt s n).core.run = true → (rdF s (capReg ch 0) 1 0).testBit (b2n falling) = true → (∀ u : Nat, (sget {} s.tu.caps ch).last = some u → u + 10 ≤ s.tu.tick) →
    let c := sget {} s.tu.caps ch
    let r : CapRecord := CapRecord.mk (tbAt s n).core.ns (tbAt s n).core.wraps (tbAt s n).core.sub falling
    (c.records.length < 16 → Does (.captureEdge ch falling) s (fun t => (sget {} t.tu.caps ch).records = c.records ++ [r] ∧ KeepsBut [.tu] s t)) ∧
    (16 ≤ c.records.length → EventFits s 0x0508 1 → Does (.captureEdge ch falling) s (fun t => (sget {} t.tu.caps ch).records = c.records ∧ rdB t (capReg ch 0) 31 = true
      ∧ rd t (tuBase + 0x14) = satInc (rd s (tuBase + 0x14)) ∧ (rdB s (capReg ch 0) 31 = false → EventPlaced t 0x0508 (word ch))
      ∧ OnlyRegs (fun a => a = capReg ch 0 ∨ a = tuBase + 0x14) [.tu] s t)) ∧
    Does (.tuCapInfoRead ch) s (fun t => (sget {} t.tu.caps ch).records = c.records.drop 1 ∧ KeepsBut [.tu] s t)) ∧
  (∀ (s : State) (o n at_ : Nat), o < 16 → (sget {} s.tu.outs o).next = some at_ → (sget {} s.tu.outs o).cfg.tb = n → (sget {} s.tu.outs o).later = none →
    (∀ c : Nat, c < 32 → rdB s (capReg c 0) 12 = false) →
    let x := sget {} s.tu.outs o
    (ptpNow s n < at_ → exec (.outputEdge o) s = .next s) ∧
    (at_ ≤ ptpNow s n → x.cfg.mode = 4 → Does (.outputEdge o) s (fun t => (sget {} t.tu.outs o).next = none ∧ (sget {} t.tu.outs o).armed = false
      ∧ t.net = s.net ++ [{ op := 3, vc := 2, dst := stationOf s x.cfg.addr, src := 4, addr := x.cfg.addr, len := 4, data := toBytes 4 x.cfg.data }] ∧ KeepsBut [.tu, .net] s t)) ∧
    (at_ ≤ ptpNow s n → x.cfg.mode ∈ [1, 2, 3] → x.high = false → Does (.outputEdge o) s (fun t => (sget {} t.tu.outs o).high = true
      ∧ (sget {} t.tu.outs o).next = some (at_ + if x.cfg.mode = 2 then x.cfg.period / 2 else x.cfg.width) ∧ KeepsBut [.tu] s t)) ∧
    (at_ ≤ ptpNow s n → x.cfg.mode = 3 → x.high = true → Does (.outputEdge o) s (fun t => (sget {} t.tu.outs o).high = false ∧ (sget {} t.tu.outs o).next = none
      ∧ KeepsBut [.tu] s t))) ∧
  (∀ (s : State) (n filtered : Nat) (offset rate slew : Int), n < 8 → (tbAt s n).core.run = true → s.ward.takeover = false → (tbAt s n).priKind ≠ 0 →
    let tb := tbAt s n
    let send (h : TimeChange) : List PendingChange := (0 :: timeDies s).map (fun d => PendingChange.mk d (s.tu.tick + 4096) n h)
    let seen (u : TimeBase) : Prop := u.offset = offset ∧ u.filt = filtered ∧ u.priValid = true ∧ u.inside = decide (offset.natAbs ≤ tb.lockNs) ∧ u.core = tb.core
    (tb.state = 0xC1 → offset ≠ 0 → offset.natAbs < 1000000000 → Does (.servoMeasurement n false offset filtered rate slew) s (fun t => (tbAt t n).state = 0xC2 ∧ seen (tbAt t n)
      ∧ t.tu.changes = s.tu.changes ++ send (.rate rate) ++ send (.step (-offset)) ∧ OnlyRegs (fun _ => False) [.tu] s t)) ∧
    ((tb.state = 0xC4 ∨ tb.state = 0xC5) → tb.stepOk = false → Does (.servoMeasurement n false offset filtered rate slew) s (fun t => (tbAt t n).state = 0xC2 ∧ seen (tbAt t n)
      ∧ t.tu.changes = s.tu.changes ++ send (.rate rate) ++ send (.slew (-offset * 2 ^ 40) tb.slewPpb) ∧ OnlyRegs (fun _ => False) [.tu] s t)) ∧
    ((tb.state = 0xC2 ∨ tb.state = 0xC3) → Does (.servoMeasurement n false offset filtered rate slew) s (fun t => seen (tbAt t n)
      ∧ (tbAt t n).state = (if tb.state = 0xC3 ∧ 4 * tb.lockNs < offset.natAbs ∧ 15 ≤ tb.outCount then 0xC2 else tb.state)
      ∧ t.tu.changes = s.tu.changes ++ send (.rate rate) ++ send (.slew (slew * 2 ^ 40) tb.slewPpb) ∧ OnlyRegs (fun _ => False) [.tu] s t)) ∧
    (tb.twinKind ≠ 0 → tb.twin.run = true → Does (.servoMeasurement n true offset filtered rate slew) s (fun t => (tbAt t n).twinValid = true
      ∧ (tbAt t n).twin.rate = rate ∧ (tb.twinValid = true → (tbAt t n).twin.slewRem = tb.twin.slewRem + slew * 2 ^ 40)
      ∧ (tb.twinValid = false → (tbAt t n).twin.stepAcc = tb.twin.stepAcc - offset) ∧ (tbAt t n).core = tb.core ∧ KeepsBut [.tu] s t)) ∧
    (tb.state = 0xC2 → tb.priValid = true → tb.inside = true → Does (.lockQualified n false) s (fun t => (tbAt t n).state = 0xC3 ∧ (tbAt t n).everLocked = true
      ∧ OnlyRegs (fun _ => False) [.tu] s t)) ∧
    (tb.twin.run = true → tb.twinValid = true → tb.twinInside = true → Does (.lockQualified n true) s (fun t => tbAt t n = { tb with twinLocked := true } ∧ KeepsBut [.tu] s t)) ∧
    (∀ cause : Nat, tb.priValid = true → tb.state = 0xC3 → EventFits s 0x0504 2 → ringCount s < 200 → tb.twinSlew = false →
      (tb.everLocked = false → Does (.sourceLost n true false cause) s (fun t => (tbAt t n).state = 0xC1 ∧ (tbAt t n).priValid = false ∧ EventPlaced t 0x0504 (word n)
        ∧ OnlyRegs (fun _ => False) [.tu] s t)) ∧
      (tb.everLocked = true → tb.twinLocked = false → Does (.sourceLost n true false cause) s (fun t => (tbAt t n).state = 0xC4 ∧ (tbAt t n).rateL = heldRate s n
        ∧ (tbAt t n).u0 = tb.filt ∧ (tbAt t n).lostSecs = 0 ∧ EventPlaced t 0x0504 (word n) ∧ OnlyRegs (fun _ => False) [.tu] s t)) ∧
      (tb.everLocked = true → tb.twinLocked = true → Does (.sourceLost n true false cause) s (fun t => (tbAt t n).state = 0xC3
        ∧ ((tbAt t n).priKind, (tbAt t n).priCh) = (tb.twinKind, tb.twinCh) ∧ t.tu.changes = s.tu.changes ++ send (.rate tb.twin.rate) ++ send (.slew tb.twinOffset tb.slewPpb)
        ∧ EventPlaced t 0x0504 (word n) ∧ OnlyRegs (fun _ => False) [.tu] s t)))) ∧
  (∀ (s : State) (n : Nat), n < 8 → (tbAt s n).core.run = true →
    let tb := tbAt s n
    (∀ (y0 a c1 c2 t0 : Int) (sy sa : Nat), tb.state = 0xC3 → tb.model.lockedSecs ≠ 14399 → Does (.modelUpdate n y0 a c1 c2 t0 sy sa) s (fun t =>
      (let m := (tbAt t n).model
       (m.y0, m.a, m.c1, m.t0) = (y0, a, c1, t0) ∧ (m.sigmaY, m.sigmaA, m.age) = (sy, sa, 0) ∧ m.lockedSecs = tb.model.lockedSecs + 1
         ∧ (m.c2 = c2 ∨ m.c2 = 0) ∧ (tempOf s tb.model.sensor = none → tb.model.tLow = none → m.c2 = 0)
         ∧ m.valid = (tb.model.valid || decide (14400 ≤ tb.model.lockedSecs + 1)))
      ∧ (tbAt t n).core = tb.core ∧ KeepsBut [.tu] s t)) ∧
    (s.tu.ens.enable = false → tb.state = 0xC4 → tb.limitRaised = true →
      (tb.model.valid = false → Does (.holdoverUpdate n) s (fun t => (tbAt t n).lostSecs = tb.lostSecs + 1
        ∧ (tbAt t n).errEst = (2000000 * tb.u0 + 2 * 1000000 * (tb.lostSecs + 1)) / 2000000 ∧ t.tu.changes = s.tu.changes ∧ KeepsBut [.tu] s t)) ∧
      (tb.model.valid = true → tempOf s tb.model.sensor = none → Does (.holdoverUpdate n) s (fun t =>
        let dy := tb.model.y0 * 86400000000 + tb.model.a * (tb.model.age + 1 : Nat) * 1000000 - tb.yL
        t.tu.changes = s.tu.changes ++ (0 :: timeDies s).map (fun d => PendingChange.mk d (s.tu.tick + 4096) n
            (.rate (clampS 32 (tb.rateL - (dy * 2 ^ 40).tdiv 86400000000000000000000000))))
        ∧ (tbAt t n).errEst = (2000000 * tb.u0 + 2 * tb.model.sigmaY * (tb.lostSecs + 1) + tb.model.sigmaA * (tb.lostSecs + 1) * (tb.lostSecs + 1)) / 2000000
        ∧ KeepsBut [.tu] s t)))) ∧
  (∀ (s : State) (i : Nat) (p : PtpPort), sget none s.tu.ptp i = some p → s.ward.takeover = false →
    let is (t : State) (q : PtpPort) : Prop := t.tu = { s.tu with ptp := sset none s.tu.ptp i (some q) } ∧ KeepsBut [.tu] s t
    (∀ parent cls st : Nat, st ∈ [4, 6, 7] → Does (.ptpMessageReceive i (.announce parent cls st)) s (fun t => is t { p with portState := st })) ∧
    (∀ parent cls : Nat, p.masterOnly = false → Does (.ptpMessageReceive i (.announce parent cls 9)) s (fun t => is t { p with portState := 9, parent := parent, clockClass := cls })) ∧
    (∀ offset : Int, p.portState = 9 → Does (.ptpMessageReceive i (.sync offset)) s (fun t => is t { p with offset := offset })) ∧
    (p.portState = 6 → Does (.ptpMessageSend i 0) s (fun t => KeepsBut [.tu] s t
      ∧ (sget none t.tu.ptp i).map (fun q => (sget 0 q.sent 0, sget 0 q.sent 8)) = some (sget 0 p.sent 0 + 1, sget 0 p.sent 8 + if p.twoStep then 1 else 0)))) ∧
  (∀ (s : State), s.tu.synce.enable = true → s.ward.takeover = false →
    (∀ i ql : Nat, i < 8 → ql < 256 → s.tu.synce.srcs.length = 8 → s.tu.synce.sel ≠ i → Does (.esmcReceive i ql) s (fun t =>
      (t.tu.synce.srcs.getD i {}).ql = ql ∧ t.tu.synce.ql = s.tu.synce.ql ∧ KeepsBut [.tu] s t)) ∧
    (∀ i ql : Nat, i < 8 → ql < 256 → s.tu.synce.sel = i → s.tu.synce.qlOn = true → ql ≠ s.tu.synce.ql → EventFits s 0x0505 1 → Does (.esmcReceive i ql) s (fun t =>
      t.tu.synce.ql = ql ∧ t.tu.synce.sent = s.tu.synce.sent + (if s.tu.synce.ports = 0 then 0 else 1) ∧ EventPlaced t 0x0505 (word i) ∧ OnlyRegs (fun _ => False) [.tu] s t)) ∧
    (∀ i : Nat, i < 8 → s.tu.synce.srcs.length = 8 → Does (.esmcTimeout i) s (fun t => (t.tu.synce.srcs.getD i {}).ql = 0x100 ∧ KeepsBut [.tu] s t)) ∧
    (s.tu.synce.ports ≠ 0 → Does .esmcSend s (fun t => t.tu.synce.sent = s.tu.synce.sent + 1 ∧ KeepsBut [.tu] s t)) ∧
    (∀ i : Nat, bestSource s = some i → switching s 1 = false → refOf s 1 ≠ 2 → tlReady s 2 (s.tu.synce.srcs.getD i {}).lane = true → (s.tu.synce.srcs.getD i {}).lane < 512 →
      s.tu.synce.qlOn = false → Does .synceSelection s (fun t => t.tu.synce.sel = i ∧ refOf t 1 = 2 ∧ rdF t rootSel 24 16 = (s.tu.synce.srcs.getD i {}).lane
        ∧ switching t 1 = true ∧ KeepsBut [.regs, .clk, .tu] s t)) ∧
    (bestSource s = none → s.tu.synce.sel ≠ 0xF → s.tu.synce.qlOn = false → Does .synceSelection s (fun t => t.tu.synce.sel = 0xF ∧ KeepsBut [.tu] s t))) ∧
  (∀ (s : State), s.tu.ens.enable = true →
    (∀ tx : List (Nat × Nat), nodeId s ≠ 0x3FFFF → s.ward.takeover = false → Does (.ensembleReportSend tx) s (fun t => t.tu.ens.seq = (s.tu.ens.seq + 1) % 65536
      ∧ t.tu.ens.own = ((t.tu.ens.seq, tx) :: s.tu.ens.own).take 2
      ∧ (∀ k : Nat, k < 512 → s.tu.ens.ports.testBit k = true → sget [] t.tu.ens.out k = reportWords s t.tu.ens.seq k)
      ∧ (∀ p ∈ t.tu.peers, p.heard = false) ∧ KeepsBut [.tu] s t)) ∧
    (∀ (pe port mac rx : Nat) (l : List Word), pe < 64 → port < 8 →
      let ok := nfld (wordAt l 0) 7 0 = 1 ∧ nfld (wordAt l 0) 15 8 = s.tu.ens.domain ∧ 16 + 4 * nfld (wordAt l 0) 23 16 ≤ l.length
      let node := nfld (wordAt l 1) 17 0
      (¬ ok → Does (.ensembleReportReceive pe port mac l rx) s (fun t => rd t (tuBase + 0x10) = satInc (rd s (tuBase + 0x10)) ∧ KeepsBut [.regs] s t
        ∧ RegsBut (fun a => a = tuBase + 0x10) s t)) ∧
      (ok → node = nodeId s → EventFits s 0x0507 2 → Does (.ensembleReportReceive pe port mac l rx) s (fun t => EventPlaced t 0x0507 (word (pe + port * 2 ^ 8))
        ∧ OnlyRegs (fun _ => False) [] s t)) ∧
      (∀ p : Peer, ok → node ≠ nodeId s → s.tu.peers = [p] → p.node = node → Does (.ensembleReportReceive pe port mac l rx) s (fun t =>
        t.tu.peers.map (fun q => (q.node, q.mac, q.pe, q.port, q.uncert, q.rx)) = [(node, mac, pe, port, wordAt l 5, rx)]
        ∧ t.tu.peers.map (fun q => (q.heard, q.peerState, q.seq)) = [(true, nfld (wordAt l 0) 31 24, nfld (wordAt l 2) 15 0)]
        ∧ KeepsBut [.tu] s t)) ∧
      (ok → node ≠ nodeId s → s.tu.peers = [] → s.tu.ens.learn = true → Does (.ensembleReportReceive pe port mac l rx) s (fun t =>
        t.tu.peers.map (fun p => (p.node, p.st, p.added)) = [(node, 1, false)] ∧ KeepsBut [.tu] s t))) ∧
    (∀ p : Peer, s.tu.peers = [p] → Does (.peerStale p.node) s (fun t => t.tu.peers = (if p.st = 3 ∧ p.added = false then [] else [{ p with st := 3, weight := 0 }])
      ∧ KeepsBut [.tu] s t)) ∧
    (let tb := tbAt s s.tu.ens.tb
     tb.core.run = true →
      (tb.state = 0xC4 → s.tu.ens.delay ≤ tb.enSecs → ensembleMet s = true → Does .ensembleEntry s (fun t => (tbAt t s.tu.ens.tb).state = 0xC5 ∧ OnlyRegs (fun _ => False) [.tu] s t)) ∧
      (tb.state = 0xC5 → ensembleMet s = false → Does .ensembleRound s (fun t => (tbAt t s.tu.ens.tb).state = 0xC4 ∧ OnlyRegs (fun _ => False) [.tu] s t)) ∧
      (∀ p : Peer, tb.state = 0xC5 → s.tu.peers = [p] → p.st = 2 → s.tu.ens.minPeers = 1 → p.uncert < tb.ownU → p.peerState ≠ 0xC5 → 0 < p.uncert →
        let q := p.uncert * p.uncert + s.tu.ens.asymUnc * s.tu.ens.asymUnc
        p.x * p.x ≤ 16 * (q : Int) * 2 ^ 20 →
        let w := 2 ^ 160 / q
        let w0 := 2 ^ 160 / (tb.ownU * tb.ownU)
        let x := (p.x * (w : Int) * 2 ^ 31).tdiv ((w0 + w : Nat) : Int)
        Does .ensembleRound s (fun t => t.tu.peers = [{ p with weight := w }] ∧ t.tu.ens.w0 = w0
          ∧ t.tu.changes = s.tu.changes ++ ((0 :: timeDies s).map (fun d => PendingChange.mk d (s.tu.tick + 4096) s.tu.ens.tb (.slewNew x tb.slewPpb)))
              ++ ((0 :: timeDies s).map (fun d => PendingChange.mk d (s.tu.tick + 4096) s.tu.ens.tb (.rate (clampS 32 (heldRate s s.tu.ens.tb + x.tdiv (s.tu.ens.tau * 1000000000))))))
          ∧ (tbAt t s.tu.ens.tb).errEst ^ 2 * (w0 + w) ≤ 2 ^ 160 ∧ KeepsBut [.tu] s t))))

/-! ### The Tally (16) -/

/-- The Tally (16 R491-R515). -/
def Obligations.TallyMeasuresPlansAndLimits : Prop :=
  (∀ (s : State) (mv ma : List Nat) (temps : List (Option Int)), s.pkg.held = false → s.tal.level = 0 → (∀ i : Nat, i < 42 → ∀ v : Int, temps.getD i none = some v → -32768 ≤ v ∧ v < 720) →
    let p (r : Nat) : Nat := (railPower s r mv ma).1
    Does (.sensorSample mv ma temps) s (fun t => t.tal.tEl = s.tal.tEl + 10 ∧ t.tal.eUsed = s.tal.eUsed + (energy t 57 - energy s 57)
      ∧ (∀ r : Nat, r < 48 → energy t r = (energy s r + (sget 0 s.tal.frac r + 10 * p r) / 1000000) % 2 ^ 64 ∧ sget 0 t.tal.frac r = (sget 0 s.tal.frac r + 10 * p r) % 1000000
          ∧ sget 0 t.tal.power r = p r ∧ (r < 32 → outOfReach s (railDie r) = false → p r = mv.getD r 0 * ma.getD r 0)
          ∧ (outOfReach s (railDie r) = true → p r = sget 0 s.tal.power r))
      ∧ (let total := energy s 57 * 1000000 + sget 0 s.tal.frac 57 + 10 * ((upto 48).map p).sum
         total < 2 ^ 64 * 1000000 → energy t 57 * 1000000 + sget 0 t.tal.frac 57 = total)
      ∧ (∀ i : Nat, i < 42 → tempOf t i = if outOfReach s (sensorPlace i).1 then none else temps.getD i none)
      ∧ (∀ c : Nat, c < 16 → rdB t (memBlk c + 4) 29 = match temps.getD (42 + c) none with
          | some v => if rdF s (memBlk c) 7 0 = 0x90 then rdB s (memBlk c + 4) 29 else if 680 < v then true else if v < 640 then false else rdB s (memBlk c + 4) 29
          | none => rdB s (memBlk c + 4) 29)
      ∧ KeepsBut [.regs, .tal] s t)) ∧
  (∀ (s : State) (rpms : List Nat), s.pkg.held = false → s.tal.pending = none → s.tal.level = 0 → s.tal.threat = false → floorMw s ≤ limitMw s → rungOf s ≤ 6 →
    s.tal.plan.fulStop = [] → s.tal.plan.deepGroves = 0 → s.tal.plan.deepLanes = 0 → s.tal.plan.chanMask = 0 → s.tal.plan.subs = [] → s.tal.rungs = [] →
    let len := epochNs s
    let p := epochUj s 57 * 1000000 / len
    let lim := limitMw s
    let above := lim * (100 - s.tal.plan.margin) < p * 100
    let under := p * 100 < lim * (100 - s.tal.plan.margin - s.tal.plan.hyst)
    Does (.epochBoundary rpms) s (fun t => rd t (talBase + 0x10) = rd s (talBase + 0x10) + 1 ∧ t.tal.lastP = p
      ∧ (∀ c : Nat, c < 8 → energy t (48 + c) = (energy s (48 + c) + classUj s len c) % 2 ^ 64)
      ∧ (above → rungOf s < 6 → rungOf t = rungOf s + 1 ∧ rd t (talBase + 0x20) = satInc (rd s (talBase + 0x20)) ∧ t.tal.undoCount = 0)
      ∧ (above → rungOf s = 6 → rungOf t = 6 ∧ t.tal.exhausted = true ∧ (s.tal.exhausted = false → EventFits s 0x0604 2 → ringCount s < 200 → EventPlaced t 0x0604 (word p)))
      ∧ (¬ above → t.tal.exhausted = false ∧ (under → s.tal.plan.hold ≤ s.tal.undoCount + 1 → rungOf t = rungOf s - 1 ∧ t.tal.undoCount = 0)
          ∧ (under → s.tal.undoCount + 1 < s.tal.plan.hold → rungOf t = rungOf s ∧ t.tal.undoCount = s.tal.undoCount + 1)
          ∧ (¬ under → rungOf t = rungOf s ∧ t.tal.undoCount = 0))
      ∧ t.tal.heldAllow = ((upto 8).filter (fun c => 1 ≤ c ∧ s.tal.allow.getD c 0 ≠ 0 ∧ s.tal.allow.getD c 0 * len < classUj s len c * 1000000)).foldl (fun m c => m + 2 ^ c) 0
      ∧ (∀ g : Nat, g < 8 → dieAlive s (8 + g) = true → rd t (dspBlk g + 0x10) = word (255 - (t.tal.heldLadder ||| t.tal.heldAllow) % 256))
      ∧ t.tal.lastRecord.length = 16 ∧ t.tal.lastRecord[2]? = some (word (epochUj s 57))
      ∧ (if rdB s (talBase + 0x18) 31 then
          (t.net.getLast?.map (fun q => (q.op, q.src, q.addr, q.data))) = some (3, 5, (rd s (talBase + 0x14)).toNat + rdF s (talBase + 0x18) 15 0 * 2 ^ 32
            + 64 * ((rd s (talBase + 0x1C)).toNat % 2 ^ rdF s (talBase + 0x18) 20 16), wordsToBytes t.tal.lastRecord) ∧ rd t (talBase + 0x1C) = rd s (talBase + 0x1C) + 1
         else t.net = s.net ∧ rd t (talBase + 0x1C) = rd s (talBase + 0x1C))
      ∧ KeepsBut [.regs, .ward, .tal, .net] s t)) ∧
  (∀ (s : State) (e vout iout status : Nat) (temp : Int), e < 32 → s.pkg.held = false → injArmed s 0 5 = false → (sget {} s.tal.regs e).valid = true → status < 65536 →
    let x := sget {} s.tal.regs e
    (EventFits s 0x0607 2 → Does (.pmbusPoll e true vout iout temp status) s (fun t => sget {} t.tal.regs e = { x with fails := 0, power := some (vout * iout), vout := vout, iout := iout, temp := temp, status := status }
      ∧ (status ≠ 0 → EventPlaced t 0x0607 (word e)) ∧ (e < 16 → rd t (tempReg (42 + e)) = tempWord (some temp))
      ∧ OnlyRegs (fun a => e < 16 ∧ a = tempReg (42 + e)) [.tal] s t)) ∧
    (x.fails < 2 → Does (.pmbusPoll e false vout iout temp status) s (fun t => sget {} t.tal.regs e = { x with fails := x.fails + 1 } ∧ KeepsBut [.tal] s t)) ∧
    (x.fails = 2 → EventFits s 0x0607 2 → Does (.pmbusPoll e false vout iout temp status) s (fun t => sget {} t.tal.regs e = { x with fails := 3, power := none }
      ∧ rd t (talBase + 0x2C) = satInc (rd s (talBase + 0x2C)) ∧ EventPlaced t 0x0607 (word e) ∧ (e < 16 → tempOf t (42 + e) = none)
      ∧ OnlyRegs (fun a => a = talBase + 0x2C ∨ (e < 16 ∧ a = tempReg (42 + e))) [.tal] s t))) ∧
  (∀ (s : State) (f rpm : Nat), f < 8 → s.pkg.held = false → (sget {} s.tal.fans f).enable = true →
    (EventFits s 0x0608 2 → (sget {} s.tal.fans f).fault = false → Does (.fanTachFault f rpm true) s (fun t => (sget {} t.tal.fans f).fault = true ∧ (sget {} t.tal.fans f).rpm = rpm
      ∧ (∀ g : Nat, g < 8 → g ≠ f → (sget {} s.tal.fans g).enable = true → (sget {} t.tal.fans g).duty = 100) ∧ EventPlaced t 0x0608 (word f) ∧ OnlyRegs (fun _ => False) [.tal] s t)) ∧
    Does (.fanTachFault f rpm false) s (fun t => (sget {} t.tal.fans f).fault = false ∧ (sget {} t.tal.fans f).rpm = rpm ∧ KeepsBut [.tal] s t)) ∧
  (∀ (p q : Int × Nat) (l : List (Int × Nat)) (v : Int), v ≤ p.1 * 8 → curve (p :: q :: l) v = p.2) ∧
  (∀ (p q : Int × Nat) (v : Int), p.1 < q.1 → p.1 * 8 < v → v < q.1 * 8 → p.2 ≤ q.2 → p.2 ≤ curve [p, q] v ∧ curve [p, q] v ≤ q.2) ∧
  (∀ (s : State), s.pkg.held = false → s.tal.supply = 2 → s.tal.stale = false → EventFits s 0x0606 2 → Does .supplyTimeout s (fun t => t.tal.stale = true ∧ rdB t talStatus 29 = true
    ∧ EventPlaced t 0x0606 (word (s.tal.tEl / 1000000)) ∧ OnlyRegs (fun a => a ∈ [talStatus, talBase + 4, talBase + 8, talBase + 0xC]) [.tal] s t)) ∧
  (∀ (s : State) (b : Nat) (args : List Word),
    (Serving s b 0x0601 args → s.tal.lastRecord.length = 16 → Does (.nrgInfo b) s (fun t => OnlyAnswer s t
      ∧ Answered t b 0 0 ([rd s talStatus, word (limitMw s), word (floorMw s), word (reservedMw s), word s.tal.plan.base] ++ s.tal.lastRecord))) ∧
    (Serving s b 0x0602 args →
      let r : Req := { booth := b, flags := 0, args := args }
      (∀ o : Nat, planBad r = some o → Does (.nrgPlan b) s (fun t => Answered t b 2 o [] ∧ OnlyAnswer s t)) ∧
      (wordAt args 0 = 0 ∨ 720000 < wordAt args 0 → planBad r = some 0) ∧
      (1 ≤ wordAt args 0 → wordAt args 0 ≤ 720000 → wordAt args 3 < 8 → wordAt args 4 < 100 ∨ 100000 < wordAt args 4 → planBad r = some 16) ∧
      (planBad r = none → (tbAt s (wordAt args 3)).core.run = false → Does (.nrgPlan b) s (fun t => Answered t b 0xC 0x0605 [] ∧ OnlyAnswer s t)) ∧
      (planBad r = none → (tbAt s (wordAt args 3)).core.run = true → floorMw s ≤ limitMw s → s.tal.threat = false → Does (.nrgPlan b) s (fun t => Answered t b 0 0 []
        ∧ t.tal.plan = s.tal.plan
        ∧ (t.tal.pending.map (fun p => (p.pkgLimit, p.base, p.e0Cap, p.tb, p.epochUs))) = some (wordAt args 0, wordAt args 1, wordAt args 2, wordAt args 3, wordAt args 4)
        ∧ (t.tal.pending.map (fun p => (p.margin, p.hyst, p.hold, p.tileCapMin))) = some (nfld (wordAt args 5) 7 0, nfld (wordAt args 5) 15 8, nfld (wordAt args 5) 31 16, nfld (wordAt args 6) 9 0)
        ∧ (t.tal.pending.map (fun p => (p.deepGroves, p.deepLanes, p.chanMask, p.subs.length)))
            = some (nfld (wordAt args 15) 7 0, nfld (wordAt args 15) 11 8, nfld (wordAt args 16) 15 0, nfld (wordAt args 17) 7 0)
        ∧ KeepsBut [.regs, .ward, .tal] s t))) ∧
    (Serving s b 0x0603 args →
      ((∀ c : Nat, c < 8 → 1 ≤ c → wordAt args c ≤ 720000) → Does (.nrgAllow b) s (fun t => Answered t b 0 0 [] ∧ t.tal = { s.tal with allow := (upto 8).map (fun c => wordAt args c) }
        ∧ KeepsBut [.ward, .tal] s t)) ∧
      (720000 < wordAt args 1 → Does (.nrgAllow b) s (fun t => Answered t b 2 4 [] ∧ OnlyAnswer s t))) ∧
    (Serving s b 0x0604 args → wordAt args 0 < 3 → 1 ≤ wordAt args 4 → wordAt args 4 ≤ 600 →
      let a := if wordAt args 1 = 0 then s.tal.plan.pkgLimit else min s.tal.plan.pkgLimit (wordAt args 1)
      let lim := if wordAt args 0 = 2 then min a (wordAt args 2 * 1000000 * 1000 / (if wordAt args 3 = 0 then 600000000 else wordAt args 3 * 1000000)) else a
      let set (t : State) : Prop := (t.tal.supply, t.tal.supplyMw, t.tal.eRem, t.tal.tOut, t.tal.timeout) = (wordAt args 0, wordAt args 1, wordAt args 2, wordAt args 3, wordAt args 4)
        ∧ t.tal.eUsed = 0 ∧ t.tal.tEl = 0 ∧ t.tal.stale = false
      (floorMw s ≤ lim → Does (.nrgSupply b) s (fun t => Answered t b 0 0 [word lim] ∧ set t ∧ t.tal.threat = false ∧ rd t (talBase + 4) = word lim
        ∧ (s.tal.threat = true → EventFits s 0x0603 0 → EventPlaced t 0x0603 (word (floorMw s))) ∧ OnlyRegs (fun a => a ∈ [talStatus, talBase + 4, talBase + 8, talBase + 0xC]) [.tal] s t)) ∧
      (lim < floorMw s → rungOf s = 6 → Does (.nrgSupply b) s (fun t => Answered t b 0 0 [word lim] ∧ set t ∧ t.tal.threat = true
        ∧ (s.tal.threat = false → EventFits s 0x0602 3 → EventPlaced t 0x0602 (word (floorMw s))) ∧ OnlyRegs (fun a => a ∈ [talStatus, talBase + 4, talBase + 8, talBase + 0xC]) [.tal] s t))) ∧
    (Serving s b 0x0605 args →
      ((∀ i : Nat, i < 16 → wordAt args (10 + i) ≤ 720000) → Does (.nrgClassMap b) s (fun t => Answered t b 0 0 []
        ∧ (∀ g : Nat, g < 8 → sget 8 t.tal.fabClass g = nfld (wordAt args 0) (4 * g + 3) (4 * g) ∧ sget 8 t.tal.memClass g = nfld (wordAt args 1) (4 * g + 3) (4 * g))
        ∧ (∀ p : Nat, p < 64 → sget 8 t.tal.peClass p = nfld (wordAt args (2 + p / 8)) (4 * (p % 8) + 3) (4 * (p % 8)))
        ∧ (∀ i : Nat, i < 16 → sget 0 t.tal.fixed (32 + i) = wordAt args (10 + i)) ∧ KeepsBut [.ward, .tal] s t)) ∧
      (720000 < wordAt args 10 → Does (.nrgClassMap b) s (fun t => Answered t b 2 40 [] ∧ OnlyAnswer s t))) ∧
    (∀ e valid master addr page rail : Nat, Serving s b 0x0606 args → e < 32 → valid < 2 → master < 4 → addr < 128 → page < 256 → rail < 64 → wordAt args 0 = e + valid * 2 ^ 8 →
      wordAt args 1 = master + addr * 2 ^ 8 + page * 2 ^ 16 → wordAt args 2 = rail →
      ((32 ≤ rail ∧ rail ≤ 47) ∨ rail = 63 → 5 ≤ wordAt args 3 → wordAt args 3 ≤ 1000 → Does (.nrgRegMap b) s (fun t => Answered t b 0 0 []
        ∧ sget {} t.tal.regs e = { valid := valid = 1, master := master, addr := addr, page := page, rail := rail, pollMs := wordAt args 3 }
        ∧ (∀ m : Nat, m < 32 → m ≠ e → sget {} t.tal.regs m = sget {} s.tal.regs m) ∧ KeepsBut [.ward, .tal] s t)) ∧
      (rail < 32 ∨ (47 < rail ∧ rail ≠ 63) → Does (.nrgRegMap b) s (fun t => Answered t b 2 0x0601 [] ∧ OnlyAnswer s t))) ∧
    (∀ (e code data : Nat) (read ok near : Bool), Serving s b 0x0607 args → e < 32 → code < 256 → wordAt args 0 = e → wordAt args 1 = code + b2n read * 2 ^ 8 →
      let x := sget {} s.tal.regs e
      (x.valid = false → Does (.nrgRegCmd b ok data near) s (fun t => Answered t b 4 0x0606 [] ∧ OnlyAnswer s t)) ∧
      (x.valid = true → (code ∉ [0x01, 0x03, 0x21, 0x79, 0x8B, 0x8C, 0x8D] ∨ (code = 0x03 ∧ read = true) ∨ (0x79 ≤ code ∧ read = false)) → Does (.nrgRegCmd b ok data near) s (fun t =>
        Answered t b 4 0x0602 [] ∧ OnlyAnswer s t)) ∧
      (x.valid = true → code = 0x21 → read = false → near = false → Does (.nrgRegCmd b ok data near) s (fun t => Answered t b 4 0x0603 [] ∧ OnlyAnswer s t)) ∧
      (x.valid = true → ((code ∈ [0x01, 0x21, 0x79, 0x8B, 0x8C, 0x8D] ∧ read = true) ∨ (code ∈ [0x01, 0x03] ∧ read = false) ∨ (code = 0x21 ∧ read = false ∧ near = true ∧ x.rail ≠ 63)) →
        (ok = true → Does (.nrgRegCmd b ok data near) s (fun t => Answered t b 0 0 [word (if read then data % 2 ^ 16 else 0)] ∧ OnlyAnswer s t)) ∧
        (ok = false → Does (.nrgRegCmd b ok data near) s (fun t => Answered t b 9 0x0604 [] ∧ OnlyAnswer s t)))) ∧
    (∀ f on : Nat, Serving s b 0x0608 args → f < 8 → on < 2 → wordAt args 0 = f + on * 2 ^ 8 → wordAt args 3 < 1024 → (∀ i : Nat, i < 4 → nfld (wordAt args (4 + i)) 23 16 ≤ 100 ∧ wordAt args (4 + i) < 2 ^ 24) →
      let deg (i : Nat) : Int := sint 16 (nfld (wordAt args (4 + i)) 15 0)
      (deg 0 < deg 1 → deg 1 < deg 2 → deg 2 < deg 3 → Does (.nrgFanCfg b) s (fun t => Answered t b 0 0 []
        ∧ (let x := sget {} t.tal.fans f
           x.enable = decide (on = 1) ∧ x.mask = wordAt args 1 + wordAt args 2 * 2 ^ 32 + wordAt args 3 * 2 ^ 64
             ∧ x.points = (upto 4).map (fun i => (deg i, nfld (wordAt args (4 + i)) 23 16)) ∧ x.duty = (sget {} s.tal.fans f).duty)
        ∧ (∀ m : Nat, m < 8 → m ≠ f → sget {} t.tal.fans m = sget {} s.tal.fans m) ∧ KeepsBut [.ward, .tal] s t)) ∧
      (deg 1 ≤ deg 0 → Does (.nrgFanCfg b) s (fun t => Answered t b 2 20 [] ∧ OnlyAnswer s t))) ∧
    (Serving s b 0x0609 args →
      (wordAt args 0 = 0 → Does (.nrgRead b) s (fun t => OnlyAnswer s t ∧ Answered t b 0 0 ((upto 48).flatMap (fun r => [lo32 (energy s r), hi32 (energy s r)])))) ∧
      (wordAt args 0 = 1 → Does (.nrgRead b) s (fun t => OnlyAnswer s t ∧ Answered t b 0 0 ((upto 10).flatMap (fun c => [lo32 (energy s (48 + c)), hi32 (energy s (48 + c))])))) ∧
      (wordAt args 0 = 2 → Does (.nrgRead b) s (fun t => OnlyAnswer s t ∧ Answered t b 0 0 ((upto 74).map (fun i => rd s (tempReg i))))) ∧
      (wordAt args 0 = 3 → Does (.nrgRead b) s (fun t => OnlyAnswer s t ∧ Answered t b 0 0 ((upto 8).map (fun f =>
        word ((sget {} s.tal.fans f).rpm % 2 ^ 16 + (sget {} s.tal.fans f).duty * 2 ^ 16 + b2n (sget {} s.tal.fans f).fault * 2 ^ 24))))) ∧
      (4 ≤ wordAt args 0 → Does (.nrgRead b) s (fun t => Answered t b 2 0 [] ∧ OnlyAnswer s t))))

/-! ### Service pins (17) -/

/-- Service pins (17 R516-R532). -/
def Obligations.PinsSwitchFeedAndDrive : Prop :=
  (∀ (s : State) (src : Writer) (oe : Bool) (g : Nat) (v : Word), s.pkg.held = false → g < 6 → Does (.svpMaskedWrite src oe g v) s (fun t =>
    let a := svpBase + (if oe then 0x20 else 0) + 4 * g
    let free (k : Nat) : Bool := !rdB s (svpPin (16 * g + k)) 30
    let may (k : Nat) : Bool := match src with
      | .warden => true
      | .host pf => pf = 0 || (pf = 1 && free k)
      | .station id => isDesign id && free k
      | _ => false
    (∀ k : Nat, k < 16 → rdB t a k = if v.getLsbD (16 + k) ∧ may k then v.getLsbD k else rdB s a k)
    ∧ rdF t a 31 16 = rdF s a 31 16 ∧ KeepsBut [.regs] s t ∧ RegsBut (fun x => x = a) s t)) ∧
  (∀ (s : State) (b n : Nat) (v : Word) (args : List Word), Serving s b 0x0B02 args → args = [1, word n, v] → n < 96 → fld v 29 22 = 0 → fld v 15 13 = 0 → fld v 7 6 = 0 → bit v 2 = false →
    let f := fld v 21 16
    let i := fld v 12 8
    let same := f = pinFunc s n ∧ i = pinIndex s n
    (n < 4 → Does (.pinConfig b) s (fun t => Answered t b 4 0x0B01 [] ∧ OnlyAnswer s t)) ∧
    ((4 ≤ n ∧ f ∈ [1, 4, 0xD, 0xE, 0xF] ∨ 4 ≤ n ∧ 0x13 ≤ f) → Does (.pinConfig b) s (fun t => Answered t b 2 8 [] ∧ OnlyAnswer s t)) ∧
    (∀ m : Nat, 4 ≤ n → (f, m) ∈ [(0, 1), (2, 6), (3, 6), (5, 2), (6, 2), (7, 2), (8, 8), (9, 2), (0xA, 2), (0xB, 8), (0xC, 8), (0x10, 32), (0x11, 16), (0x12, 1)] →
      (m ≤ i → Does (.pinConfig b) s (fun t => Answered t b 2 8 [] ∧ OnlyAnswer s t)) ∧
      (i < m → 0x10 ≤ f → n < 64 → Does (.pinConfig b) s (fun t => Answered t b 4 0x0B02 [] ∧ OnlyAnswer s t)) ∧
      (i < m → f < 0x10 ∨ 64 ≤ n →
        ((classOf b = .user ∨ classOf b = .design) → bit v 30 = true ∨ rdB s (svpPin n) 30 = true → Does (.pinConfig b) s (fun t => Answered t b 4 0x0B03 [] ∧ OnlyAnswer s t)) ∧
        ((classOf b ≠ .user ∧ classOf b ≠ .design) ∨ (bit v 30 = false ∧ rdB s (svpPin n) 30 = false) →
          (¬ same → ((pinFunc s n = 2 ∨ pinFunc s n = 3) ∧ pinIndex s n < 4 ∧ twInUse s (pinIndex s n) = true) ∨ (pinFunc s n = 0x12 ∧ rdF s rootSel 10 8 = 3)
              ∨ (pinFunc s n = 0x10 ∧ chInUse s (pinIndex s n) = true) → Does (.pinConfig b) s (fun t => Answered t b 4 0x0B04 [] ∧ OnlyAnswer s t)) ∧
          (same → pinSwitching s n = false → conflictsNow s = [] → feedOk s 0x12 0 = true → Does (.pinConfig b) s (fun t => Answered t b 0 0 [] ∧ rd t (svpPin n) = setBit v 31 false
            ∧ KeepsBut [.regs, .ward, .pins] s t ∧ RegsBut (fun a => a = svpPin n) s t)) ∧
          (¬ same → pinFunc s n = 0 → pinSwitching s n = false → rdB s svpStatus 1 = false → conflictsNow s = [] → Does (.pinConfig b) s (fun t => Answered t b 0 0 []
            ∧ rd t (svpPin n) = setBit v 31 true ∧ rd t (svpBase + 0x6C) = satInc (rd s (svpBase + 0x6C))
            ∧ (rdB s (svpOe (n / 16)) (n % 16) = true → rdB s (svpPin n) 5 = false → sget false t.pins.keeper n = rdB s (svpOut (n / 16)) (n % 16))
            ∧ KeepsBut [.regs, .ward, .pins, .fresh] s t ∧ RegsBut (fun a => a = svpPin n ∨ a = svpBase + 0x6C) s t)) ∧
          (pinFunc s n = 0 → pinSwitching s n = true → conflictsNow s = [] → feedOk s 0x12 0 = true → Does (.pinConfig b) s (fun t => Answered t b 0 0 []
            ∧ sget none t.pins.waiting n = some v ∧ KeepsBut [.ward, .pins] s t)))))) ∧
  (∀ (s : State) (n : Nat), n < 96 → pinSwitching s n = true →
    (sget none s.pins.waiting n = none → (∀ m : Nat, m < 96 → m ≠ n → (pinFunc s m, pinIndex s m) ≠ (pinFunc s n, pinIndex s n)) → conflictsNow s = [] → feedOk s 0x12 0 = true →
      Does (.pinSwitchEnd n) s (fun t => rd t (svpPin n) = setBit (rd s (svpPin n)) 31 false ∧ t.pins.conflicts = [] ∧ KeepsBut [.regs, .pins] s t ∧ RegsBut (fun a => a = svpPin n) s t)) ∧
    (∀ m : Nat, sget none s.pins.waiting n = none → n < m → m < 96 → pinSwitching s m = false → pinFunc s m = 7 → pinIndex s m = 0 → pinFunc s n = 7 → pinIndex s n = 0 →
      (∀ k : Nat, k < 96 → k ≠ n → k ≠ m → pinFunc s k = 0 ∨ pinFunc s k = 1) → s.pins.conflicts = [] → s.pins.conflictLast = none → EventFits s 0x0B01 1 → rdB s svpStatus 1 = false → Does (.pinSwitchEnd n) s (fun t =>
        rdB t svpStatus 0 = true ∧ rd t (svpBase + 0x64) = word (7 * 2 ^ 16 + m) ∧ rd t (svpBase + 0x68) = satInc (rd s (svpBase + 0x68)) ∧ t.pins.conflicts = [(7, 0)]
        ∧ feedOk t 7 0 = false ∧ EventPlaced t 0x0B01 (word (7 * 2 ^ 16 + m))
        ∧ OnlyRegs (fun a => a ∈ [svpPin n, svpStatus, svpBase + 0x64, svpBase + 0x68]) [.pins] s t))) ∧
  (∀ (s : State) (missing range : Bool), missing = true ∨ range = true → rdB s svpStatus 1 = true → EventFits s 0x0B02 2 → Does (.refOkLoss missing range) s (fun t =>
    rdB t svpStatus 1 = false ∧ EventPlaced t 0x0B02 (word (b2n missing + 2 * b2n range)) ∧ OnlyRegs (fun a => a = svpStatus) [] s t)) ∧
  (∀ (s : State) (p : Nat) (c : Byte), p < 2 → serialGated s = false → feedOk s 0x0A p = true →
    let u := uartAt s p
    (u.rx.length < 1024 → Does (.uartByteReceive p c) s (fun t => uartAt t p = { u with rx := u.rx ++ [if u.cfg.testBit 0 then c else c &&& 0x7F] } ∧ KeepsBut [.pins] s t)) ∧
    (1024 ≤ u.rx.length → u.lost = 0 → EventFits s 0x0B03 1 → Does (.uartByteReceive p c) s (fun t => uartAt t p = { u with lost := 1 } ∧ EventPlaced t 0x0B03 (word p) ∧ OnlyRegs (fun _ => False) [.pins] s t)) ∧
    (1024 ≤ u.rx.length → u.lost ≠ 0 → Does (.uartByteReceive p c) s (fun t => uartAt t p = { u with lost := u.lost + 1 } ∧ KeepsBut [.pins] s t))) ∧
  (∀ (s : State) (b : Nat) (args : List Word),
    (Serving s b 0x0B01 args → Does (.pinInfo b) s (fun t =>
      let l := ((t.ward.taken.find? (fun k => k.booth = b)).map (fun k => k.resp)).getD []
      KeepsBut [.ward, .fresh] s t ∧ Answered t b 0 0 l ∧ l.length = 103 ∧ l.take 97 = rd s svpStatus :: (upto 96).map (fun n => rd s (svpPin n))
        ∧ (∀ n : Nat, n < 96 → ∀ v : Bool, pinDrives s n = some v → (l.getD (97 + n / 16) 0).getLsbD (n % 16) = v))) ∧
    (Serving s b 0x0B03 args →
      (10000000 ≤ wordAt args 0 → wordAt args 0 ≤ 100000000 → Does (.pinRefCfg b) s (fun t => Answered t b 0 0 [] ∧ t.pins = { s.pins with refHz := wordAt args 0 } ∧ KeepsBut [.ward, .pins] s t)) ∧
      (wordAt args 0 < 10000000 ∨ 100000000 < wordAt args 0 → Does (.pinRefCfg b) s (fun t => Answered t b 2 0 [] ∧ OnlyAnswer s t))) ∧
    (∀ (m rate pec w n outcome : Nat) (data : List Byte), Serving s b 0x0B04 args → m < 6 → rate < 3 → pec < 2 → wordAt args 0 = m + rate * 2 ^ 8 + pec * 2 ^ 16 → wordAt args 2 = w + n * 2 ^ 16 → w ≤ 256 → n ≤ 256 →
      (m < 4 → classOf b = .user ∨ classOf b = .design → Does (.pinTwXfer b outcome data) s (fun t => Answered t b 8 0 [] ∧ OnlyAnswer s t)) ∧
      (4 ≤ m ∨ (classOf b ≠ .user ∧ classOf b ≠ .design) →
        (serialGated s = true → Does (.pinTwXfer b outcome data) s (fun t => Answered t b 0xC 0x0B0A [] ∧ OnlyAnswer s t)) ∧
        (serialGated s = false → feedOk s 2 m = false ∨ feedOk s 3 m = false → Does (.pinTwXfer b outcome data) s (fun t => Answered t b 9 0x0B09 [] ∧ OnlyAnswer s t)) ∧
        (serialGated s = false → feedOk s 2 m = true → feedOk s 3 m = true → Does (.pinTwXfer b outcome data) s (fun t =>
          (if outcome = 1 then Answered t b 9 0x0B05 [] else if outcome = 2 then Answered t b 9 0x0B06 [] else if outcome = 3 then Answered t b 9 0x0B07 []
           else if outcome = 4 ∧ pec = 1 then Answered t b 9 0x0B08 [] else Answered t b 0 0 (bytesToWords ((data ++ List.replicate n 0).take n)))
          ∧ sget [] t.pins.sent m = (wordsToBytes (args.drop 3) ++ List.replicate w 0).take w ∧ KeepsBut [.ward, .pins] s t)))) ∧
    (∀ (p cs mode n : Nat) (data : List Byte), Serving s b 0x0B05 args → p < 2 → cs < 4 → mode < 4 → wordAt args 0 = p + cs * 2 ^ 4 + mode * 2 ^ 8 → 2 ≤ wordAt args 1 → wordAt args 1 ≤ 65535 →
      wordAt args 2 = n → 1 ≤ n → n ≤ 1024 →
      (serialGated s = true → Does (.pinSpiXfer b data) s (fun t => Answered t b 0xC 0x0B0A [] ∧ OnlyAnswer s t)) ∧
      (serialGated s = false → spiPins s p cs = false → Does (.pinSpiXfer b data) s (fun t => Answered t b 9 0x0B09 [] ∧ OnlyAnswer s t)) ∧
      (serialGated s = false → carried s 5 p = true → carried s 6 p = true → feedOk s 7 p = true → carried s 8 (4 * p + cs) = true → Does (.pinSpiXfer b data) s (fun t =>
        Answered t b 0 0 (bytesToWords ((data ++ List.replicate n 0).take n)) ∧ sget [] t.pins.sent (8 + p) = (wordsToBytes (args.drop 3) ++ List.replicate n 0).take n
        ∧ sget 0 t.pins.spiMode p = mode ∧ KeepsBut [.ward, .pins] s t))) ∧
    (∀ p cfg : Nat, Serving s b 0x0B06 args → p < 2 → cfg < 16 → nfld cfg 2 1 ≠ 3 → wordAt args 0 = p + cfg * 2 ^ 8 →
      (1 ≤ wordAt args 1 → wordAt args 1 ≤ 65535 → serialGated s = false → Does (.pinUartCfg b) s (fun t => Answered t b 0 0 [] ∧ uartAt t p = { cfg := cfg, divisor := wordAt args 1 } ∧ KeepsBut [.ward, .pins] s t)) ∧
      (wordAt args 1 = 0 ∨ 65535 < wordAt args 1 → Does (.pinUartCfg b) s (fun t => Answered t b 2 4 [] ∧ OnlyAnswer s t))) ∧
    (∀ p n : Nat, Serving s b 0x0B07 args → p < 2 → wordAt args 0 = p → wordAt args 1 = n → n ≤ 1024 → serialGated s = false →
      let u := uartAt s p
      let k := min n (1024 - u.tx.length)
      (carried s 9 p = true → feedOk s 0x0A p = true → Does (.pinUartIo b) s (fun t => Answered t b 0 0 ([word k, word (u.rx.length + b2n (u.lost ≠ 0) * 2 ^ 16)] ++ bytesToWords u.rx)
        ∧ uartAt t p = { u with tx := u.tx ++ (wordsToBytes (args.drop 2) ++ List.replicate k 0).take k, rx := [], lost := 0 } ∧ KeepsBut [.ward, .pins] s t)) ∧
      (uartPins s p = false → Does (.pinUartIo b) s (fun t => Answered t b 9 0x0B09 [] ∧ OnlyAnswer s t))))

/-! ### Debug and run control (18) -/

/-- Debug and run control (18 R533-R559). -/
def Obligations.DebuggersClaimUnlockAndRunTiles : Prop :=
  (∀ (s : State), s.pkg.held = false →
    let owner (t : State) (o : Nat) : Prop := dbgOwner t = o ∧ KeepsBut [.regs] s t ∧ RegsBut (fun a => a = dbgBase) s t
    (dbgOwner s = 0 → Does .dbgClaim s (fun t => owner t 2)) ∧
    (dbgOwner s = 1 → Does .dbgClaim s (fun t => owner t 1 ∧ rdB t dbgBase 27 = true)) ∧
    (dbgOwner s = 2 → Does .dbgRelease s (fun t => owner t 0)) ∧
    (dbgOwner s ≠ 2 → exec .dbgRelease s = .next s) ∧
    (s.dbg.ir = 0x10 → dbgAuth s = 0xD2 ∨ dbgAuth s = 0xD3 →
      (dbgOwner s = 0 → Does (.dbgclaim true) s (fun t => owner t 1)) ∧ (dbgOwner s = 1 → Does (.dbgclaim true) s (fun t => owner t 0)) ∧
      (dbgOwner s = 2 → Does (.dbgclaim true) s (fun t => owner t 2 ∧ rdB t dbgBase 27 = true)) ∧ exec (.dbgclaim false) s = .next s) ∧
    (∀ (op off : Nat) (d : Word), dbgAuth s = 0xD0 ∨ dbgAuth s = 0xD4 → exec (.dbgclaim true) s = .next s ∧ exec (.dbgacc op off d) s = .next s) ∧
    Does .trstN s (fun t => t.dbg.ir = 0x02 ∧ t.dbg.extest = false ∧ KeepsBut [.dbg] s t) ∧
    (∀ (code : Nat) (l : List Bool), code < 256 →
      Does (.tapInstruction false code l) s (fun t => t.dbg.ir = (if code = 1 ∨ code = 2 ∨ (code ∈ [0x00, 0x03, 0x10, 0x11] ∧ (dbgAuth s = 0xD2 ∨ dbgAuth s = 0xD3)) then code else 0xFF)
        ∧ (t.dbg.extest = true ↔ t.dbg.ir = 0 ∨ t.dbg.ir = 3) ∧ KeepsBut [.dbg] s t) ∧
      (s.dbg.ir = 0 ∨ s.dbg.ir = 1 → Does (.tapInstruction true code l) s (fun t => t.dbg = { s.dbg with boundary := l } ∧ KeepsBut [.dbg] s t))) ∧
    (∀ (op off : Nat) (d : Word), s.dbg.ir = 0x11 → dbgAuth s = 0xD2 ∨ dbgAuth s = 0xD3 → off % 4 = 0 → off < 0x10000 →
      (dbgOwner s ≠ 1 → op = 1 ∨ op = 2 → Does (.dbgacc op off d) s (fun t => t.dbg = { s.dbg with accState := 2 } ∧ KeepsBut [.dbg] s t)) ∧
      (dbgOwner s = 1 → op = 1 → Does (.dbgacc op off d) s (fun t => t.dbg.accState = 0 ∧ t.dbg.accData = (regRead 0x006 (boothSlot 62 + off) s).1)) ∧
      (dbgOwner s = 1 → op = 2 → Does (.dbgacc op off d) s (fun t => t.dbg.accState = 0 ∧ t.regs = (regWrite (.debug 1) (boothSlot 62 + off) d s).regs)))) ∧
  (∀ (s : State) (b : Nat) (args : List Word), dbgAuth s ∈ [0xD0, 0xD2, 0xD3, 0xD4] →
    (Serving s b 0x0A01 args → Does (.dbgInfo b) s (fun t => OnlyAnswer s t ∧ Answered t b 0 0 [rd s dbgBase, rd s (dbgBase + 0x14)])) ∧
    (Serving s b 0x0A02 args → dbgAuth s ≠ 0xD4 →
      (wordAt args 0 = 0xD2 ∨ wordAt args 0 = 0xD3 → Does (.dbgChallenge b) s (fun t =>
        let l := ((t.ward.taken.find? (fun k => k.booth = b)).map (fun k => k.resp)).getD []
        Answered t b 0 0 l ∧ l.length = 8 ∧ t.dbg.challenge = some (wordAt args 0, l) ∧ rdB t dbgBase 28 = true ∧ KeepsBut [.regs, .ward, .dbg, .fresh] s t
        ∧ RegsBut (fun a => a = dbgBase) s t)) ∧
      (wordAt args 0 ≠ 0xD2 → wordAt args 0 ≠ 0xD3 → Does (.dbgChallenge b) s (fun t => Answered t b 2 0 [] ∧ OnlyAnswer s t))) ∧
    (Serving s b 0x0A03 args → dbgAuth s ≠ 0xD4 →
      (s.dbg.challenge = none → Does (.dbgUnlock b) s (fun t => Answered t b 4 0x0A02 [] ∧ OnlyAnswer s t)) ∧
      (∀ (level : Nat) (nonce : List Word), s.dbg.challenge = some (level, nonce) → level = 0xD2 ∨ level = 0xD3 → ringCount s < 200 → EventFits s 0x0A01 1 →
        let ok := !keyKnown s || Config.ecdsaOk (setVal s 1) (Config.sha384 (unlockBytes s level nonce)) (args.take 24)
        let new := if dbgAuth s = 0xD3 then 0xD3 else level
        Does (.dbgUnlock b) s (fun t => t.dbg = { s.dbg with challenge := none } ∧ rdB t dbgBase 28 = false ∧
          if ok then Answered t b 0 0 [word new] ∧ dbgAuth t = new ∧ (t.ward.audit.getLast?.map (fun r => (r.kind, r.setting, r.booth, r.old, r.new))) = some (4, 0xFF, b, dbgAuth s, new)
            ∧ (keyKnown s = false → rdB t dbgBase 30 = true) ∧ (dbgAuth s ≠ 0xD3 ∨ level = 0xD3 → EventPlaced t 0x0A01 (word (dbgAuth s))) ∧ OnlyRegs (fun a => a = dbgBase) [.dbg] s t
          else Answered t b 4 0x0A01 [] ∧ dbgAuth t = dbgAuth s ∧ t.ward.audit = s.ward.audit ∧ KeepsBut [.regs, .ward, .dbg] s t))) ∧
    (Serving s b 0x0A04 args → dbgOwner s ≠ 0 → dbgAuth s = 0xD2 ∨ dbgAuth s = 0xD3 → (∀ k : Nat, k < 4096 → (tileAt s k).state = 0x75 → (tileAt s k).item = none ∨ (tileAt s k).halted ≠ 0x75) →
      Does (.dbgLock b) s (fun t => Answered t b 0 0 [] ∧ dbgAuth t = 0xD0 ∧ rdF t dbgBase 7 0 = 0 ∧ t.dbg.wardenHalted = false ∧ t.dbg.stoppedDies = []
        ∧ (∀ g : Nat, g < 8 → rd t (dbgFreeze g) = 0 ∧ rdF t (prbTctrl g) 31 29 = 0 ∧ ∀ w : Nat, w < 16 → rd t (dbgBlk g + 0x200 + 4 * w) = 0)
        ∧ (∀ k : Nat, k < 4096 → (tileAt t k).state ≠ 0x75) ∧ KeepsBut [.regs, .ward, .tiles, .dbg] s t)) ∧
    (∀ a n : Nat, dbgAuth s = 0xD2 ∨ dbgAuth s = 0xD3 → dbgOwner s ≠ 0 → s.dbg.access = none → s.bough.waiting = [] → s.bough.inbox = [] → word64At args 0 = a → a < 2 ^ 48 → a % 4 = 0 →
      wordAt args 2 = n → 4 ≤ n → n ≤ 4096 → n % 4 = 0 → injArmed s 0 7 = false → inSink s 6 = false → 1 ≤ slotsFree s 6 →
      let reach := dbgAuth s = 0xD3 ∨ ∀ i : Nat, i < n / 4 → userReach (a + 4 * i) = true
      (Serving s b 0x0A05 args →
        (dbgAuth s = 0xD2 → wordAt args 3 % 2 = 1 → Does (.dbgRead b) s (fun t => Answered t b 8 0x0A05 [] ∧ OnlyAnswer s t)) ∧
        (wordAt args 3 % 2 = 0 → ¬ reach → Does (.dbgRead b) s (fun t => Answered t b 8 0x0A06 [] ∧ OnlyAnswer s t)) ∧
        (reach → wordAt args 3 % 2 = 0 ∨ dbgAuth s = 0xD3 →
          let dest := if wordAt args 3 % 2 = 0 ∧ inRegWindow a = true then a + 0x800000 else a
          cacheable s 6 1 dest = false →
          (bit (routeOf s 6 (stationOf s dest)) 31 = true → Does (.dbgRead b) s (fun t => Begun t b ∧ (t.dbg.access.map (fun x => (x.write, x.addr, x.left, x.got))) = some (false, a, n / 4, [])
            ∧ t.net.length = s.net.length + 1 ∧ (t.net.getLast?.map (fun p => (p.op, p.src, p.dst, p.addr, p.len, p.prov))) = some (1, 6, stationOf s dest, dest, 4, false)
            ∧ KeepsBut [.regs, .ward, .bough, .net, .dbg] s t)) ∧
          (bit (routeOf s 6 (stationOf s dest)) 31 = false → Does (.dbgRead b) s (fun t => Answered t b 6 0 [] ∧ t.dbg.access = none ∧ t.net = s.net)))) ∧
      (Serving s b 0x0A06 args → (¬ reach → Does (.dbgWrite b) s (fun t => Answered t b 8 0x0A06 [] ∧ OnlyAnswer s t)) ∧
        (reach → cacheable s 6 2 a = false → bit (routeOf s 6 (stationOf s a)) 31 = true → Does (.dbgWrite b) s (fun t => Begun t b
            ∧ (t.dbg.access.map (fun x => (x.write, x.addr, x.left))) = some (true, a, n / 4) ∧ t.net.length = s.net.length + 1
            ∧ (t.net.getLast?.map (fun p => (p.op, p.src, p.dst, p.addr, p.len, p.data))) = some (2, 6, stationOf s a, a, 4, toBytes 4 ((args.drop 3).take (n / 4) |>.headD 0).toNat)
            ∧ KeepsBut [.regs, .ward, .bough, .net, .dbg] s t)))) ∧
    (∀ g mask on : Nat, dbgOwner s ≠ 0 → g < 8 → on < 2 →
      (Serving s b 0x0A08 args → dbgAuth s = 0xD2 ∨ dbgAuth s = 0xD3 → wordAt args 0 = g → wordAt args 1 = mask → mask < 2 ^ 18 → wordAt args 2 = on → dieAlive s (8 + g) = true → EventFits s 0x0A04 1 → rd s (dbgFreeze g) &&& 0x3FFFF = rd s (dbgFreeze g) →
        let v := if on = 1 then rd s (dbgFreeze g) ||| word mask else rd s (dbgFreeze g) &&& ~~~(word mask)
        Does (.dbgFreeze b) s (fun t => Answered t b 0 0 [v] ∧ rd t (dbgFreeze g) = v ∧ (v &&& ~~~(rd s (dbgFreeze g)) ≠ 0 → EventPlaced t 0x0A04 (word g))
          ∧ (bit v 8 = true → bit (rd s (dbgFreeze g)) 8 = false → ∀ k : Nat, k < 512 → haltReq t (g * 512 + k) = true)
          ∧ OnlyRegs (fun a => a = dbgFreeze g ∨ (dbgBlk g + 0x200 ≤ a ∧ a < dbgBlk g + 0x240)) [] s t)) ∧
      (Serving s b 0x0A09 args → dbgAuth s = 0xD2 ∨ dbgAuth s = 0xD3 → wordAt args 0 = mask → mask < 256 → wordAt args 1 = on →
        let v := if on = 1 then (rdF s dbgBase 7 0 ||| mask) else rdF s dbgBase 7 0 &&& (255 - mask)
        Does (.dbgAttach b) s (fun t => Answered t b 0 0 [word v] ∧ rdF t dbgBase 7 0 = v ∧ (∀ h : Nat, h < 8 → dieAlive s (8 + h) = true → rdB t (dbgBlk h + 0x300) 1 = v.testBit h)
          ∧ KeepsBut [.regs, .ward] s t ∧ RegsBut (fun a => a = dbgBase ∨ ∃ h : Nat, h < 8 ∧ a = dbgBlk h + 0x300) s t)) ∧
      (∀ d : Nat, Serving s b 0x0A0A args → dbgAuth s = 0xD3 → wordAt args 0 = d → wordAt args 1 = on →
        (d = 0 ∨ isDie d = false → Does (.dbgDieStop b) s (fun t => Answered t b 2 0 [] ∧ OnlyAnswer s t)) ∧
        (d ≠ 0 → isDie d = true → dieAlive s d = false → Does (.dbgDieStop b) s (fun t => Answered t b 0xE 0 [] ∧ OnlyAnswer s t)) ∧
        (isLaneDie d = true → dieAlive s d = true → EventFits s 0x0A05 1 → Does (.dbgDieStop b) s (fun t => Answered t b 0 0 [word on]
          ∧ t.dbg.stoppedDies.contains d = decide (on = 1) ∧ dieState t d = dieState s d ∧ (s.dbg.stoppedDies.contains d = decide (on = 0) → EventPlaced t 0x0A05 (word d))
          ∧ OnlyRegs (fun _ => False) [.dbg] s t)) ∧
        (∀ c : Nat, c < 16 → d = 8 + c / 2 → dieAlive s d = true → s.dbg.stoppedDies = [] → s.rmc = {} → s.dram = {} → chanState s c = 0x93 → on = 1 → Does (.dbgDieStop b) s (fun t =>
          Answered t b 0 0 [1] ∧ t.dbg.stoppedDies = [d] ∧ chanState t c = 0x94 ∧ dieState t d = dieState s d))) ∧
      (Serving s b 0x0A0B args → dbgAuth s = 0xD3 → wordAt args 0 = on →
        (on = 1 → s.dbg.wardenHalted = false → Does (.dbgWardenHalt b) s (fun t => Answered t b 0 0 [] ∧ t.dbg.wardenHalted = true ∧ rdB t dbgBase 29 = true ∧ KeepsBut [.regs, .ward, .dbg] s t
          ∧ RegsBut (fun a => a = dbgBase) s t)) ∧
        (on = 1 → s.dbg.wardenHalted = true → Does (.dbgWardenHalt b) s (fun t => Answered t b 0xC 0x0A04 [] ∧ OnlyAnswer s t)) ∧
        (on = 0 → s.dbg.wardenHalted = true → Does (.dbgWardenHalt b) s (fun t => Answered t b 0 0 [] ∧ t.dbg.wardenHalted = false ∧ rdB t dbgBase 29 = false
          ∧ (rdB s dbgWardWdog 31 = true → rdF t dbgWardWdog 15 0 = max 1024 (rdF s dbgWardWdog 15 0)) ∧ KeepsBut [.regs, .ward, .dbg] s t))))) ∧
  (∀ (s : State), s.dbg.challenge.isSome = true → Does .dbgChallengeLapse s (fun t => t.dbg.challenge = none ∧ rdB t dbgBase 28 = false ∧ KeepsBut [.regs, .dbg] s t ∧ RegsBut (fun a => a = dbgBase) s t)) ∧
  (∀ (s : State) (k : Nat), k < 4096 → dieAlive s (8 + k / 512) = true → tileFrozen s k = false →
    let g := k / 512
    let x := tileAt s k
    let tiles (t : State) : Prop := ∀ j : Nat, j < 4096 → j ≠ k → tileAt t j = tileAt s j
    (haltDue s k = true → x.results = [] → x.lockBuf = [] → Does (.tileHalt g (k % 512)) s (fun t =>
      let y := tileAt t k
      y.state = 0x75 ∧ y.halted = x.state ∧ y.item = x.item ∧ haltReq t k = false
        ∧ (if x.state = 0x71 ∧ x.locked = true then y.pc = x.lockPc ∧ y.stBroken = true ∧ y.locked = false else y.pc = x.pc ∧ y.regs = x.regs) ∧ tiles t ∧ KeepsBut [.regs, .ward, .tiles, .dbg] s t)) ∧
    (haltDue s k = false → exec (.tileHalt g (k % 512)) s = .next s) ∧
    (∀ (b op : Nat) (args : List Word), Serving s b 0x0A07 args → dbgAuth s = 0xD2 ∨ dbgAuth s = 0xD3 → dbgOwner s ≠ 0 → wordAt args 0 = k → wordAt args 1 = op → op < 3 →
      (op = 0 → x.state = 0x70 → x.stepping = 0 → x.results = [] → x.lockBuf = [] → Does (.dbgTileRun b) s (fun t => Answered t b 0 0 [0x75] ∧ (tileAt t k).state = 0x75 ∧ (tileAt t k).halted = 0x70
        ∧ haltReq t k = false ∧ tiles t ∧ KeepsBut [.regs, .ward, .tiles, .dbg] s t)) ∧
      (op = 0 → x.state ∈ [0x73, 0x74, 0x76, 0x77] → Does (.dbgTileRun b) s (fun t => Answered t b 0 0 [word x.state] ∧ haltReq t k = true ∧ tileAt t k = x ∧ tiles t ∧ KeepsBut [.regs, .ward, .tiles] s t)) ∧
      (op = 1 → x.state = 0x75 → x.item.isSome = true → Does (.dbgTileRun b) s (fun t => Answered t b 0 0 [word x.halted] ∧ (tileAt t k).state = x.halted ∧ (tileAt t k).pc = x.pc ∧ haltReq t k = false
        ∧ (rdB s (tilBlk k + 0xC) 31 = true → x.wdLoad ≠ 0 → (tileAt t k).wd = max 1024 x.wd) ∧ tiles t ∧ KeepsBut [.regs, .ward, .tiles] s t)) ∧
      (op = 2 → x.state = 0x75 → x.item.isSome = true → Does (.dbgTileRun b) s (fun t => Answered t b 0 0 [word x.halted] ∧ (tileAt t k).state = x.halted ∧ haltReq t k = true
        ∧ (tileAt t k).stepping = (if x.halted = 0x71 then 1 else 2) ∧ tiles t ∧ KeepsBut [.regs, .ward, .tiles] s t))) ∧
    (∀ src : Writer, dbgWriter s src = true →
      let w := k % 512 / 32
      let v : Word := word (2 ^ (k % 32))
      (x.state ≠ 0x75 → Does (.dbgHaltReqWrite src g w v) s (fun t => haltReq t k = true ∧ KeepsBut [.regs] s t ∧ RegsBut (fun a => a = dbgBlk g + 0x200 + 4 * w) s t)) ∧
      (x.state = 0x75 → x.item.isSome = true → Does (.dbgResumeWrite src g w v) s (fun t => (tileAt t k).state = x.halted ∧ haltReq t k = false ∧ tiles t ∧ KeepsBut [.regs, .tiles] s t)) ∧
      (x.state = 0x75 → x.item = none → x.saved = none → Does (.dbgResumeWrite src g w v) s (fun t => (tileAt t k).state = 0x70 ∧ haltReq t k = false ∧ tiles t ∧ KeepsBut [.regs, .tiles] s t)) ∧
      (x.state = 0x75 → x.item.isSome = true → Does (.dbgStepWrite src g w v) s (fun t => (tileAt t k).state = x.halted ∧ haltReq t k = true ∧ tiles t ∧ KeepsBut [.regs, .tiles] s t)) ∧
      (x.state ≠ 0x75 → exec (.dbgStepWrite src g w v) s = .next s ∧ exec (.dbgResumeWrite src g w v) s = .next s))) ∧
  (∀ (s : State) (g h : Nat), g < 8 → h < 8 → s.dbg.pulses = [(g, h)] →
    (dieState s (8 + h) = 0x30 → trigReady s h 3 = false → Does (.crossTriggerPulse g h) s (fun t => rdB t (dbgBlk h + 0x300) 2 = true ∧ t.dbg.pulses = [] ∧ KeepsBut [.regs, .dbg] s t
      ∧ RegsBut (fun a => a = dbgBlk h + 0x300) s t)) ∧
    (dieState s (8 + h) = 0x30 → prbArmed s h = true → prbTriggered s h = false → rd s (prbTctrl h) = 0x40000003 → rd s (dbgFreeze h) = 0 → rd s (dbgBlk h + 0x304) = 0x10 → rdB s (prbCtrl h) 1 = true → EventFits s 0x0A04 1 →
      Does (.crossTriggerPulse g h) s (fun t => prbTriggered t h = true ∧ rd t (dbgFreeze h) = 0x10 ∧ EventPlaced t 0x0A04 (word h)
        ∧ OnlyRegs (fun a => a ∈ [dbgBlk h + 0x300, prbStatus h, dbgFreeze h]) [.dbg] s t)))

/-- The host watchdog (18 R554). -/
def Obligations.HostWatchdogCountsWarnsAndResets : Prop :=
  (∀ (s : State), s.pkg.held = false → s.pending = [] → rdB s hostCtrl 31 = true → (∀ d : Nat, d < 16 → ∀ n : Nat, n < 14 → injArmed s d n = false) →
    let count := rdF s hostCount 15 0
    let half := rdF s hostCtrl 15 0 / 2
    let ms : Prop := (s.tu.tick + 1) % 500000 = 0
    (¬ ms → ∃ t : State, step s = .next t ∧ rdF t hostCount 15 0 = count ∧ t.pkg = s.pkg) ∧
    (ms → 2 ≤ count → half < count - 1 ∨ s.dbg.hostWarned = true → ∃ t : State, step s = .next t ∧ rdF t hostCount 15 0 = count - 1 ∧ t.pkg = s.pkg) ∧
    (ms → 2 ≤ count → count - 1 = half → s.dbg.hostWarned = false → ∃ t : State, step s = .next t ∧ rdF t hostCount 15 0 = half ∧ t.dbg.hostWarned = true
      ∧ t.pkg = s.pkg ∧ (s.tiles = [] → ringCount s < 200 → EventFits s 0x0A03 3 → EventPlaced t 0x0A03 (word half))) ∧
    (ms → count ≤ 1 → ∃ t : State, step s = .next t ∧ t.pkg.held = true ∧ t.pkg.causes = 8)) ∧
  (∀ (s : State) (v : Word), s.pkg.held = false → s.dbg.stoppedDies = [] → rdB s hostCtrl 31 = false → bit v 31 = true → 10 ≤ fld v 15 0 →
    Does (.registerWrite (.host 0) hostCtrl 4 v) s (fun t => rdB t hostCtrl 31 = true ∧ rdF t hostCtrl 15 0 = fld v 15 0 ∧ rdF t hostCount 15 0 = fld v 15 0
      ∧ KeepsBut [.regs, .dbg] s t ∧ RegsBut (fun a => a = hostCtrl ∨ a = hostCount) s t)) ∧
  (∀ (s : State) (src : Writer) (v : Word) (a : Nat), src ≠ .host 0 → a = hostCtrl ∨ a = hostCtrl + 4 ∨ a = hostCount →
    Does (.registerWrite src a 4 v) s (fun t => rd t hostCtrl = rd s hostCtrl ∧ rd t hostCount = rd s hostCount ∧ t.dbg = s.dbg ∧ t.pkg = s.pkg)) ∧
  (∀ (s : State), s.pkg.held = false →
    Does (.dbgHostwdKick (.host 0) 0x4B1C) s (fun t => rdF t hostCount 15 0 = rdF s hostCtrl 15 0 ∧ t.dbg.hostWarned = false ∧ KeepsBut [.regs, .dbg] s t ∧ RegsBut (fun a => a = hostCount) s t) ∧
    (∀ (src : Writer) (key : Word), src ≠ .host 0 ∨ key ≠ 0x4B1C → exec (.dbgHostwdKick src key) s = .next s) ∧
    (rdB s hostCtrl 31 = true →
      (s.dbg.hostWarned = false → EventFits s 0x0A03 3 → Does .hostWatchdogHalf s (fun t => EventPlaced t 0x0A03 (word (rdF s hostCtrl 15 0 / 2)) ∧ rdF t hostCount 15 0 = rdF s hostCtrl 15 0 / 2
        ∧ t.dbg.hostWarned = true ∧ OnlyRegs (fun a => a = hostCount) [.dbg] s t)) ∧
      Does .hostWatchdogExpiry s (fun t => t.pkg.held = true ∧ t.pkg.causes = 8 ∧ t.ward.taken = [] ∧ t.tiles = [] ∧ t.pending = s.pending)))

/-! ### Fault injection (19) -/

/-- Fault injection and its commands (19 R560-R573). -/
def Obligations.InjectionPointsArmAndInject : Prop :=
  (∀ (s : State) (b : Nat) (args : List Word),
    (Serving s b 0x0801 args → Does (.rasInfo b) s (fun t => OnlyAnswer s t ∧
      Answered t b 0 0 ([word (if s.ras.on then 0xE1 else 0xE0), word (armedPoints s).length, word s.ras.sramCorr, word s.ras.sramUncorr]
        ++ (upto 16).flatMap (fun d => [word (sget 0 s.ras.corr d), word (sget 0 s.ras.uncorr d)])))) ∧
    (∀ cause : Nat, Does (.packageReset cause) s (fun t => t.ras.on = false ∧ armedPoints t = [])) ∧
    (∀ (c : Instr) (op : Nat) (on : Bool), (c, op, on) ∈ [(Instr.rasInjEnable b, 0x0802, true), (Instr.rasInjDisable b, 0x0803, false),
        (Instr.rasInject b, 0x0804, false), (Instr.rasInjDisarm b, 0x0805, false), (Instr.rasInjRead b, 0x0806, false)] → Serving s b op args → s.ras.on = on →
      Does c s (fun t => Answered t b 3 0 [] ∧ OnlyAnswer s t ∧ ∀ k ∈ t.ward.taken, k.booth = b → k.phase = .answered → k.status = 3 → k.state = (if on then 0xE1 else 0xE0))) ∧
    (Serving s b 0x0802 args → s.ras.on = false →
      (b = 62 → dbgAuth s ≠ 0xD3 → Does (.rasInjEnable b) s (fun t => Answered t b 8 0 [] ∧ OnlyAnswer s t)) ∧
      (b ≠ 62 ∨ dbgAuth s = 0xD3 → ringCount s < 200 → EventFits s 0x0803 1 → Does (.rasInjEnable b) s (fun t => Answered t b 0 0 [] ∧ t.ras = { s.ras with on := true }
        ∧ (t.ward.audit.getLast?.map (fun r => (r.kind, r.setting, r.booth, r.old, r.new))) = some (4, 0xFF, b, 0xE0, 0xE1)
        ∧ EventPlaced t 0x0803 0xE1 ∧ OnlyRegs (fun _ => False) [.ras] s t))) ∧
    (Serving s b 0x0803 args → s.ras.on = true →
      (b = 62 → dbgAuth s ≠ 0xD3 → Does (.rasInjDisable b) s (fun t => Answered t b 8 0 [] ∧ OnlyAnswer s t)) ∧
      (b ≠ 62 ∨ dbgAuth s = 0xD3 → ringCount s < 200 → EventFits s 0x0803 1 → Does (.rasInjDisable b) s (fun t => Answered t b 0 0 [word (armedPoints s).length] ∧ t.ras = { s.ras with on := false }
        ∧ armedPoints t = [] ∧ (∀ x ∈ allPoints, rdF t (injPt x.1 x.2) 30 0 = rdF s (injPt x.1 x.2) 30 0)
        ∧ (t.ward.audit.getLast?.map (fun r => (r.kind, r.setting, r.booth, r.old, r.new))) = some (4, 0xFF, b, 0xE1, 0xE0)
        ∧ EventPlaced t 0x0803 0xE0 ∧ OnlyRegs (fun a => ∃ x ∈ allPoints, a = injPt x.1 x.2) [.ras] s t)))) ∧
  (∀ (s : State) (b d n op : Nat) (args : List Word), s.ras.on = true → d < 16 → n < 256 → op = 0x0804 ∨ op = 0x0805 ∨ op = 0x0806 → Serving s b op args →
    (wordAt args 0 = d + n * 256 ∨ (op = 0x0804 ∧ wordAt args 0 = d + n * 256 + 65536)) →
    let c : Instr → Prop := fun i => (op = 0x0804 ∧ i = .rasInject b) ∨ (op = 0x0805 ∧ i = .rasInjDisarm b) ∨ (op = 0x0806 ∧ i = .rasInjRead b)
    let no (st detail : Nat) : Prop := ∀ i : Instr, c i → Does i s (fun t => Answered t b st detail [] ∧ OnlyAnswer s t)
    (pointsOf d ≤ n → no 2 0x0801) ∧
    (n < pointsOf d → op ≠ 0x0804 → pointAbsent s d = true → no 0xE 0) ∧
    (n < pointsOf d → op = 0x0805 → pointAbsent s d = false → Does (.rasInjDisarm b) s (fun t => Answered t b 0 0 [rd s (injPt d n + 12)]
      ∧ rd t (injPt d n) = setBit (rd s (injPt d n)) 31 false ∧ KeepsBut [.regs, .ward] s t ∧ RegsBut (fun a => a = injPt d n) s t)) ∧
    (n < pointsOf d → op = 0x0806 → pointAbsent s d = false → Does (.rasInjRead b) s (fun t => OnlyAnswer s t
      ∧ Answered t b 0 0 ((upto 8).map (fun i => rd s (injPt d n + 4 * i))))) ∧
    (∀ ctrl target pattern : Word, n < pointsOf d → op = 0x0804 → (args.drop 1).take 3 = [ctrl, target, pattern] →
      let open1 : Prop := wordAt args 0 = d + n * 256
      let good : Prop := fld ctrl 27 24 ≤ 4 ∧ fld ctrl 15 0 ≠ 0 ∧ targetListed d n target.toNat = true ∧ patternListed d n pattern.toNat = true
      let may : Prop := b ≠ 62 ∨ dbgAuth s = 0xD3 ∨ (dbgAuth s = 0xD2 ∧ d ≠ 0)
      let fits : Prop := open1 → disruptive s d n (fld ctrl 27 24) target.toNat pattern.toNat = false
      let free : Prop := open1 → targetTouched s d n target.toNat = false
      (4 < fld ctrl 27 24 ∨ fld ctrl 15 0 = 0 → no 2 4) ∧
      (fld ctrl 27 24 ≤ 4 → fld ctrl 15 0 ≠ 0 → targetListed d n target.toNat = false → no 2 8) ∧
      (fld ctrl 27 24 ≤ 4 → fld ctrl 15 0 ≠ 0 → targetListed d n target.toNat = true → patternListed d n pattern.toNat = false → no 2 12) ∧
      (good → ¬ may → no 8 0) ∧
      (good → may → ¬ fits → no 4 0x0802) ∧
      (good → may → fits → rdB s (injPt d n) 31 = true → no 4 0x0803) ∧
      (good → may → fits → rdB s (injPt d n) 31 = false → ¬ free → no 4 0x0804) ∧
      (good → may → fits → rdB s (injPt d n) 31 = false → free → pointAbsent s d = true → no 0xE 0) ∧
      (good → may → fits → rdB s (injPt d n) 31 = false → free → pointAbsent s d = false → Does (.rasInject b) s (fun t => Answered t b 0 0 [0]
        ∧ rdB t (injPt d n) 31 = true ∧ rdF t (injPt d n) 27 24 = fld ctrl 27 24 ∧ rdF t (injPt d n) 15 0 = fld ctrl 15 0 ∧ rdF t (injPt d n) 30 28 = 0 ∧ rdF t (injPt d n) 23 16 = 0
        ∧ rd t (injPt d n + 4) = target ∧ rd t (injPt d n + 8) = pattern ∧ rd t (injPt d n + 12) = 0 ∧ rd t (injPt d n + 16) = rd s (injPt d n + 16)
        ∧ (∀ k : Nat, k < 3 → rd t (injPt d n + 20 + 4 * k) = 0) ∧ whereUsed t d n = [] ∧ t.ras.on = true
        ∧ KeepsBut [.regs, .ward, .ras] s t ∧ RegsBut (fun a => injPt d n ≤ a ∧ a < injPt d n + 32) s t)))) ∧
  (∀ (s : State) (d n : Nat), d < 16 → n < pointsOf d →
    let made := rdF s (injPt d n + 12) 15 0
    let k := rdF s (injPt d n) 15 0
    let m := rdF s (injPt d n) 27 24
    let since := sget 0 s.ras.since (ptKey d n) + 1
    let r := inject d n s
    let ends : Prop := rdB r.2 (injPt d n) 31 = false ∧ rdB r.2 (injPt d n + 12) 31 = true ∧ (EventFits s 0x0802 0 → EventPlaced r.2 0x0802 (word (d + n * 256)))
    let goesOn : Prop := rd r.2 (injPt d n) = rd s (injPt d n) ∧ rdB r.2 (injPt d n + 12) 31 = rdB s (injPt d n + 12) 31
    (rdB s (injPt d n) 31 = false ∨ m = 0 ∨ 4 < m → r = (false, s)) ∧
    (rdB s (injPt d n) 31 = true → 1 ≤ m → m ≤ 4 →
      (m = 3 → 0 < k → since % k ≠ 0 → r.1 = false ∧ r.2.regs = s.regs) ∧
      (m = 1 ∨ (m = 2 ∧ k ≤ min 65535 (made + 1)) → r.1 = true ∧ ends) ∧
      ((m = 2 ∧ min 65535 (made + 1) < k) ∨ m = 4 ∨ (m = 3 ∧ 0 < k ∧ since % k = 0) → r.1 = true ∧ goesOn) ∧
      (r.1 = true → rdF r.2 (injPt d n + 12) 15 0 = min 65535 (made + 1)) ∧
      sget 0 r.2.ras.since (ptKey d n) = since ∧ OnlyRegs (fun a => a = injPt d n ∨ a = injPt d n + 12) [.ras] s r.2))

/-! ### The whole device -/

/-- Every step completes and keeps the invariant; the queue loses its front command and nothing else. -/
def Obligations.EveryStepCompletesAndKeepsTheForm : Prop :=
  ∀ s : State, Formed s → ∃ t : State, step s = .next t ∧ Formed t ∧ t.pending = s.pending.tail

/-- What reset leaves (the register tables of 01-19). -/
def Obligations.ResetLeavesTheStatedValues : Prop :=
  let s := State.reset
  Formed s ∧ s.pending = [] ∧ s.pkg.held = true ∧ s.net = [] ∧ s.mem = [] ∧ s.ras.on = false ∧
  rdF s wdnBase 31 16 = 0x8512 ∧ rdF s wdnBase 7 0 = 0x21 ∧ sysState s = 0x10 ∧
  rd s (clkBase + 4) = 0 ∧ rdF s cfgBase 23 16 = 1 ∧ rdF s hostCtrl 15 0 = 1000 ∧
  (∀ g : Nat, g < 8 → dieState s (8 + g) = 0x33
    ∧ (∀ c : Nat, c < 16 → rdF s (cfgGrv g + 4 * c) 7 0 = 0x40) ∧ rdF s (cfgGrv g + 0x40) 7 0 = 0x40
    ∧ rd s (dspBlk g) = 8 ∧ rdF s (dspBlk g + 0x10) 7 0 = 0xFF ∧ rdF s (dspBlk g + 0x14) 9 0 = 512
    ∧ (∀ k : Nat, k < 4 → rdF s (dspBlk g + 0x100 + 8 * k) 15 0 = 250)
    ∧ rdF s (rmcBlk g) 1 0 = 3 ∧ rdF s (stnCfg (2053 + 256 * g)) 15 8 = 64 ∧ rdF s (lnkBlk (8 + g) 0) 23 16 = 0x60 ∧ rdF s (ptrBlk (2064 + 256 * g) + 4) 7 0 = 0x85
    ∧ (∀ r : Nat, r < 8 → rgnState s g r = 0xA0)) ∧
  (∀ l : Nat, l < 4 → dieState s (1 + l) = 0x33 ∧ rd s (injPt (1 + l) 5) = 1) ∧
  (∀ c : Nat, c < 16 → chanState s c = 0x90 ∧ rdF s (memBlk c + 0xC) 26 16 = 256) ∧
  (∀ t : Nat, t < 64 → (tileAt s (t * 65)).state = 0x70 ∧ rdF s (tilBlk (t * 65) + 8) 15 0 = 0xFFFF)
end

