-- ==== Sys2Proof/Laws/Bits.lean ====
section
/-!
SUPPORT. Laws of bit fields: what a register word reads as after one of its fields or bits has been replaced.
-/
namespace Sys2Proof.Machine

theorem nfld_testBit (n hi lo i : Nat) : (nfld n hi lo).testBit i = (decide (i < hi - lo + 1) && n.testBit (lo + i)) := by
  rw [nfld, Nat.testBit_mod_two_pow, Nat.testBit_shiftRight]

theorem split_field (n hi lo : Nat) (h : lo ≤ hi) :
    n = n % 2 ^ lo + 2 ^ lo * (nfld n hi lo + 2 ^ (hi - lo + 1) * (n / 2 ^ (hi + 1))) := by
  have h1 : n / 2 ^ (hi + 1) = n / 2 ^ lo / 2 ^ (hi - lo + 1) := by
    rw [Nat.div_div_eq_div_mul, ← Nat.pow_add]; congr 2; omega
  rw [h1, nfld, Nat.shiftRight_eq_div_pow, Nat.mod_add_div, Nat.mod_add_div]

theorem put_testBit (n hi lo v i : Nat) (h : lo ≤ hi) :
    (n - nfld n hi lo * 2 ^ lo + v % 2 ^ (hi - lo + 1) * 2 ^ lo).testBit i
      = if lo ≤ i ∧ i ≤ hi then v.testBit (i - lo) else n.testBit i := by
  have hs := split_field n hi lo h
  have e : n - nfld n hi lo * 2 ^ lo + v % 2 ^ (hi - lo + 1) * 2 ^ lo
      = 2 ^ lo * (2 ^ (hi - lo + 1) * (n / 2 ^ (hi + 1)) + v % 2 ^ (hi - lo + 1)) + n % 2 ^ lo := by
    generalize n / 2 ^ (hi + 1) = q at *
    generalize nfld n hi lo = f at *
    generalize v % 2 ^ (hi - lo + 1) = u at *
    generalize n % 2 ^ lo = a at *
    generalize 2 ^ (hi - lo + 1) * q = z at *
    rw [Nat.mul_add] at hs
    rw [Nat.mul_add, Nat.mul_comm f, Nat.mul_comm u]; omega
  rw [e, Nat.testBit_two_pow_mul_add _ (Nat.mod_lt _ (Nat.two_pow_pos lo)),
    Nat.testBit_two_pow_mul_add _ (Nat.mod_lt _ (Nat.two_pow_pos _))]
  by_cases h1 : i < lo
  · have : ¬ (lo ≤ i ∧ i ≤ hi) := by omega
    simp [h1, this, Nat.testBit_mod_two_pow]
  · simp only [h1, if_false]
    by_cases h2 : i - lo < hi - lo + 1
    · have : lo ≤ i ∧ i ≤ hi := by omega
      simp [h2, this, Nat.testBit_mod_two_pow]
    · have : ¬ (lo ≤ i ∧ i ≤ hi) := by omega
      simp only [h2, if_false, this]
      rw [← Nat.shiftRight_eq_div_pow, Nat.testBit_shiftRight]
      congr 1; omega

theorem setFld_testBit (w : Word) (hi lo v i : Nat) (h : lo ≤ hi) (h32 : hi < 32) :
    (setFld w hi lo v).toNat.testBit i = if lo ≤ i ∧ i ≤ hi then v.testBit (i - lo) else w.toNat.testBit i := by
  unfold setFld fld
  rw [BitVec.toNat_ofNat, Nat.testBit_mod_two_pow, put_testBit _ _ _ _ _ h]
  split
  · have : i < 32 := by omega
    simp [this]
  · by_cases hi' : i < 32
    · simp [hi']
    · have hb : w.toNat.testBit i = false :=
        Nat.testBit_lt_two_pow (Nat.lt_of_lt_of_le w.isLt (Nat.pow_le_pow_right (by omega) (by omega)))
      simp [hi', hb]

/-- A field just written reads as what was written, cut to its width. -/
theorem fld_setFld_same (w : Word) (hi lo v : Nat) (h : lo ≤ hi) (h32 : hi < 32) :
    fld (setFld w hi lo v) hi lo = v % 2 ^ (hi - lo + 1) := by
  apply Nat.eq_of_testBit_eq; intro i
  rw [fld, nfld_testBit, setFld_testBit w hi lo v _ h h32, Nat.testBit_mod_two_pow]
  by_cases h1 : i < hi - lo + 1
  · have : lo ≤ lo + i ∧ lo + i ≤ hi := by omega
    simp [h1, this]
  · simp [h1]

/-- A field reads as before when another, disjoint one was written. -/
theorem fld_setFld_other (w : Word) (hi lo v hi' lo' : Nat) (h : lo ≤ hi) (h32 : hi < 32) (h' : lo' ≤ hi')
    (hd : hi' < lo ∨ hi < lo') : fld (setFld w hi lo v) hi' lo' = fld w hi' lo' := by
  apply Nat.eq_of_testBit_eq; intro i
  rw [fld, fld, nfld_testBit, nfld_testBit, setFld_testBit w hi lo v _ h h32]
  by_cases h1 : i < hi' - lo' + 1
  · have : ¬ (lo ≤ lo' + i ∧ lo' + i ≤ hi) := by omega
    simp [this]
  · simp [h1]

/-- A bit reads as before when a field it is not in was written. -/
theorem bit_setFld_other (w : Word) (hi lo v i : Nat) (h : lo ≤ hi) (h32 : hi < 32) (hd : i < lo ∨ hi < i) :
    bit (setFld w hi lo v) i = bit w i := by
  have : ¬ (lo ≤ i ∧ i ≤ hi) := by omega
  simp [bit, setFld_testBit w hi lo v i h h32, this]

/-- A bit of a field just written reads as the bit of what was written. -/
theorem bit_setFld_in (w : Word) (hi lo v i : Nat) (h32 : hi < 32) (hl : lo ≤ i) (hh : i ≤ hi) :
    bit (setFld w hi lo v) i = v.testBit (i - lo) := by
  simp [bit, setFld_testBit w hi lo v i (by omega) h32, hl, hh]

@[simp] theorem bit_setBit_same (w : Word) (i : Nat) (b : Bool) (h : i < 32) : bit (setBit w i b) i = b := by
  rw [setBit, bit_setFld_in w i i _ i h (Nat.le_refl _) (Nat.le_refl _)]
  cases b <;> simp

theorem bit_setBit_other (w : Word) (i j : Nat) (b : Bool) (h : i < 32) (hd : j ≠ i) :
    bit (setBit w i b) j = bit w j :=
  bit_setFld_other w i i _ j (Nat.le_refl _) h (by omega)

theorem fld_setBit_other (w : Word) (i : Nat) (b : Bool) (hi lo : Nat) (h : i < 32) (h' : lo ≤ hi)
    (hd : hi < i ∨ i < lo) : fld (setBit w i b) hi lo = fld w hi lo :=
  fld_setFld_other w i i _ hi lo (Nat.le_refl _) h h' (by omega)

/-- A field fits its width. -/
theorem fld_lt (w : Word) (hi lo : Nat) : fld w hi lo < 2 ^ (hi - lo + 1) := Nat.mod_lt _ (Nat.two_pow_pos _)

theorem nfld_full (n : Nat) (h : n < 2 ^ 32) : nfld n 31 0 = n := by
  rw [nfld, Nat.shiftRight_zero]; exact Nat.mod_eq_of_lt h

/-- Counting stops at all ones (00 R9). -/
theorem satInc_toNat (w : Word) : (satInc w).toNat = min (w.toNat + 1) (2 ^ 32 - 1) := by
  unfold satInc
  split
  · subst_vars; rfl
  · rename_i h
    have h1 : w.toNat ≠ 2 ^ 32 - 1 := fun e => h (BitVec.eq_of_toNat_eq (by simpa using e))
    have h2 := w.isLt
    have h3 : (1 : Word).toNat = 1 := rfl
    rw [BitVec.toNat_add, h3]; omega

end Sys2Proof.Machine
end

