-- ==== Sys2Proof/Laws/Sparse.lean ====
section
/-!
SUPPORT. Laws of sparse maps: reading after an update, and that every update keeps the canonical form.
-/
namespace Sys2Proof.Machine

variable {α β : Type}

/-! ### Reading after an update -/

@[simp] theorem sget_nil (d : α) (n : Nat) : sget d [] n = d := rfl

theorem sget_sput (d : α) (m : List (Nat × α)) (n k : Nat) (v : α) :
    sget d (sput m n v) k = if k = n then v else sget d m k := by
  induction m with
  | nil => rfl
  | cons e r ih =>
    obtain ⟨j, w⟩ := e
    unfold sput
    split
    · rfl
    · split
      · subst_vars; simp only [sget]; split <;> rfl
      · simp only [sget, ih]; split <;> split <;> first | rfl | omega

theorem sget_filter_key (d : α) (m : List (Nat × α)) (p : Nat → Bool) (k : Nat) :
    sget d (m.filter (fun e => p e.1)) k = if p k then sget d m k else d := by
  induction m with
  | nil => simp
  | cons e r ih =>
    obtain ⟨j, w⟩ := e
    by_cases hp : p j = true
    · rw [List.filter_cons_of_pos (by simpa using hp)]
      simp only [sget, ih]
      split
      · subst_vars; simp [hp]
      · rfl
    · rw [List.filter_cons_of_neg (by simpa using hp), ih]
      simp only [sget]
      split
      · split
        · subst_vars; contradiction
        · rfl
      · rfl

theorem sget_sdel (d : α) (m : List (Nat × α)) (n k : Nat) :
    sget d (sdel m n) k = if k = n then d else sget d m k := by
  rw [sdel, sget_filter_key d m (fun j => j != n)]
  by_cases h : k = n <;> simp [h]

theorem sget_sdrop (d : α) (m : List (Nat × α)) (p : Nat → Bool) (k : Nat) :
    sget d (sdrop m p) k = if p k then d else sget d m k := by
  rw [sdrop, sget_filter_key d m (fun j => !p j)]
  cases p k <;> simp

/-- The keys of a map. -/
theorem srising_iff (m : List (Nat × α)) : srising m = true ↔ (m.map (·.1)).Pairwise (· < ·) := by
  induction m with
  | nil => simp [srising]
  | cons e r ih =>
    obtain ⟨k, v⟩ := e
    cases r with
    | nil => simp [srising]
    | cons e' r' =>
      obtain ⟨k', w⟩ := e'
      simp only [srising, Bool.and_eq_true, decide_eq_true_eq, ih, List.map_cons, List.pairwise_cons]
      constructor
      · rintro ⟨h, h1, h2⟩
        refine ⟨?_, h1, h2⟩
        intro a ha
        rcases List.mem_cons.mp ha with rfl | ha
        · exact h
        · exact Nat.lt_trans h (h1 a ha)
      · rintro ⟨h, h1, h2⟩
        exact ⟨h k' (by simp), h1, h2⟩


variable [DecidableEq α]

@[simp] theorem sget_sset_same (d : α) (m : List (Nat × α)) (n : Nat) (v : α) : sget d (sset d m n v) n = v := by
  unfold sset; split
  · rw [sget_sdel]; simp [*]
  · rw [sget_sput]; simp

theorem sget_sset_other (d d' : α) (m : List (Nat × α)) {n k : Nat} (v : α) (h : k ≠ n) :
    sget d (sset d' m n v) k = sget d m k := by
  unfold sset; split
  · rw [sget_sdel]; simp [h]
  · rw [sget_sput]; simp [h]

theorem sget_sset (d : α) (m : List (Nat × α)) (n k : Nat) (v : α) :
    sget d (sset d m n v) k = if k = n then v else sget d m k := by
  by_cases h : k = n
  · subst h; simp
  · simp [h, sget_sset_other d d m v h]

theorem sget_smod (d : α) (m : List (Nat × α)) (n k : Nat) (f : α → α) :
    sget d (smod d m n f) k = if k = n then f (sget d m n) else sget d m k := by
  rw [smod, sget_sset]

/-! ### The canonical form -/

theorem swf_iff (d : α) (m : List (Nat × α)) :
    swf d m = true ↔ (m.map (·.1)).Pairwise (· < ·) ∧ ∀ e ∈ m, e.2 ≠ d := by
  simp [swf, srising_iff]

@[simp] theorem swf_nil (d : α) : swf d ([] : List (Nat × α)) = true := rfl

theorem swf_filter (d : α) (m : List (Nat × α)) (p : Nat × α → Bool) (h : swf d m = true) :
    swf d (m.filter p) = true := by
  rw [swf_iff] at *
  refine ⟨?_, fun e he => h.2 e (List.mem_filter.mp he).1⟩
  exact h.1.sublist (List.Sublist.map _ List.filter_sublist)

theorem swf_sdel (d : α) (m : List (Nat × α)) (n : Nat) (h : swf d m = true) : swf d (sdel m n) = true :=
  swf_filter d m _ h

theorem swf_sdrop (d : α) (m : List (Nat × α)) (p : Nat → Bool) (h : swf d m = true) : swf d (sdrop m p) = true :=
  swf_filter d m _ h

omit [DecidableEq α] in
theorem mem_keys_sput (m : List (Nat × α)) (n : Nat) (v : α) (k : Nat) (hk : k ∈ (sput m n v).map (·.1)) :
    k = n ∨ k ∈ m.map (·.1) := by
  induction m with
  | nil => simpa [sput] using hk
  | cons e r ih =>
    obtain ⟨j, w⟩ := e
    unfold sput at hk
    split at hk
    · simpa using hk
    · split at hk
      · subst_vars; simp at hk ⊢; omega
      · simp only [List.map_cons, List.mem_cons] at hk ⊢
        rcases hk with h | h
        · exact .inr (.inl h)
        · rcases ih h with h | h
          · exact .inl h
          · exact .inr (.inr h)

omit [DecidableEq α] in
theorem rising_sput (m : List (Nat × α)) (n : Nat) (v : α) (h : (m.map (·.1)).Pairwise (· < ·)) :
    ((sput m n v).map (·.1)).Pairwise (· < ·) := by
  induction m with
  | nil => simp [sput]
  | cons e r ih =>
    obtain ⟨j, w⟩ := e
    rw [List.map_cons, List.pairwise_cons] at h
    unfold sput
    split
    · rename_i hn
      simp only [List.map_cons, List.pairwise_cons]
      refine ⟨?_, h⟩
      intro a ha
      rcases List.mem_cons.mp ha with rfl | ha
      · exact hn
      · exact Nat.lt_trans hn (h.1 a ha)
    · split
      · subst_vars
        rw [List.map_cons, List.pairwise_cons]; exact h
      · rename_i h1 h2
        rw [List.map_cons, List.pairwise_cons]
        refine ⟨?_, ih h.2⟩
        intro a ha
        rcases mem_keys_sput r n v a ha with rfl | ha
        · omega
        · exact h.1 a ha

omit [DecidableEq α] in
theorem vals_sput (d : α) (m : List (Nat × α)) (n : Nat) (v : α) (hv : v ≠ d) (h : ∀ e ∈ m, e.2 ≠ d) :
    ∀ e ∈ sput m n v, e.2 ≠ d := by
  induction m with
  | nil => simpa [sput] using hv
  | cons e r ih =>
    obtain ⟨j, w⟩ := e
    have hr : ∀ e ∈ r, e.2 ≠ d := fun e he => h e (List.mem_cons_of_mem _ he)
    have hw := h (j, w) (by simp)
    unfold sput
    split
    · intro e he
      rcases List.mem_cons.mp he with rfl | he
      · exact hv
      · exact h e he
    · split
      · intro e he
        rcases List.mem_cons.mp he with rfl | he
        · exact hv
        · exact hr e he
      · intro e he
        rcases List.mem_cons.mp he with rfl | he
        · exact hw
        · exact ih hr e he

theorem swf_sset (d : α) (m : List (Nat × α)) (n : Nat) (v : α) (h : swf d m = true) : swf d (sset d m n v) = true := by
  unfold sset; split
  · exact swf_sdel d m n h
  · rename_i hv
    rw [swf_iff] at *
    exact ⟨rising_sput m n v h.1, vals_sput d m n v hv h.2⟩

theorem swf_smod (d : α) (m : List (Nat × α)) (n : Nat) (f : α → α) (h : swf d m = true) : swf d (smod d m n f) = true :=
  swf_sset d m n _ h

theorem swf_smapAll (d : α) (m : List (Nat × α)) (f : Nat → α → α) (h : swf d m = true) :
    swf d (smapAll d m f) = true := by
  rw [swf_iff] at *
  refine ⟨?_, ?_⟩
  · refine List.Pairwise.sublist (List.Sublist.map _ List.filter_sublist) ?_
    rw [List.map_map]; exact h.1
  · intro e he
    simpa using (List.mem_filter.mp he).2

end Sys2Proof.Machine
end

