-- ==== Sys2Proof/Laws/Memory.lean ====
section
/-!
SUPPORT. Tile memory: every operation keeps its canonical form; what a byte reads as after a store.
-/
namespace Sys2Proof.Machine

/-- The store of a list of bytes, as its fold goes on. -/
theorem wf_fold (l : List Byte) (m : Sparse Byte) (a : Nat) (h : Memory.wf m = true) :
    Memory.wf (l.foldl (fun (m : List (Nat × Byte) × Nat) b => (sset 0 m.1 m.2 b, m.2 + 1)) (m, a)).1 = true := by
  induction l generalizing m a with
  | nil => exact h
  | cons b r ih => exact ih _ _ (swf_sset 0 m a b h)

theorem memPut_wf (a : Nat) (l : List Byte) (s : State) (h : Memory.wf s.mem = true) : Memory.wf (memPut a l s).mem = true :=
  wf_fold l s.mem a h

/-- A die reset of a grove keeps the form. -/
theorem tilesReset_wf (g : Nat) (s : State) (h : Memory.wf s.mem = true) : Memory.wf (tilesReset g s).mem = true :=
  let base := 0x020000000000 + g * 0x40000000
  swf_sdrop 0 s.mem (fun a => decide (base ≤ a ∧ a < base + 0x4000000)) h

theorem sget_fold (l : List Byte) (m : Sparse Byte) (a k : Nat) :
    sget 0 (l.foldl (fun (m : List (Nat × Byte) × Nat) b => (sset 0 m.1 m.2 b, m.2 + 1)) (m, a)).1 k
      = if a ≤ k ∧ k < a + l.length then l.getD (k - a) 0 else sget 0 m k := by
  induction l generalizing m a with
  | nil =>
    have : ¬ (a ≤ k ∧ k < a + ([] : List Byte).length) := by simp only [List.length_nil]; omega
    simp only [List.foldl_nil, if_neg this]
  | cons b r ih =>
    simp only [List.foldl_cons, List.length_cons]
    rw [ih, sget_sset]
    by_cases h1 : a + 1 ≤ k ∧ k < a + 1 + r.length
    · have h2 : a ≤ k ∧ k < a + (r.length + 1) := by omega
      have h3 : k - a = (k - (a + 1)) + 1 := by omega
      rw [if_pos h1, if_pos h2, h3, List.getD_cons_succ]
    · rw [if_neg h1]
      by_cases h4 : k = a
      · have h2 : a ≤ k ∧ k < a + (r.length + 1) := by omega
        rw [if_pos h4, if_pos h2, h4, Nat.sub_self, List.getD_cons_zero]
      · have h2 : ¬ (a ≤ k ∧ k < a + (r.length + 1)) := by omega
        rw [if_neg h4, if_neg h2]

/-- A byte after a store: the stored byte inside, the byte before outside. -/
theorem sget_memPut (a : Nat) (l : List Byte) (s : State) (k : Nat) :
    sget 0 (memPut a l s).mem k = if a ≤ k ∧ k < a + l.length then l.getD (k - a) 0 else sget 0 s.mem k :=
  sget_fold l s.mem a k

end Sys2Proof.Machine
end

