-- ==== Sys2Proof/Laws/Regs.lean ====
section
/-!
SUPPORT. Reading registers after the operations that write one: same address, other address, same and other field.
-/
namespace Sys2Proof.Machine

/-- Reading depends on the register file alone. -/
theorem rd_of_regs {s t : State} (h : t.regs = s.regs) (a : Nat) : rd t a = rd s a := by rw [rd, rd, h]

@[simp] theorem rd_wr_same (s : State) (a : Nat) (v : Word) : rd (wr s a v) a = v := by simp [rd, wr]
theorem rd_wr_other (s : State) {a b : Nat} (v : Word) (h : b ≠ a) : rd (wr s a v) b = rd s b := by
  simp [rd, wr, sget_sset_other _ _ _ _ h]
theorem rd_wr (s : State) (a b : Nat) (v : Word) : rd (wr s a v) b = if b = a then v else rd s b := by
  by_cases h : b = a
  · subst h; simp
  · simp [h, rd_wr_other s v h]

@[simp] theorem rd_wrF_same (s : State) (a hi lo v : Nat) : rd (wrF s a hi lo v) a = setFld (rd s a) hi lo v := rd_wr_same ..
theorem rd_wrF_other (s : State) {a b : Nat} (hi lo v : Nat) (h : b ≠ a) : rd (wrF s a hi lo v) b = rd s b := rd_wr_other _ _ h
theorem rd_wrF (s : State) (a b hi lo v : Nat) : rd (wrF s a hi lo v) b = if b = a then setFld (rd s a) hi lo v else rd s b :=
  rd_wr ..

@[simp] theorem rd_wrB_same (s : State) (a i : Nat) (x : Bool) : rd (wrB s a i x) a = setBit (rd s a) i x := rd_wr_same ..
theorem rd_wrB_other (s : State) {a b : Nat} (i : Nat) (x : Bool) (h : b ≠ a) : rd (wrB s a i x) b = rd s b := rd_wr_other _ _ h
theorem rd_wrB (s : State) (a b i : Nat) (x : Bool) : rd (wrB s a i x) b = if b = a then setBit (rd s a) i x else rd s b :=
  rd_wr ..

@[simp] theorem rd_cnt_same (s : State) (a : Nat) : rd (cnt s a) a = satInc (rd s a) := rd_wr_same ..
theorem rd_cnt_other (s : State) {a b : Nat} (h : b ≠ a) : rd (cnt s a) b = rd s b := rd_wr_other _ _ h
theorem rd_cnt (s : State) (a b : Nat) : rd (cnt s a) b = if b = a then satInc (rd s a) else rd s b := rd_wr ..

theorem rd_cntBy (s : State) (a b k : Nat) : rd (cntBy s a k) b = if b = a then satAdd (rd s a) k else rd s b := rd_wr ..

/-- A dropped range reads as its reset values (03 R89, R91). -/
theorem rd_dropRegs (s : State) (lo hi a : Nat) :
    rd (dropRegs s lo hi) a = if lo ≤ a ∧ a < hi then regReset a else rd s a := by
  simp [rd, dropRegs, sget_sdrop]

theorem rdF_wrF_same (s : State) (a hi lo v : Nat) (h : lo ≤ hi) (h32 : hi < 32) :
    rdF (wrF s a hi lo v) a hi lo = v % 2 ^ (hi - lo + 1) := by
  rw [rdF, rd_wrF_same, fld_setFld_same _ _ _ _ h h32]

theorem rdB_wrB_same (s : State) (a i : Nat) (x : Bool) (h : i < 32) : rdB (wrB s a i x) a i = x := by
  rw [rdB, rd_wrB_same, bit_setBit_same _ _ _ h]

theorem regsWf_filter (m : Sparse Word) (p : Nat × Word → Bool) (h : regsWf m) : regsWf (m.filter p) :=
  ⟨h.1.sublist (List.Sublist.map _ List.filter_sublist), fun e he => h.2 e (List.mem_filter.mp he).1⟩

theorem regsWf_sput (m : Sparse Word) (a : Nat) (v : Word) (hv : v ≠ regReset a) (h : regsWf m) : regsWf (sput m a v) := by
  refine ⟨rising_sput m a v h.1, ?_⟩
  have h2 := h.2
  clear h
  induction m with
  | nil =>
    intro e he
    simp only [sput, List.mem_singleton] at he
    subst he; exact hv
  | cons x r ih =>
    obtain ⟨k, w⟩ := x
    have hr : ∀ e ∈ r, e.2 ≠ regReset e.1 := fun e he => h2 e (List.mem_cons_of_mem _ he)
    intro e he
    unfold sput at he
    split at he
    · rcases List.mem_cons.mp he with rfl | he
      · exact hv
      · exact h2 e he
    · split at he
      · rcases List.mem_cons.mp he with rfl | he
        · exact hv
        · exact hr e he
      · rcases List.mem_cons.mp he with rfl | he
        · exact h2 _ (by simp)
        · exact ih hr e he

/-- Every write of a register keeps the form. -/
theorem regsWf_wr (s : State) (a : Nat) (v : Word) (h : regsWf s.regs) : regsWf (wr s a v).regs := by
  show regsWf (sset (regReset a) s.regs a v)
  unfold sset; split
  · exact regsWf_filter _ _ h
  · exact regsWf_sput _ _ _ (by assumption) h

theorem regsWf_dropRegs (s : State) (lo hi : Nat) (h : regsWf s.regs) : regsWf (dropRegs s lo hi).regs :=
  regsWf_filter _ _ h

end Sys2Proof.Machine
end

