-- ==== Sys2Proof/Laws/State.lean ====
section
/-!
SUPPORT. What each shared update of State leaves of every field, and what it makes of the field it writes.
-/
namespace Sys2Proof.Machine

/-! ### `wr` -/

@[simp] theorem wr_regs (s : State) (a : Nat) (v : Word) :
    (wr s a v).regs = sset (regReset a) s.regs a v := rfl
@[simp] theorem wr_mem (s : State) (a : Nat) (v : Word) : (wr s a v).mem = s.mem := rfl
@[simp] theorem wr_pkg (s : State) (a : Nat) (v : Word) : (wr s a v).pkg = s.pkg := rfl
@[simp] theorem wr_ward (s : State) (a : Nat) (v : Word) : (wr s a v).ward = s.ward := rfl
@[simp] theorem wr_clk (s : State) (a : Nat) (v : Word) : (wr s a v).clk = s.clk := rfl
@[simp] theorem wr_cfg (s : State) (a : Nat) (v : Word) : (wr s a v).cfg = s.cfg := rfl
@[simp] theorem wr_fab (s : State) (a : Nat) (v : Word) : (wr s a v).fab = s.fab := rfl
@[simp] theorem wr_bough (s : State) (a : Nat) (v : Word) : (wr s a v).bough = s.bough := rfl
@[simp] theorem wr_links (s : State) (a : Nat) (v : Word) : (wr s a v).links = s.links := rfl
@[simp] theorem wr_rmc (s : State) (a : Nat) (v : Word) : (wr s a v).rmc = s.rmc := rfl
@[simp] theorem wr_dram (s : State) (a : Nat) (v : Word) : (wr s a v).dram = s.dram := rfl
@[simp] theorem wr_tiles (s : State) (a : Nat) (v : Word) : (wr s a v).tiles = s.tiles := rfl
@[simp] theorem wr_dsp (s : State) (a : Nat) (v : Word) : (wr s a v).dsp = s.dsp := rfl
@[simp] theorem wr_xlt (s : State) (a : Nat) (v : Word) : (wr s a v).xlt = s.xlt := rfl
@[simp] theorem wr_porters (s : State) (a : Nat) (v : Word) : (wr s a v).porters = s.porters := rfl
@[simp] theorem wr_moverLast (s : State) (a : Nat) (v : Word) : (wr s a v).moverLast = s.moverLast := rfl
@[simp] theorem wr_lan (s : State) (a : Nat) (v : Word) : (wr s a v).lan = s.lan := rfl
@[simp] theorem wr_tu (s : State) (a : Nat) (v : Word) : (wr s a v).tu = s.tu := rfl
@[simp] theorem wr_tal (s : State) (a : Nat) (v : Word) : (wr s a v).tal = s.tal := rfl
@[simp] theorem wr_pins (s : State) (a : Nat) (v : Word) : (wr s a v).pins = s.pins := rfl
@[simp] theorem wr_dbg (s : State) (a : Nat) (v : Word) : (wr s a v).dbg = s.dbg := rfl
@[simp] theorem wr_ras (s : State) (a : Nat) (v : Word) : (wr s a v).ras = s.ras := rfl
@[simp] theorem wr_net (s : State) (a : Nat) (v : Word) : (wr s a v).net = s.net := rfl
@[simp] theorem wr_fresh (s : State) (a : Nat) (v : Word) : (wr s a v).fresh = s.fresh := rfl
@[simp] theorem wr_pending (s : State) (a : Nat) (v : Word) : (wr s a v).pending = s.pending := rfl

/-! ### `wrF` -/

@[simp] theorem wrF_regs (s : State) (a hi lo v : Nat) :
    (wrF s a hi lo v).regs = sset (regReset a) s.regs a (setFld (rd s a) hi lo v) := by
  simp [wrF]
@[simp] theorem wrF_mem (s : State) (a hi lo v : Nat) : (wrF s a hi lo v).mem = s.mem := rfl
@[simp] theorem wrF_pkg (s : State) (a hi lo v : Nat) : (wrF s a hi lo v).pkg = s.pkg := rfl
@[simp] theorem wrF_ward (s : State) (a hi lo v : Nat) : (wrF s a hi lo v).ward = s.ward := rfl
@[simp] theorem wrF_clk (s : State) (a hi lo v : Nat) : (wrF s a hi lo v).clk = s.clk := rfl
@[simp] theorem wrF_cfg (s : State) (a hi lo v : Nat) : (wrF s a hi lo v).cfg = s.cfg := rfl
@[simp] theorem wrF_fab (s : State) (a hi lo v : Nat) : (wrF s a hi lo v).fab = s.fab := rfl
@[simp] theorem wrF_bough (s : State) (a hi lo v : Nat) : (wrF s a hi lo v).bough = s.bough := rfl
@[simp] theorem wrF_links (s : State) (a hi lo v : Nat) : (wrF s a hi lo v).links = s.links := rfl
@[simp] theorem wrF_rmc (s : State) (a hi lo v : Nat) : (wrF s a hi lo v).rmc = s.rmc := rfl
@[simp] theorem wrF_dram (s : State) (a hi lo v : Nat) : (wrF s a hi lo v).dram = s.dram := rfl
@[simp] theorem wrF_tiles (s : State) (a hi lo v : Nat) : (wrF s a hi lo v).tiles = s.tiles := rfl
@[simp] theorem wrF_dsp (s : State) (a hi lo v : Nat) : (wrF s a hi lo v).dsp = s.dsp := rfl
@[simp] theorem wrF_xlt (s : State) (a hi lo v : Nat) : (wrF s a hi lo v).xlt = s.xlt := rfl
@[simp] theorem wrF_porters (s : State) (a hi lo v : Nat) : (wrF s a hi lo v).porters = s.porters := rfl
@[simp] theorem wrF_moverLast (s : State) (a hi lo v : Nat) : (wrF s a hi lo v).moverLast = s.moverLast := rfl
@[simp] theorem wrF_lan (s : State) (a hi lo v : Nat) : (wrF s a hi lo v).lan = s.lan := rfl
@[simp] theorem wrF_tu (s : State) (a hi lo v : Nat) : (wrF s a hi lo v).tu = s.tu := rfl
@[simp] theorem wrF_tal (s : State) (a hi lo v : Nat) : (wrF s a hi lo v).tal = s.tal := rfl
@[simp] theorem wrF_pins (s : State) (a hi lo v : Nat) : (wrF s a hi lo v).pins = s.pins := rfl
@[simp] theorem wrF_dbg (s : State) (a hi lo v : Nat) : (wrF s a hi lo v).dbg = s.dbg := rfl
@[simp] theorem wrF_ras (s : State) (a hi lo v : Nat) : (wrF s a hi lo v).ras = s.ras := rfl
@[simp] theorem wrF_net (s : State) (a hi lo v : Nat) : (wrF s a hi lo v).net = s.net := rfl
@[simp] theorem wrF_fresh (s : State) (a hi lo v : Nat) : (wrF s a hi lo v).fresh = s.fresh := rfl
@[simp] theorem wrF_pending (s : State) (a hi lo v : Nat) : (wrF s a hi lo v).pending = s.pending := rfl

/-! ### `wrB` -/

@[simp] theorem wrB_regs (s : State) (a i : Nat) (b : Bool) :
    (wrB s a i b).regs = sset (regReset a) s.regs a (setBit (rd s a) i b) := by
  simp [wrB]
@[simp] theorem wrB_mem (s : State) (a i : Nat) (b : Bool) : (wrB s a i b).mem = s.mem := rfl
@[simp] theorem wrB_pkg (s : State) (a i : Nat) (b : Bool) : (wrB s a i b).pkg = s.pkg := rfl
@[simp] theorem wrB_ward (s : State) (a i : Nat) (b : Bool) : (wrB s a i b).ward = s.ward := rfl
@[simp] theorem wrB_clk (s : State) (a i : Nat) (b : Bool) : (wrB s a i b).clk = s.clk := rfl
@[simp] theorem wrB_cfg (s : State) (a i : Nat) (b : Bool) : (wrB s a i b).cfg = s.cfg := rfl
@[simp] theorem wrB_fab (s : State) (a i : Nat) (b : Bool) : (wrB s a i b).fab = s.fab := rfl
@[simp] theorem wrB_bough (s : State) (a i : Nat) (b : Bool) : (wrB s a i b).bough = s.bough := rfl
@[simp] theorem wrB_links (s : State) (a i : Nat) (b : Bool) : (wrB s a i b).links = s.links := rfl
@[simp] theorem wrB_rmc (s : State) (a i : Nat) (b : Bool) : (wrB s a i b).rmc = s.rmc := rfl
@[simp] theorem wrB_dram (s : State) (a i : Nat) (b : Bool) : (wrB s a i b).dram = s.dram := rfl
@[simp] theorem wrB_tiles (s : State) (a i : Nat) (b : Bool) : (wrB s a i b).tiles = s.tiles := rfl
@[simp] theorem wrB_dsp (s : State) (a i : Nat) (b : Bool) : (wrB s a i b).dsp = s.dsp := rfl
@[simp] theorem wrB_xlt (s : State) (a i : Nat) (b : Bool) : (wrB s a i b).xlt = s.xlt := rfl
@[simp] theorem wrB_porters (s : State) (a i : Nat) (b : Bool) : (wrB s a i b).porters = s.porters := rfl
@[simp] theorem wrB_moverLast (s : State) (a i : Nat) (b : Bool) : (wrB s a i b).moverLast = s.moverLast := rfl
@[simp] theorem wrB_lan (s : State) (a i : Nat) (b : Bool) : (wrB s a i b).lan = s.lan := rfl
@[simp] theorem wrB_tu (s : State) (a i : Nat) (b : Bool) : (wrB s a i b).tu = s.tu := rfl
@[simp] theorem wrB_tal (s : State) (a i : Nat) (b : Bool) : (wrB s a i b).tal = s.tal := rfl
@[simp] theorem wrB_pins (s : State) (a i : Nat) (b : Bool) : (wrB s a i b).pins = s.pins := rfl
@[simp] theorem wrB_dbg (s : State) (a i : Nat) (b : Bool) : (wrB s a i b).dbg = s.dbg := rfl
@[simp] theorem wrB_ras (s : State) (a i : Nat) (b : Bool) : (wrB s a i b).ras = s.ras := rfl
@[simp] theorem wrB_net (s : State) (a i : Nat) (b : Bool) : (wrB s a i b).net = s.net := rfl
@[simp] theorem wrB_fresh (s : State) (a i : Nat) (b : Bool) : (wrB s a i b).fresh = s.fresh := rfl
@[simp] theorem wrB_pending (s : State) (a i : Nat) (b : Bool) : (wrB s a i b).pending = s.pending := rfl

/-! ### `cnt` -/

@[simp] theorem cnt_regs (s : State) (a : Nat) :
    (cnt s a).regs = sset (regReset a) s.regs a (satInc (rd s a)) := by
  simp [cnt]
@[simp] theorem cnt_mem (s : State) (a : Nat) : (cnt s a).mem = s.mem := rfl
@[simp] theorem cnt_pkg (s : State) (a : Nat) : (cnt s a).pkg = s.pkg := rfl
@[simp] theorem cnt_ward (s : State) (a : Nat) : (cnt s a).ward = s.ward := rfl
@[simp] theorem cnt_clk (s : State) (a : Nat) : (cnt s a).clk = s.clk := rfl
@[simp] theorem cnt_cfg (s : State) (a : Nat) : (cnt s a).cfg = s.cfg := rfl
@[simp] theorem cnt_fab (s : State) (a : Nat) : (cnt s a).fab = s.fab := rfl
@[simp] theorem cnt_bough (s : State) (a : Nat) : (cnt s a).bough = s.bough := rfl
@[simp] theorem cnt_links (s : State) (a : Nat) : (cnt s a).links = s.links := rfl
@[simp] theorem cnt_rmc (s : State) (a : Nat) : (cnt s a).rmc = s.rmc := rfl
@[simp] theorem cnt_dram (s : State) (a : Nat) : (cnt s a).dram = s.dram := rfl
@[simp] theorem cnt_tiles (s : State) (a : Nat) : (cnt s a).tiles = s.tiles := rfl
@[simp] theorem cnt_dsp (s : State) (a : Nat) : (cnt s a).dsp = s.dsp := rfl
@[simp] theorem cnt_xlt (s : State) (a : Nat) : (cnt s a).xlt = s.xlt := rfl
@[simp] theorem cnt_porters (s : State) (a : Nat) : (cnt s a).porters = s.porters := rfl
@[simp] theorem cnt_moverLast (s : State) (a : Nat) : (cnt s a).moverLast = s.moverLast := rfl
@[simp] theorem cnt_lan (s : State) (a : Nat) : (cnt s a).lan = s.lan := rfl
@[simp] theorem cnt_tu (s : State) (a : Nat) : (cnt s a).tu = s.tu := rfl
@[simp] theorem cnt_tal (s : State) (a : Nat) : (cnt s a).tal = s.tal := rfl
@[simp] theorem cnt_pins (s : State) (a : Nat) : (cnt s a).pins = s.pins := rfl
@[simp] theorem cnt_dbg (s : State) (a : Nat) : (cnt s a).dbg = s.dbg := rfl
@[simp] theorem cnt_ras (s : State) (a : Nat) : (cnt s a).ras = s.ras := rfl
@[simp] theorem cnt_net (s : State) (a : Nat) : (cnt s a).net = s.net := rfl
@[simp] theorem cnt_fresh (s : State) (a : Nat) : (cnt s a).fresh = s.fresh := rfl
@[simp] theorem cnt_pending (s : State) (a : Nat) : (cnt s a).pending = s.pending := rfl

/-! ### `cntBy` -/

@[simp] theorem cntBy_regs (s : State) (a k : Nat) :
    (cntBy s a k).regs = sset (regReset a) s.regs a (satAdd (rd s a) k) := by
  simp [cntBy]
@[simp] theorem cntBy_mem (s : State) (a k : Nat) : (cntBy s a k).mem = s.mem := rfl
@[simp] theorem cntBy_pkg (s : State) (a k : Nat) : (cntBy s a k).pkg = s.pkg := rfl
@[simp] theorem cntBy_ward (s : State) (a k : Nat) : (cntBy s a k).ward = s.ward := rfl
@[simp] theorem cntBy_clk (s : State) (a k : Nat) : (cntBy s a k).clk = s.clk := rfl
@[simp] theorem cntBy_cfg (s : State) (a k : Nat) : (cntBy s a k).cfg = s.cfg := rfl
@[simp] theorem cntBy_fab (s : State) (a k : Nat) : (cntBy s a k).fab = s.fab := rfl
@[simp] theorem cntBy_bough (s : State) (a k : Nat) : (cntBy s a k).bough = s.bough := rfl
@[simp] theorem cntBy_links (s : State) (a k : Nat) : (cntBy s a k).links = s.links := rfl
@[simp] theorem cntBy_rmc (s : State) (a k : Nat) : (cntBy s a k).rmc = s.rmc := rfl
@[simp] theorem cntBy_dram (s : State) (a k : Nat) : (cntBy s a k).dram = s.dram := rfl
@[simp] theorem cntBy_tiles (s : State) (a k : Nat) : (cntBy s a k).tiles = s.tiles := rfl
@[simp] theorem cntBy_dsp (s : State) (a k : Nat) : (cntBy s a k).dsp = s.dsp := rfl
@[simp] theorem cntBy_xlt (s : State) (a k : Nat) : (cntBy s a k).xlt = s.xlt := rfl
@[simp] theorem cntBy_porters (s : State) (a k : Nat) : (cntBy s a k).porters = s.porters := rfl
@[simp] theorem cntBy_moverLast (s : State) (a k : Nat) : (cntBy s a k).moverLast = s.moverLast := rfl
@[simp] theorem cntBy_lan (s : State) (a k : Nat) : (cntBy s a k).lan = s.lan := rfl
@[simp] theorem cntBy_tu (s : State) (a k : Nat) : (cntBy s a k).tu = s.tu := rfl
@[simp] theorem cntBy_tal (s : State) (a k : Nat) : (cntBy s a k).tal = s.tal := rfl
@[simp] theorem cntBy_pins (s : State) (a k : Nat) : (cntBy s a k).pins = s.pins := rfl
@[simp] theorem cntBy_dbg (s : State) (a k : Nat) : (cntBy s a k).dbg = s.dbg := rfl
@[simp] theorem cntBy_ras (s : State) (a k : Nat) : (cntBy s a k).ras = s.ras := rfl
@[simp] theorem cntBy_net (s : State) (a k : Nat) : (cntBy s a k).net = s.net := rfl
@[simp] theorem cntBy_fresh (s : State) (a k : Nat) : (cntBy s a k).fresh = s.fresh := rfl
@[simp] theorem cntBy_pending (s : State) (a k : Nat) : (cntBy s a k).pending = s.pending := rfl

/-! ### `dropRegs` -/

@[simp] theorem dropRegs_regs (s : State) (lo hi : Nat) :
    (dropRegs s lo hi).regs = sdrop s.regs (fun a => decide (lo ≤ a ∧ a < hi)) := rfl
@[simp] theorem dropRegs_mem (s : State) (lo hi : Nat) : (dropRegs s lo hi).mem = s.mem := rfl
@[simp] theorem dropRegs_pkg (s : State) (lo hi : Nat) : (dropRegs s lo hi).pkg = s.pkg := rfl
@[simp] theorem dropRegs_ward (s : State) (lo hi : Nat) : (dropRegs s lo hi).ward = s.ward := rfl
@[simp] theorem dropRegs_clk (s : State) (lo hi : Nat) : (dropRegs s lo hi).clk = s.clk := rfl
@[simp] theorem dropRegs_cfg (s : State) (lo hi : Nat) : (dropRegs s lo hi).cfg = s.cfg := rfl
@[simp] theorem dropRegs_fab (s : State) (lo hi : Nat) : (dropRegs s lo hi).fab = s.fab := rfl
@[simp] theorem dropRegs_bough (s : State) (lo hi : Nat) : (dropRegs s lo hi).bough = s.bough := rfl
@[simp] theorem dropRegs_links (s : State) (lo hi : Nat) : (dropRegs s lo hi).links = s.links := rfl
@[simp] theorem dropRegs_rmc (s : State) (lo hi : Nat) : (dropRegs s lo hi).rmc = s.rmc := rfl
@[simp] theorem dropRegs_dram (s : State) (lo hi : Nat) : (dropRegs s lo hi).dram = s.dram := rfl
@[simp] theorem dropRegs_tiles (s : State) (lo hi : Nat) : (dropRegs s lo hi).tiles = s.tiles := rfl
@[simp] theorem dropRegs_dsp (s : State) (lo hi : Nat) : (dropRegs s lo hi).dsp = s.dsp := rfl
@[simp] theorem dropRegs_xlt (s : State) (lo hi : Nat) : (dropRegs s lo hi).xlt = s.xlt := rfl
@[simp] theorem dropRegs_porters (s : State) (lo hi : Nat) : (dropRegs s lo hi).porters = s.porters := rfl
@[simp] theorem dropRegs_moverLast (s : State) (lo hi : Nat) : (dropRegs s lo hi).moverLast = s.moverLast := rfl
@[simp] theorem dropRegs_lan (s : State) (lo hi : Nat) : (dropRegs s lo hi).lan = s.lan := rfl
@[simp] theorem dropRegs_tu (s : State) (lo hi : Nat) : (dropRegs s lo hi).tu = s.tu := rfl
@[simp] theorem dropRegs_tal (s : State) (lo hi : Nat) : (dropRegs s lo hi).tal = s.tal := rfl
@[simp] theorem dropRegs_pins (s : State) (lo hi : Nat) : (dropRegs s lo hi).pins = s.pins := rfl
@[simp] theorem dropRegs_dbg (s : State) (lo hi : Nat) : (dropRegs s lo hi).dbg = s.dbg := rfl
@[simp] theorem dropRegs_ras (s : State) (lo hi : Nat) : (dropRegs s lo hi).ras = s.ras := rfl
@[simp] theorem dropRegs_net (s : State) (lo hi : Nat) : (dropRegs s lo hi).net = s.net := rfl
@[simp] theorem dropRegs_fresh (s : State) (lo hi : Nat) : (dropRegs s lo hi).fresh = s.fresh := rfl
@[simp] theorem dropRegs_pending (s : State) (lo hi : Nat) : (dropRegs s lo hi).pending = s.pending := rfl

/-! ### `setSysState` -/

@[simp] theorem setSysState_regs (s : State) (c : Nat) :
    (setSysState s c).regs = sset (regReset wardStatus) s.regs wardStatus (setFld (rd s wardStatus) 15 8 c) := by
  simp [setSysState]
@[simp] theorem setSysState_mem (s : State) (c : Nat) : (setSysState s c).mem = s.mem := rfl
@[simp] theorem setSysState_pkg (s : State) (c : Nat) : (setSysState s c).pkg = s.pkg := rfl
@[simp] theorem setSysState_ward (s : State) (c : Nat) : (setSysState s c).ward = s.ward := rfl
@[simp] theorem setSysState_clk (s : State) (c : Nat) : (setSysState s c).clk = s.clk := rfl
@[simp] theorem setSysState_cfg (s : State) (c : Nat) : (setSysState s c).cfg = s.cfg := rfl
@[simp] theorem setSysState_fab (s : State) (c : Nat) : (setSysState s c).fab = s.fab := rfl
@[simp] theorem setSysState_bough (s : State) (c : Nat) : (setSysState s c).bough = s.bough := rfl
@[simp] theorem setSysState_links (s : State) (c : Nat) : (setSysState s c).links = s.links := rfl
@[simp] theorem setSysState_rmc (s : State) (c : Nat) : (setSysState s c).rmc = s.rmc := rfl
@[simp] theorem setSysState_dram (s : State) (c : Nat) : (setSysState s c).dram = s.dram := rfl
@[simp] theorem setSysState_tiles (s : State) (c : Nat) : (setSysState s c).tiles = s.tiles := rfl
@[simp] theorem setSysState_dsp (s : State) (c : Nat) : (setSysState s c).dsp = s.dsp := rfl
@[simp] theorem setSysState_xlt (s : State) (c : Nat) : (setSysState s c).xlt = s.xlt := rfl
@[simp] theorem setSysState_porters (s : State) (c : Nat) : (setSysState s c).porters = s.porters := rfl
@[simp] theorem setSysState_moverLast (s : State) (c : Nat) : (setSysState s c).moverLast = s.moverLast := rfl
@[simp] theorem setSysState_lan (s : State) (c : Nat) : (setSysState s c).lan = s.lan := rfl
@[simp] theorem setSysState_tu (s : State) (c : Nat) : (setSysState s c).tu = s.tu := rfl
@[simp] theorem setSysState_tal (s : State) (c : Nat) : (setSysState s c).tal = s.tal := rfl
@[simp] theorem setSysState_pins (s : State) (c : Nat) : (setSysState s c).pins = s.pins := rfl
@[simp] theorem setSysState_dbg (s : State) (c : Nat) : (setSysState s c).dbg = s.dbg := rfl
@[simp] theorem setSysState_ras (s : State) (c : Nat) : (setSysState s c).ras = s.ras := rfl
@[simp] theorem setSysState_net (s : State) (c : Nat) : (setSysState s c).net = s.net := rfl
@[simp] theorem setSysState_fresh (s : State) (c : Nat) : (setSysState s c).fresh = s.fresh := rfl
@[simp] theorem setSysState_pending (s : State) (c : Nat) : (setSysState s c).pending = s.pending := rfl

/-! ### `setBoothState` -/

@[simp] theorem setBoothState_regs (s : State) (b v : Nat) :
    (setBoothState s b v).regs = sset (regReset (boothSlot b)) s.regs (boothSlot b) (setFld (rd s (boothSlot b)) 1 0 v) := by
  simp [setBoothState]
@[simp] theorem setBoothState_mem (s : State) (b v : Nat) : (setBoothState s b v).mem = s.mem := wrF_mem s (boothSlot b) 1 0 v
@[simp] theorem setBoothState_pkg (s : State) (b v : Nat) : (setBoothState s b v).pkg = s.pkg := wrF_pkg s (boothSlot b) 1 0 v
@[simp] theorem setBoothState_ward (s : State) (b v : Nat) : (setBoothState s b v).ward = s.ward := wrF_ward s (boothSlot b) 1 0 v
@[simp] theorem setBoothState_clk (s : State) (b v : Nat) : (setBoothState s b v).clk = s.clk := wrF_clk s (boothSlot b) 1 0 v
@[simp] theorem setBoothState_cfg (s : State) (b v : Nat) : (setBoothState s b v).cfg = s.cfg := wrF_cfg s (boothSlot b) 1 0 v
@[simp] theorem setBoothState_fab (s : State) (b v : Nat) : (setBoothState s b v).fab = s.fab := wrF_fab s (boothSlot b) 1 0 v
@[simp] theorem setBoothState_bough (s : State) (b v : Nat) : (setBoothState s b v).bough = s.bough := wrF_bough s (boothSlot b) 1 0 v
@[simp] theorem setBoothState_links (s : State) (b v : Nat) : (setBoothState s b v).links = s.links := wrF_links s (boothSlot b) 1 0 v
@[simp] theorem setBoothState_rmc (s : State) (b v : Nat) : (setBoothState s b v).rmc = s.rmc := wrF_rmc s (boothSlot b) 1 0 v
@[simp] theorem setBoothState_dram (s : State) (b v : Nat) : (setBoothState s b v).dram = s.dram := wrF_dram s (boothSlot b) 1 0 v
@[simp] theorem setBoothState_tiles (s : State) (b v : Nat) : (setBoothState s b v).tiles = s.tiles := wrF_tiles s (boothSlot b) 1 0 v
@[simp] theorem setBoothState_dsp (s : State) (b v : Nat) : (setBoothState s b v).dsp = s.dsp := wrF_dsp s (boothSlot b) 1 0 v
@[simp] theorem setBoothState_xlt (s : State) (b v : Nat) : (setBoothState s b v).xlt = s.xlt := wrF_xlt s (boothSlot b) 1 0 v
@[simp] theorem setBoothState_porters (s : State) (b v : Nat) : (setBoothState s b v).porters = s.porters := wrF_porters s (boothSlot b) 1 0 v
@[simp] theorem setBoothState_moverLast (s : State) (b v : Nat) : (setBoothState s b v).moverLast = s.moverLast := wrF_moverLast s (boothSlot b) 1 0 v
@[simp] theorem setBoothState_lan (s : State) (b v : Nat) : (setBoothState s b v).lan = s.lan := wrF_lan s (boothSlot b) 1 0 v
@[simp] theorem setBoothState_tu (s : State) (b v : Nat) : (setBoothState s b v).tu = s.tu := wrF_tu s (boothSlot b) 1 0 v
@[simp] theorem setBoothState_tal (s : State) (b v : Nat) : (setBoothState s b v).tal = s.tal := wrF_tal s (boothSlot b) 1 0 v
@[simp] theorem setBoothState_pins (s : State) (b v : Nat) : (setBoothState s b v).pins = s.pins := wrF_pins s (boothSlot b) 1 0 v
@[simp] theorem setBoothState_dbg (s : State) (b v : Nat) : (setBoothState s b v).dbg = s.dbg := wrF_dbg s (boothSlot b) 1 0 v
@[simp] theorem setBoothState_ras (s : State) (b v : Nat) : (setBoothState s b v).ras = s.ras := wrF_ras s (boothSlot b) 1 0 v
@[simp] theorem setBoothState_net (s : State) (b v : Nat) : (setBoothState s b v).net = s.net := wrF_net s (boothSlot b) 1 0 v
@[simp] theorem setBoothState_fresh (s : State) (b v : Nat) : (setBoothState s b v).fresh = s.fresh := wrF_fresh s (boothSlot b) 1 0 v
@[simp] theorem setBoothState_pending (s : State) (b v : Nat) : (setBoothState s b v).pending = s.pending := wrF_pending s (boothSlot b) 1 0 v

/-! ### `setTb` -/

@[simp] theorem setTb_regs (s : State) (n : Nat) (x : TimeBase) : (setTb s n x).regs = s.regs := rfl
@[simp] theorem setTb_mem (s : State) (n : Nat) (x : TimeBase) : (setTb s n x).mem = s.mem := rfl
@[simp] theorem setTb_pkg (s : State) (n : Nat) (x : TimeBase) : (setTb s n x).pkg = s.pkg := rfl
@[simp] theorem setTb_ward (s : State) (n : Nat) (x : TimeBase) : (setTb s n x).ward = s.ward := rfl
@[simp] theorem setTb_clk (s : State) (n : Nat) (x : TimeBase) : (setTb s n x).clk = s.clk := rfl
@[simp] theorem setTb_cfg (s : State) (n : Nat) (x : TimeBase) : (setTb s n x).cfg = s.cfg := rfl
@[simp] theorem setTb_fab (s : State) (n : Nat) (x : TimeBase) : (setTb s n x).fab = s.fab := rfl
@[simp] theorem setTb_bough (s : State) (n : Nat) (x : TimeBase) : (setTb s n x).bough = s.bough := rfl
@[simp] theorem setTb_links (s : State) (n : Nat) (x : TimeBase) : (setTb s n x).links = s.links := rfl
@[simp] theorem setTb_rmc (s : State) (n : Nat) (x : TimeBase) : (setTb s n x).rmc = s.rmc := rfl
@[simp] theorem setTb_dram (s : State) (n : Nat) (x : TimeBase) : (setTb s n x).dram = s.dram := rfl
@[simp] theorem setTb_tiles (s : State) (n : Nat) (x : TimeBase) : (setTb s n x).tiles = s.tiles := rfl
@[simp] theorem setTb_dsp (s : State) (n : Nat) (x : TimeBase) : (setTb s n x).dsp = s.dsp := rfl
@[simp] theorem setTb_xlt (s : State) (n : Nat) (x : TimeBase) : (setTb s n x).xlt = s.xlt := rfl
@[simp] theorem setTb_porters (s : State) (n : Nat) (x : TimeBase) : (setTb s n x).porters = s.porters := rfl
@[simp] theorem setTb_moverLast (s : State) (n : Nat) (x : TimeBase) : (setTb s n x).moverLast = s.moverLast := rfl
@[simp] theorem setTb_lan (s : State) (n : Nat) (x : TimeBase) : (setTb s n x).lan = s.lan := rfl
@[simp] theorem setTb_tu (s : State) (n : Nat) (x : TimeBase) :
    (setTb s n x).tu = { s.tu with tbs := sset {} s.tu.tbs n x } := rfl
@[simp] theorem setTb_tal (s : State) (n : Nat) (x : TimeBase) : (setTb s n x).tal = s.tal := rfl
@[simp] theorem setTb_pins (s : State) (n : Nat) (x : TimeBase) : (setTb s n x).pins = s.pins := rfl
@[simp] theorem setTb_dbg (s : State) (n : Nat) (x : TimeBase) : (setTb s n x).dbg = s.dbg := rfl
@[simp] theorem setTb_ras (s : State) (n : Nat) (x : TimeBase) : (setTb s n x).ras = s.ras := rfl
@[simp] theorem setTb_net (s : State) (n : Nat) (x : TimeBase) : (setTb s n x).net = s.net := rfl
@[simp] theorem setTb_fresh (s : State) (n : Nat) (x : TimeBase) : (setTb s n x).fresh = s.fresh := rfl
@[simp] theorem setTb_pending (s : State) (n : Nat) (x : TimeBase) : (setTb s n x).pending = s.pending := rfl

/-! ### `tick1` -/

@[simp] theorem tick1_regs (s : State) : (tick1 s).regs = s.regs := rfl
@[simp] theorem tick1_mem (s : State) : (tick1 s).mem = s.mem := rfl
@[simp] theorem tick1_pkg (s : State) : (tick1 s).pkg = s.pkg := rfl
@[simp] theorem tick1_ward (s : State) : (tick1 s).ward = s.ward := rfl
@[simp] theorem tick1_clk (s : State) : (tick1 s).clk = s.clk := rfl
@[simp] theorem tick1_cfg (s : State) : (tick1 s).cfg = s.cfg := rfl
@[simp] theorem tick1_fab (s : State) : (tick1 s).fab = s.fab := rfl
@[simp] theorem tick1_bough (s : State) : (tick1 s).bough = s.bough := rfl
@[simp] theorem tick1_links (s : State) : (tick1 s).links = s.links := rfl
@[simp] theorem tick1_rmc (s : State) : (tick1 s).rmc = s.rmc := rfl
@[simp] theorem tick1_dram (s : State) : (tick1 s).dram = s.dram := rfl
@[simp] theorem tick1_tiles (s : State) : (tick1 s).tiles = s.tiles := rfl
@[simp] theorem tick1_dsp (s : State) : (tick1 s).dsp = s.dsp := rfl
@[simp] theorem tick1_xlt (s : State) : (tick1 s).xlt = s.xlt := rfl
@[simp] theorem tick1_porters (s : State) : (tick1 s).porters = s.porters := rfl
@[simp] theorem tick1_moverLast (s : State) : (tick1 s).moverLast = s.moverLast := rfl
@[simp] theorem tick1_lan (s : State) : (tick1 s).lan = s.lan := rfl
@[simp] theorem tick1_tu (s : State) : (tick1 s).tu = s.tu := rfl
@[simp] theorem tick1_tal (s : State) : (tick1 s).tal = s.tal := rfl
@[simp] theorem tick1_pins (s : State) : (tick1 s).pins = s.pins := rfl
@[simp] theorem tick1_dbg (s : State) : (tick1 s).dbg = s.dbg := rfl
@[simp] theorem tick1_ras (s : State) : (tick1 s).ras = s.ras := rfl
@[simp] theorem tick1_net (s : State) : (tick1 s).net = s.net := rfl
@[simp] theorem tick1_fresh (s : State) :
    (tick1 s).fresh = s.fresh + 1 := rfl
@[simp] theorem tick1_pending (s : State) : (tick1 s).pending = s.pending := rfl

/-! ### `raiseMsix` -/

@[simp] theorem raiseMsix_regs (pf vec : Nat) (s : State) : (raiseMsix pf vec s).regs = s.regs := rfl
@[simp] theorem raiseMsix_mem (pf vec : Nat) (s : State) : (raiseMsix pf vec s).mem = s.mem := rfl
@[simp] theorem raiseMsix_pkg (pf vec : Nat) (s : State) : (raiseMsix pf vec s).pkg = s.pkg := rfl
@[simp] theorem raiseMsix_ward (pf vec : Nat) (s : State) :
    (raiseMsix pf vec s).ward = { s.ward with msix := s.ward.msix ++ [(pf, vec)] } := rfl
@[simp] theorem raiseMsix_clk (pf vec : Nat) (s : State) : (raiseMsix pf vec s).clk = s.clk := rfl
@[simp] theorem raiseMsix_cfg (pf vec : Nat) (s : State) : (raiseMsix pf vec s).cfg = s.cfg := rfl
@[simp] theorem raiseMsix_fab (pf vec : Nat) (s : State) : (raiseMsix pf vec s).fab = s.fab := rfl
@[simp] theorem raiseMsix_bough (pf vec : Nat) (s : State) : (raiseMsix pf vec s).bough = s.bough := rfl
@[simp] theorem raiseMsix_links (pf vec : Nat) (s : State) : (raiseMsix pf vec s).links = s.links := rfl
@[simp] theorem raiseMsix_rmc (pf vec : Nat) (s : State) : (raiseMsix pf vec s).rmc = s.rmc := rfl
@[simp] theorem raiseMsix_dram (pf vec : Nat) (s : State) : (raiseMsix pf vec s).dram = s.dram := rfl
@[simp] theorem raiseMsix_tiles (pf vec : Nat) (s : State) : (raiseMsix pf vec s).tiles = s.tiles := rfl
@[simp] theorem raiseMsix_dsp (pf vec : Nat) (s : State) : (raiseMsix pf vec s).dsp = s.dsp := rfl
@[simp] theorem raiseMsix_xlt (pf vec : Nat) (s : State) : (raiseMsix pf vec s).xlt = s.xlt := rfl
@[simp] theorem raiseMsix_porters (pf vec : Nat) (s : State) : (raiseMsix pf vec s).porters = s.porters := rfl
@[simp] theorem raiseMsix_moverLast (pf vec : Nat) (s : State) : (raiseMsix pf vec s).moverLast = s.moverLast := rfl
@[simp] theorem raiseMsix_lan (pf vec : Nat) (s : State) : (raiseMsix pf vec s).lan = s.lan := rfl
@[simp] theorem raiseMsix_tu (pf vec : Nat) (s : State) : (raiseMsix pf vec s).tu = s.tu := rfl
@[simp] theorem raiseMsix_tal (pf vec : Nat) (s : State) : (raiseMsix pf vec s).tal = s.tal := rfl
@[simp] theorem raiseMsix_pins (pf vec : Nat) (s : State) : (raiseMsix pf vec s).pins = s.pins := rfl
@[simp] theorem raiseMsix_dbg (pf vec : Nat) (s : State) : (raiseMsix pf vec s).dbg = s.dbg := rfl
@[simp] theorem raiseMsix_ras (pf vec : Nat) (s : State) : (raiseMsix pf vec s).ras = s.ras := rfl
@[simp] theorem raiseMsix_net (pf vec : Nat) (s : State) : (raiseMsix pf vec s).net = s.net := rfl
@[simp] theorem raiseMsix_fresh (pf vec : Nat) (s : State) : (raiseMsix pf vec s).fresh = s.fresh := rfl
@[simp] theorem raiseMsix_pending (pf vec : Nat) (s : State) : (raiseMsix pf vec s).pending = s.pending := rfl

/-! ### `nextSeq` -/

@[simp] theorem nextSeq_regs (s : State) : (nextSeq s).regs = s.regs := rfl
@[simp] theorem nextSeq_mem (s : State) : (nextSeq s).mem = s.mem := rfl
@[simp] theorem nextSeq_pkg (s : State) : (nextSeq s).pkg = s.pkg := rfl
@[simp] theorem nextSeq_ward (s : State) :
    (nextSeq s).ward = { s.ward with evtSeq := (s.ward.evtSeq + 1) % 2 ^ 32 } := rfl
@[simp] theorem nextSeq_clk (s : State) : (nextSeq s).clk = s.clk := rfl
@[simp] theorem nextSeq_cfg (s : State) : (nextSeq s).cfg = s.cfg := rfl
@[simp] theorem nextSeq_fab (s : State) : (nextSeq s).fab = s.fab := rfl
@[simp] theorem nextSeq_bough (s : State) : (nextSeq s).bough = s.bough := rfl
@[simp] theorem nextSeq_links (s : State) : (nextSeq s).links = s.links := rfl
@[simp] theorem nextSeq_rmc (s : State) : (nextSeq s).rmc = s.rmc := rfl
@[simp] theorem nextSeq_dram (s : State) : (nextSeq s).dram = s.dram := rfl
@[simp] theorem nextSeq_tiles (s : State) : (nextSeq s).tiles = s.tiles := rfl
@[simp] theorem nextSeq_dsp (s : State) : (nextSeq s).dsp = s.dsp := rfl
@[simp] theorem nextSeq_xlt (s : State) : (nextSeq s).xlt = s.xlt := rfl
@[simp] theorem nextSeq_porters (s : State) : (nextSeq s).porters = s.porters := rfl
@[simp] theorem nextSeq_moverLast (s : State) : (nextSeq s).moverLast = s.moverLast := rfl
@[simp] theorem nextSeq_lan (s : State) : (nextSeq s).lan = s.lan := rfl
@[simp] theorem nextSeq_tu (s : State) : (nextSeq s).tu = s.tu := rfl
@[simp] theorem nextSeq_tal (s : State) : (nextSeq s).tal = s.tal := rfl
@[simp] theorem nextSeq_pins (s : State) : (nextSeq s).pins = s.pins := rfl
@[simp] theorem nextSeq_dbg (s : State) : (nextSeq s).dbg = s.dbg := rfl
@[simp] theorem nextSeq_ras (s : State) : (nextSeq s).ras = s.ras := rfl
@[simp] theorem nextSeq_net (s : State) : (nextSeq s).net = s.net := rfl
@[simp] theorem nextSeq_fresh (s : State) : (nextSeq s).fresh = s.fresh := rfl
@[simp] theorem nextSeq_pending (s : State) : (nextSeq s).pending = s.pending := rfl

/-! ### `modTaken` -/

@[simp] theorem modTaken_regs (b : Nat) (g : Taken → Taken) (s : State) : (modTaken b g s).regs = s.regs := rfl
@[simp] theorem modTaken_mem (b : Nat) (g : Taken → Taken) (s : State) : (modTaken b g s).mem = s.mem := rfl
@[simp] theorem modTaken_pkg (b : Nat) (g : Taken → Taken) (s : State) : (modTaken b g s).pkg = s.pkg := rfl
@[simp] theorem modTaken_ward (b : Nat) (g : Taken → Taken) (s : State) :
    (modTaken b g s).ward = { s.ward with taken := s.ward.taken.map (fun t => if t.booth = b then g t else t) } := rfl
@[simp] theorem modTaken_clk (b : Nat) (g : Taken → Taken) (s : State) : (modTaken b g s).clk = s.clk := rfl
@[simp] theorem modTaken_cfg (b : Nat) (g : Taken → Taken) (s : State) : (modTaken b g s).cfg = s.cfg := rfl
@[simp] theorem modTaken_fab (b : Nat) (g : Taken → Taken) (s : State) : (modTaken b g s).fab = s.fab := rfl
@[simp] theorem modTaken_bough (b : Nat) (g : Taken → Taken) (s : State) : (modTaken b g s).bough = s.bough := rfl
@[simp] theorem modTaken_links (b : Nat) (g : Taken → Taken) (s : State) : (modTaken b g s).links = s.links := rfl
@[simp] theorem modTaken_rmc (b : Nat) (g : Taken → Taken) (s : State) : (modTaken b g s).rmc = s.rmc := rfl
@[simp] theorem modTaken_dram (b : Nat) (g : Taken → Taken) (s : State) : (modTaken b g s).dram = s.dram := rfl
@[simp] theorem modTaken_tiles (b : Nat) (g : Taken → Taken) (s : State) : (modTaken b g s).tiles = s.tiles := rfl
@[simp] theorem modTaken_dsp (b : Nat) (g : Taken → Taken) (s : State) : (modTaken b g s).dsp = s.dsp := rfl
@[simp] theorem modTaken_xlt (b : Nat) (g : Taken → Taken) (s : State) : (modTaken b g s).xlt = s.xlt := rfl
@[simp] theorem modTaken_porters (b : Nat) (g : Taken → Taken) (s : State) : (modTaken b g s).porters = s.porters := rfl
@[simp] theorem modTaken_moverLast (b : Nat) (g : Taken → Taken) (s : State) : (modTaken b g s).moverLast = s.moverLast := rfl
@[simp] theorem modTaken_lan (b : Nat) (g : Taken → Taken) (s : State) : (modTaken b g s).lan = s.lan := rfl
@[simp] theorem modTaken_tu (b : Nat) (g : Taken → Taken) (s : State) : (modTaken b g s).tu = s.tu := rfl
@[simp] theorem modTaken_tal (b : Nat) (g : Taken → Taken) (s : State) : (modTaken b g s).tal = s.tal := rfl
@[simp] theorem modTaken_pins (b : Nat) (g : Taken → Taken) (s : State) : (modTaken b g s).pins = s.pins := rfl
@[simp] theorem modTaken_dbg (b : Nat) (g : Taken → Taken) (s : State) : (modTaken b g s).dbg = s.dbg := rfl
@[simp] theorem modTaken_ras (b : Nat) (g : Taken → Taken) (s : State) : (modTaken b g s).ras = s.ras := rfl
@[simp] theorem modTaken_net (b : Nat) (g : Taken → Taken) (s : State) : (modTaken b g s).net = s.net := rfl
@[simp] theorem modTaken_fresh (b : Nat) (g : Taken → Taken) (s : State) : (modTaken b g s).fresh = s.fresh := rfl
@[simp] theorem modTaken_pending (b : Nat) (g : Taken → Taken) (s : State) : (modTaken b g s).pending = s.pending := rfl

/-! ### `answer` -/

@[simp] theorem answer_regs (b st code d : Nat) (p : List Word) (s : State) : (answer b st code d p s).regs = s.regs := rfl
@[simp] theorem answer_mem (b st code d : Nat) (p : List Word) (s : State) : (answer b st code d p s).mem = s.mem := rfl
@[simp] theorem answer_pkg (b st code d : Nat) (p : List Word) (s : State) : (answer b st code d p s).pkg = s.pkg := rfl
@[simp] theorem answer_clk (b st code d : Nat) (p : List Word) (s : State) : (answer b st code d p s).clk = s.clk := rfl
@[simp] theorem answer_cfg (b st code d : Nat) (p : List Word) (s : State) : (answer b st code d p s).cfg = s.cfg := rfl
@[simp] theorem answer_fab (b st code d : Nat) (p : List Word) (s : State) : (answer b st code d p s).fab = s.fab := rfl
@[simp] theorem answer_bough (b st code d : Nat) (p : List Word) (s : State) : (answer b st code d p s).bough = s.bough := rfl
@[simp] theorem answer_links (b st code d : Nat) (p : List Word) (s : State) : (answer b st code d p s).links = s.links := rfl
@[simp] theorem answer_rmc (b st code d : Nat) (p : List Word) (s : State) : (answer b st code d p s).rmc = s.rmc := rfl
@[simp] theorem answer_dram (b st code d : Nat) (p : List Word) (s : State) : (answer b st code d p s).dram = s.dram := rfl
@[simp] theorem answer_tiles (b st code d : Nat) (p : List Word) (s : State) : (answer b st code d p s).tiles = s.tiles := rfl
@[simp] theorem answer_dsp (b st code d : Nat) (p : List Word) (s : State) : (answer b st code d p s).dsp = s.dsp := rfl
@[simp] theorem answer_xlt (b st code d : Nat) (p : List Word) (s : State) : (answer b st code d p s).xlt = s.xlt := rfl
@[simp] theorem answer_porters (b st code d : Nat) (p : List Word) (s : State) : (answer b st code d p s).porters = s.porters := rfl
@[simp] theorem answer_moverLast (b st code d : Nat) (p : List Word) (s : State) : (answer b st code d p s).moverLast = s.moverLast := rfl
@[simp] theorem answer_lan (b st code d : Nat) (p : List Word) (s : State) : (answer b st code d p s).lan = s.lan := rfl
@[simp] theorem answer_tu (b st code d : Nat) (p : List Word) (s : State) : (answer b st code d p s).tu = s.tu := rfl
@[simp] theorem answer_tal (b st code d : Nat) (p : List Word) (s : State) : (answer b st code d p s).tal = s.tal := rfl
@[simp] theorem answer_pins (b st code d : Nat) (p : List Word) (s : State) : (answer b st code d p s).pins = s.pins := rfl
@[simp] theorem answer_dbg (b st code d : Nat) (p : List Word) (s : State) : (answer b st code d p s).dbg = s.dbg := rfl
@[simp] theorem answer_ras (b st code d : Nat) (p : List Word) (s : State) : (answer b st code d p s).ras = s.ras := rfl
@[simp] theorem answer_net (b st code d : Nat) (p : List Word) (s : State) : (answer b st code d p s).net = s.net := rfl
@[simp] theorem answer_fresh (b st code d : Nat) (p : List Word) (s : State) : (answer b st code d p s).fresh = s.fresh := rfl
@[simp] theorem answer_pending (b st code d : Nat) (p : List Word) (s : State) : (answer b st code d p s).pending = s.pending := rfl

/-! ### `setSlot` -/

@[simp] theorem setSlot_regs (n : Nat) (x : Slot) (s : State) : (setSlot n x s).regs = s.regs := rfl
@[simp] theorem setSlot_mem (n : Nat) (x : Slot) (s : State) : (setSlot n x s).mem = s.mem := rfl
@[simp] theorem setSlot_pkg (n : Nat) (x : Slot) (s : State) : (setSlot n x s).pkg = s.pkg := rfl
@[simp] theorem setSlot_clk (n : Nat) (x : Slot) (s : State) : (setSlot n x s).clk = s.clk := rfl
@[simp] theorem setSlot_cfg (n : Nat) (x : Slot) (s : State) : (setSlot n x s).cfg = s.cfg := rfl
@[simp] theorem setSlot_fab (n : Nat) (x : Slot) (s : State) : (setSlot n x s).fab = s.fab := rfl
@[simp] theorem setSlot_bough (n : Nat) (x : Slot) (s : State) : (setSlot n x s).bough = s.bough := rfl
@[simp] theorem setSlot_links (n : Nat) (x : Slot) (s : State) : (setSlot n x s).links = s.links := rfl
@[simp] theorem setSlot_rmc (n : Nat) (x : Slot) (s : State) : (setSlot n x s).rmc = s.rmc := rfl
@[simp] theorem setSlot_dram (n : Nat) (x : Slot) (s : State) : (setSlot n x s).dram = s.dram := rfl
@[simp] theorem setSlot_tiles (n : Nat) (x : Slot) (s : State) : (setSlot n x s).tiles = s.tiles := rfl
@[simp] theorem setSlot_dsp (n : Nat) (x : Slot) (s : State) : (setSlot n x s).dsp = s.dsp := rfl
@[simp] theorem setSlot_xlt (n : Nat) (x : Slot) (s : State) : (setSlot n x s).xlt = s.xlt := rfl
@[simp] theorem setSlot_porters (n : Nat) (x : Slot) (s : State) : (setSlot n x s).porters = s.porters := rfl
@[simp] theorem setSlot_moverLast (n : Nat) (x : Slot) (s : State) : (setSlot n x s).moverLast = s.moverLast := rfl
@[simp] theorem setSlot_lan (n : Nat) (x : Slot) (s : State) : (setSlot n x s).lan = s.lan := rfl
@[simp] theorem setSlot_tu (n : Nat) (x : Slot) (s : State) : (setSlot n x s).tu = s.tu := rfl
@[simp] theorem setSlot_tal (n : Nat) (x : Slot) (s : State) : (setSlot n x s).tal = s.tal := rfl
@[simp] theorem setSlot_pins (n : Nat) (x : Slot) (s : State) : (setSlot n x s).pins = s.pins := rfl
@[simp] theorem setSlot_dbg (n : Nat) (x : Slot) (s : State) : (setSlot n x s).dbg = s.dbg := rfl
@[simp] theorem setSlot_ras (n : Nat) (x : Slot) (s : State) : (setSlot n x s).ras = s.ras := rfl
@[simp] theorem setSlot_net (n : Nat) (x : Slot) (s : State) : (setSlot n x s).net = s.net := rfl
@[simp] theorem setSlot_fresh (n : Nat) (x : Slot) (s : State) : (setSlot n x s).fresh = s.fresh := rfl
@[simp] theorem setSlot_pending (n : Nat) (x : Slot) (s : State) : (setSlot n x s).pending = s.pending := rfl

/-! ### `setSlotState` -/

@[simp] theorem setSlotState_regs (n st : Nat) (s : State) : (setSlotState n st s).regs = s.regs := rfl
@[simp] theorem setSlotState_mem (n st : Nat) (s : State) : (setSlotState n st s).mem = s.mem := rfl
@[simp] theorem setSlotState_pkg (n st : Nat) (s : State) : (setSlotState n st s).pkg = s.pkg := rfl
@[simp] theorem setSlotState_clk (n st : Nat) (s : State) : (setSlotState n st s).clk = s.clk := rfl
@[simp] theorem setSlotState_cfg (n st : Nat) (s : State) : (setSlotState n st s).cfg = s.cfg := rfl
@[simp] theorem setSlotState_fab (n st : Nat) (s : State) : (setSlotState n st s).fab = s.fab := rfl
@[simp] theorem setSlotState_bough (n st : Nat) (s : State) : (setSlotState n st s).bough = s.bough := rfl
@[simp] theorem setSlotState_links (n st : Nat) (s : State) : (setSlotState n st s).links = s.links := rfl
@[simp] theorem setSlotState_rmc (n st : Nat) (s : State) : (setSlotState n st s).rmc = s.rmc := rfl
@[simp] theorem setSlotState_dram (n st : Nat) (s : State) : (setSlotState n st s).dram = s.dram := rfl
@[simp] theorem setSlotState_tiles (n st : Nat) (s : State) : (setSlotState n st s).tiles = s.tiles := rfl
@[simp] theorem setSlotState_dsp (n st : Nat) (s : State) : (setSlotState n st s).dsp = s.dsp := rfl
@[simp] theorem setSlotState_xlt (n st : Nat) (s : State) : (setSlotState n st s).xlt = s.xlt := rfl
@[simp] theorem setSlotState_porters (n st : Nat) (s : State) : (setSlotState n st s).porters = s.porters := rfl
@[simp] theorem setSlotState_moverLast (n st : Nat) (s : State) : (setSlotState n st s).moverLast = s.moverLast := rfl
@[simp] theorem setSlotState_lan (n st : Nat) (s : State) : (setSlotState n st s).lan = s.lan := rfl
@[simp] theorem setSlotState_tu (n st : Nat) (s : State) : (setSlotState n st s).tu = s.tu := rfl
@[simp] theorem setSlotState_tal (n st : Nat) (s : State) : (setSlotState n st s).tal = s.tal := rfl
@[simp] theorem setSlotState_pins (n st : Nat) (s : State) : (setSlotState n st s).pins = s.pins := rfl
@[simp] theorem setSlotState_dbg (n st : Nat) (s : State) : (setSlotState n st s).dbg = s.dbg := rfl
@[simp] theorem setSlotState_ras (n st : Nat) (s : State) : (setSlotState n st s).ras = s.ras := rfl
@[simp] theorem setSlotState_net (n st : Nat) (s : State) : (setSlotState n st s).net = s.net := rfl
@[simp] theorem setSlotState_fresh (n st : Nat) (s : State) : (setSlotState n st s).fresh = s.fresh := rfl
@[simp] theorem setSlotState_pending (n st : Nat) (s : State) : (setSlotState n st s).pending = s.pending := rfl

/-! ### `setTile` -/

@[simp] theorem setTile_regs (t : Nat) (x : Tile) (s : State) : (setTile t x s).regs = s.regs := rfl
@[simp] theorem setTile_mem (t : Nat) (x : Tile) (s : State) : (setTile t x s).mem = s.mem := rfl
@[simp] theorem setTile_pkg (t : Nat) (x : Tile) (s : State) : (setTile t x s).pkg = s.pkg := rfl
@[simp] theorem setTile_ward (t : Nat) (x : Tile) (s : State) : (setTile t x s).ward = s.ward := rfl
@[simp] theorem setTile_clk (t : Nat) (x : Tile) (s : State) : (setTile t x s).clk = s.clk := rfl
@[simp] theorem setTile_cfg (t : Nat) (x : Tile) (s : State) : (setTile t x s).cfg = s.cfg := rfl
@[simp] theorem setTile_fab (t : Nat) (x : Tile) (s : State) : (setTile t x s).fab = s.fab := rfl
@[simp] theorem setTile_bough (t : Nat) (x : Tile) (s : State) : (setTile t x s).bough = s.bough := rfl
@[simp] theorem setTile_links (t : Nat) (x : Tile) (s : State) : (setTile t x s).links = s.links := rfl
@[simp] theorem setTile_rmc (t : Nat) (x : Tile) (s : State) : (setTile t x s).rmc = s.rmc := rfl
@[simp] theorem setTile_dram (t : Nat) (x : Tile) (s : State) : (setTile t x s).dram = s.dram := rfl
@[simp] theorem setTile_tiles (t : Nat) (x : Tile) (s : State) :
    (setTile t x s).tiles = sset {} s.tiles t x := rfl
@[simp] theorem setTile_dsp (t : Nat) (x : Tile) (s : State) : (setTile t x s).dsp = s.dsp := rfl
@[simp] theorem setTile_xlt (t : Nat) (x : Tile) (s : State) : (setTile t x s).xlt = s.xlt := rfl
@[simp] theorem setTile_porters (t : Nat) (x : Tile) (s : State) : (setTile t x s).porters = s.porters := rfl
@[simp] theorem setTile_moverLast (t : Nat) (x : Tile) (s : State) : (setTile t x s).moverLast = s.moverLast := rfl
@[simp] theorem setTile_lan (t : Nat) (x : Tile) (s : State) : (setTile t x s).lan = s.lan := rfl
@[simp] theorem setTile_tu (t : Nat) (x : Tile) (s : State) : (setTile t x s).tu = s.tu := rfl
@[simp] theorem setTile_tal (t : Nat) (x : Tile) (s : State) : (setTile t x s).tal = s.tal := rfl
@[simp] theorem setTile_pins (t : Nat) (x : Tile) (s : State) : (setTile t x s).pins = s.pins := rfl
@[simp] theorem setTile_dbg (t : Nat) (x : Tile) (s : State) : (setTile t x s).dbg = s.dbg := rfl
@[simp] theorem setTile_ras (t : Nat) (x : Tile) (s : State) : (setTile t x s).ras = s.ras := rfl
@[simp] theorem setTile_net (t : Nat) (x : Tile) (s : State) : (setTile t x s).net = s.net := rfl
@[simp] theorem setTile_fresh (t : Nat) (x : Tile) (s : State) : (setTile t x s).fresh = s.fresh := rfl
@[simp] theorem setTile_pending (t : Nat) (x : Tile) (s : State) : (setTile t x s).pending = s.pending := rfl

/-! ### `postWrite` -/

@[simp] theorem postWrite_regs (src addr : Nat) (data : List Byte) (s : State) : (postWrite src addr data s).regs = s.regs := rfl
@[simp] theorem postWrite_mem (src addr : Nat) (data : List Byte) (s : State) : (postWrite src addr data s).mem = s.mem := rfl
@[simp] theorem postWrite_pkg (src addr : Nat) (data : List Byte) (s : State) : (postWrite src addr data s).pkg = s.pkg := rfl
@[simp] theorem postWrite_ward (src addr : Nat) (data : List Byte) (s : State) : (postWrite src addr data s).ward = s.ward := rfl
@[simp] theorem postWrite_clk (src addr : Nat) (data : List Byte) (s : State) : (postWrite src addr data s).clk = s.clk := rfl
@[simp] theorem postWrite_cfg (src addr : Nat) (data : List Byte) (s : State) : (postWrite src addr data s).cfg = s.cfg := rfl
@[simp] theorem postWrite_fab (src addr : Nat) (data : List Byte) (s : State) : (postWrite src addr data s).fab = s.fab := rfl
@[simp] theorem postWrite_bough (src addr : Nat) (data : List Byte) (s : State) : (postWrite src addr data s).bough = s.bough := rfl
@[simp] theorem postWrite_links (src addr : Nat) (data : List Byte) (s : State) : (postWrite src addr data s).links = s.links := rfl
@[simp] theorem postWrite_rmc (src addr : Nat) (data : List Byte) (s : State) : (postWrite src addr data s).rmc = s.rmc := rfl
@[simp] theorem postWrite_dram (src addr : Nat) (data : List Byte) (s : State) : (postWrite src addr data s).dram = s.dram := rfl
@[simp] theorem postWrite_tiles (src addr : Nat) (data : List Byte) (s : State) : (postWrite src addr data s).tiles = s.tiles := rfl
@[simp] theorem postWrite_dsp (src addr : Nat) (data : List Byte) (s : State) : (postWrite src addr data s).dsp = s.dsp := rfl
@[simp] theorem postWrite_xlt (src addr : Nat) (data : List Byte) (s : State) : (postWrite src addr data s).xlt = s.xlt := rfl
@[simp] theorem postWrite_porters (src addr : Nat) (data : List Byte) (s : State) : (postWrite src addr data s).porters = s.porters := rfl
@[simp] theorem postWrite_moverLast (src addr : Nat) (data : List Byte) (s : State) : (postWrite src addr data s).moverLast = s.moverLast := rfl
@[simp] theorem postWrite_lan (src addr : Nat) (data : List Byte) (s : State) : (postWrite src addr data s).lan = s.lan := rfl
@[simp] theorem postWrite_tu (src addr : Nat) (data : List Byte) (s : State) : (postWrite src addr data s).tu = s.tu := rfl
@[simp] theorem postWrite_tal (src addr : Nat) (data : List Byte) (s : State) : (postWrite src addr data s).tal = s.tal := rfl
@[simp] theorem postWrite_pins (src addr : Nat) (data : List Byte) (s : State) : (postWrite src addr data s).pins = s.pins := rfl
@[simp] theorem postWrite_dbg (src addr : Nat) (data : List Byte) (s : State) : (postWrite src addr data s).dbg = s.dbg := rfl
@[simp] theorem postWrite_ras (src addr : Nat) (data : List Byte) (s : State) : (postWrite src addr data s).ras = s.ras := rfl
@[simp] theorem postWrite_fresh (src addr : Nat) (data : List Byte) (s : State) : (postWrite src addr data s).fresh = s.fresh := rfl
@[simp] theorem postWrite_pending (src addr : Nat) (data : List Byte) (s : State) : (postWrite src addr data s).pending = s.pending := rfl

/-! ### `ringPut` -/

@[simp] theorem ringPut_mem (e : EvtEntry) (s : State) : (ringPut e s).mem = s.mem := by
  simp only [ringPut]; split <;> simp
@[simp] theorem ringPut_pkg (e : EvtEntry) (s : State) : (ringPut e s).pkg = s.pkg := by
  simp only [ringPut]; split <;> simp
@[simp] theorem ringPut_clk (e : EvtEntry) (s : State) : (ringPut e s).clk = s.clk := by
  simp only [ringPut]; split <;> simp
@[simp] theorem ringPut_cfg (e : EvtEntry) (s : State) : (ringPut e s).cfg = s.cfg := by
  simp only [ringPut]; split <;> simp
@[simp] theorem ringPut_fab (e : EvtEntry) (s : State) : (ringPut e s).fab = s.fab := by
  simp only [ringPut]; split <;> simp
@[simp] theorem ringPut_bough (e : EvtEntry) (s : State) : (ringPut e s).bough = s.bough := by
  simp only [ringPut]; split <;> simp
@[simp] theorem ringPut_links (e : EvtEntry) (s : State) : (ringPut e s).links = s.links := by
  simp only [ringPut]; split <;> simp
@[simp] theorem ringPut_rmc (e : EvtEntry) (s : State) : (ringPut e s).rmc = s.rmc := by
  simp only [ringPut]; split <;> simp
@[simp] theorem ringPut_dram (e : EvtEntry) (s : State) : (ringPut e s).dram = s.dram := by
  simp only [ringPut]; split <;> simp
@[simp] theorem ringPut_tiles (e : EvtEntry) (s : State) : (ringPut e s).tiles = s.tiles := by
  simp only [ringPut]; split <;> simp
@[simp] theorem ringPut_dsp (e : EvtEntry) (s : State) : (ringPut e s).dsp = s.dsp := by
  simp only [ringPut]; split <;> simp
@[simp] theorem ringPut_xlt (e : EvtEntry) (s : State) : (ringPut e s).xlt = s.xlt := by
  simp only [ringPut]; split <;> simp
@[simp] theorem ringPut_porters (e : EvtEntry) (s : State) : (ringPut e s).porters = s.porters := by
  simp only [ringPut]; split <;> simp
@[simp] theorem ringPut_moverLast (e : EvtEntry) (s : State) : (ringPut e s).moverLast = s.moverLast := by
  simp only [ringPut]; split <;> simp
@[simp] theorem ringPut_lan (e : EvtEntry) (s : State) : (ringPut e s).lan = s.lan := by
  simp only [ringPut]; split <;> simp
@[simp] theorem ringPut_tu (e : EvtEntry) (s : State) : (ringPut e s).tu = s.tu := by
  simp only [ringPut]; split <;> simp
@[simp] theorem ringPut_tal (e : EvtEntry) (s : State) : (ringPut e s).tal = s.tal := by
  simp only [ringPut]; split <;> simp
@[simp] theorem ringPut_pins (e : EvtEntry) (s : State) : (ringPut e s).pins = s.pins := by
  simp only [ringPut]; split <;> simp
@[simp] theorem ringPut_dbg (e : EvtEntry) (s : State) : (ringPut e s).dbg = s.dbg := by
  simp only [ringPut]; split <;> simp
@[simp] theorem ringPut_ras (e : EvtEntry) (s : State) : (ringPut e s).ras = s.ras := by
  simp only [ringPut]; split <;> simp
@[simp] theorem ringPut_net (e : EvtEntry) (s : State) : (ringPut e s).net = s.net := by
  simp only [ringPut]; split <;> simp
@[simp] theorem ringPut_fresh (e : EvtEntry) (s : State) : (ringPut e s).fresh = s.fresh := by
  simp only [ringPut]; split <;> simp
@[simp] theorem ringPut_pending (e : EvtEntry) (s : State) : (ringPut e s).pending = s.pending := by
  simp only [ringPut]; split <;> simp

/-! ### `putLost` -/

@[simp] theorem putLost_mem (s : State) : (putLost s).mem = s.mem := by
  unfold putLost; split
  · rfl
  · simp
@[simp] theorem putLost_pkg (s : State) : (putLost s).pkg = s.pkg := by
  unfold putLost; split
  · rfl
  · simp
@[simp] theorem putLost_clk (s : State) : (putLost s).clk = s.clk := by
  unfold putLost; split
  · rfl
  · simp
@[simp] theorem putLost_cfg (s : State) : (putLost s).cfg = s.cfg := by
  unfold putLost; split
  · rfl
  · simp
@[simp] theorem putLost_fab (s : State) : (putLost s).fab = s.fab := by
  unfold putLost; split
  · rfl
  · simp
@[simp] theorem putLost_bough (s : State) : (putLost s).bough = s.bough := by
  unfold putLost; split
  · rfl
  · simp
@[simp] theorem putLost_links (s : State) : (putLost s).links = s.links := by
  unfold putLost; split
  · rfl
  · simp
@[simp] theorem putLost_rmc (s : State) : (putLost s).rmc = s.rmc := by
  unfold putLost; split
  · rfl
  · simp
@[simp] theorem putLost_dram (s : State) : (putLost s).dram = s.dram := by
  unfold putLost; split
  · rfl
  · simp
@[simp] theorem putLost_tiles (s : State) : (putLost s).tiles = s.tiles := by
  unfold putLost; split
  · rfl
  · simp
@[simp] theorem putLost_dsp (s : State) : (putLost s).dsp = s.dsp := by
  unfold putLost; split
  · rfl
  · simp
@[simp] theorem putLost_xlt (s : State) : (putLost s).xlt = s.xlt := by
  unfold putLost; split
  · rfl
  · simp
@[simp] theorem putLost_porters (s : State) : (putLost s).porters = s.porters := by
  unfold putLost; split
  · rfl
  · simp
@[simp] theorem putLost_moverLast (s : State) : (putLost s).moverLast = s.moverLast := by
  unfold putLost; split
  · rfl
  · simp
@[simp] theorem putLost_lan (s : State) : (putLost s).lan = s.lan := by
  unfold putLost; split
  · rfl
  · simp
@[simp] theorem putLost_tu (s : State) : (putLost s).tu = s.tu := by
  unfold putLost; split
  · rfl
  · simp
@[simp] theorem putLost_tal (s : State) : (putLost s).tal = s.tal := by
  unfold putLost; split
  · rfl
  · simp
@[simp] theorem putLost_pins (s : State) : (putLost s).pins = s.pins := by
  unfold putLost; split
  · rfl
  · simp
@[simp] theorem putLost_dbg (s : State) : (putLost s).dbg = s.dbg := by
  unfold putLost; split
  · rfl
  · simp
@[simp] theorem putLost_ras (s : State) : (putLost s).ras = s.ras := by
  unfold putLost; split
  · rfl
  · simp
@[simp] theorem putLost_net (s : State) : (putLost s).net = s.net := by
  unfold putLost; split
  · rfl
  · simp
@[simp] theorem putLost_fresh (s : State) : (putLost s).fresh = s.fresh := by
  unfold putLost; split
  · rfl
  · simp
@[simp] theorem putLost_pending (s : State) : (putLost s).pending = s.pending := by
  unfold putLost; split
  · rfl
  · simp

/-! ### `queueEvent` -/

@[simp] theorem queueEvent_mem (e : EvtEntry) (s : State) : (queueEvent e s).mem = s.mem := by
  simp only [queueEvent]; split <;> simp
@[simp] theorem queueEvent_pkg (e : EvtEntry) (s : State) : (queueEvent e s).pkg = s.pkg := by
  simp only [queueEvent]; split <;> simp
@[simp] theorem queueEvent_clk (e : EvtEntry) (s : State) : (queueEvent e s).clk = s.clk := by
  simp only [queueEvent]; split <;> simp
@[simp] theorem queueEvent_cfg (e : EvtEntry) (s : State) : (queueEvent e s).cfg = s.cfg := by
  simp only [queueEvent]; split <;> simp
@[simp] theorem queueEvent_fab (e : EvtEntry) (s : State) : (queueEvent e s).fab = s.fab := by
  simp only [queueEvent]; split <;> simp
@[simp] theorem queueEvent_bough (e : EvtEntry) (s : State) : (queueEvent e s).bough = s.bough := by
  simp only [queueEvent]; split <;> simp
@[simp] theorem queueEvent_links (e : EvtEntry) (s : State) : (queueEvent e s).links = s.links := by
  simp only [queueEvent]; split <;> simp
@[simp] theorem queueEvent_rmc (e : EvtEntry) (s : State) : (queueEvent e s).rmc = s.rmc := by
  simp only [queueEvent]; split <;> simp
@[simp] theorem queueEvent_dram (e : EvtEntry) (s : State) : (queueEvent e s).dram = s.dram := by
  simp only [queueEvent]; split <;> simp
@[simp] theorem queueEvent_tiles (e : EvtEntry) (s : State) : (queueEvent e s).tiles = s.tiles := by
  simp only [queueEvent]; split <;> simp
@[simp] theorem queueEvent_dsp (e : EvtEntry) (s : State) : (queueEvent e s).dsp = s.dsp := by
  simp only [queueEvent]; split <;> simp
@[simp] theorem queueEvent_xlt (e : EvtEntry) (s : State) : (queueEvent e s).xlt = s.xlt := by
  simp only [queueEvent]; split <;> simp
@[simp] theorem queueEvent_porters (e : EvtEntry) (s : State) : (queueEvent e s).porters = s.porters := by
  simp only [queueEvent]; split <;> simp
@[simp] theorem queueEvent_moverLast (e : EvtEntry) (s : State) : (queueEvent e s).moverLast = s.moverLast := by
  simp only [queueEvent]; split <;> simp
@[simp] theorem queueEvent_lan (e : EvtEntry) (s : State) : (queueEvent e s).lan = s.lan := by
  simp only [queueEvent]; split <;> simp
@[simp] theorem queueEvent_tu (e : EvtEntry) (s : State) : (queueEvent e s).tu = s.tu := by
  simp only [queueEvent]; split <;> simp
@[simp] theorem queueEvent_tal (e : EvtEntry) (s : State) : (queueEvent e s).tal = s.tal := by
  simp only [queueEvent]; split <;> simp
@[simp] theorem queueEvent_pins (e : EvtEntry) (s : State) : (queueEvent e s).pins = s.pins := by
  simp only [queueEvent]; split <;> simp
@[simp] theorem queueEvent_dbg (e : EvtEntry) (s : State) : (queueEvent e s).dbg = s.dbg := by
  simp only [queueEvent]; split <;> simp
@[simp] theorem queueEvent_ras (e : EvtEntry) (s : State) : (queueEvent e s).ras = s.ras := by
  simp only [queueEvent]; split <;> simp
@[simp] theorem queueEvent_net (e : EvtEntry) (s : State) : (queueEvent e s).net = s.net := by
  simp only [queueEvent]; split <;> simp
@[simp] theorem queueEvent_fresh (e : EvtEntry) (s : State) : (queueEvent e s).fresh = s.fresh := by
  simp only [queueEvent]; split <;> simp
@[simp] theorem queueEvent_pending (e : EvtEntry) (s : State) : (queueEvent e s).pending = s.pending := by
  simp only [queueEvent]; split <;> simp

/-! ### `raise` -/

@[simp] theorem raise_mem (code sev src : Nat) (d : List Word) (s : State) : (raise code sev src d s).mem = s.mem := by
  simp only [raise]; split
  · rfl
  · split <;> simp
@[simp] theorem raise_pkg (code sev src : Nat) (d : List Word) (s : State) : (raise code sev src d s).pkg = s.pkg := by
  simp only [raise]; split
  · rfl
  · split <;> simp
@[simp] theorem raise_clk (code sev src : Nat) (d : List Word) (s : State) : (raise code sev src d s).clk = s.clk := by
  simp only [raise]; split
  · rfl
  · split <;> simp
@[simp] theorem raise_cfg (code sev src : Nat) (d : List Word) (s : State) : (raise code sev src d s).cfg = s.cfg := by
  simp only [raise]; split
  · rfl
  · split <;> simp
@[simp] theorem raise_fab (code sev src : Nat) (d : List Word) (s : State) : (raise code sev src d s).fab = s.fab := by
  simp only [raise]; split
  · rfl
  · split <;> simp
@[simp] theorem raise_bough (code sev src : Nat) (d : List Word) (s : State) : (raise code sev src d s).bough = s.bough := by
  simp only [raise]; split
  · rfl
  · split <;> simp
@[simp] theorem raise_links (code sev src : Nat) (d : List Word) (s : State) : (raise code sev src d s).links = s.links := by
  simp only [raise]; split
  · rfl
  · split <;> simp
@[simp] theorem raise_rmc (code sev src : Nat) (d : List Word) (s : State) : (raise code sev src d s).rmc = s.rmc := by
  simp only [raise]; split
  · rfl
  · split <;> simp
@[simp] theorem raise_dram (code sev src : Nat) (d : List Word) (s : State) : (raise code sev src d s).dram = s.dram := by
  simp only [raise]; split
  · rfl
  · split <;> simp
@[simp] theorem raise_tiles (code sev src : Nat) (d : List Word) (s : State) : (raise code sev src d s).tiles = s.tiles := by
  simp only [raise]; split
  · rfl
  · split <;> simp
@[simp] theorem raise_dsp (code sev src : Nat) (d : List Word) (s : State) : (raise code sev src d s).dsp = s.dsp := by
  simp only [raise]; split
  · rfl
  · split <;> simp
@[simp] theorem raise_xlt (code sev src : Nat) (d : List Word) (s : State) : (raise code sev src d s).xlt = s.xlt := by
  simp only [raise]; split
  · rfl
  · split <;> simp
@[simp] theorem raise_porters (code sev src : Nat) (d : List Word) (s : State) : (raise code sev src d s).porters = s.porters := by
  simp only [raise]; split
  · rfl
  · split <;> simp
@[simp] theorem raise_moverLast (code sev src : Nat) (d : List Word) (s : State) : (raise code sev src d s).moverLast = s.moverLast := by
  simp only [raise]; split
  · rfl
  · split <;> simp
@[simp] theorem raise_lan (code sev src : Nat) (d : List Word) (s : State) : (raise code sev src d s).lan = s.lan := by
  simp only [raise]; split
  · rfl
  · split <;> simp
@[simp] theorem raise_tu (code sev src : Nat) (d : List Word) (s : State) : (raise code sev src d s).tu = s.tu := by
  simp only [raise]; split
  · rfl
  · split <;> simp
@[simp] theorem raise_tal (code sev src : Nat) (d : List Word) (s : State) : (raise code sev src d s).tal = s.tal := by
  simp only [raise]; split
  · rfl
  · split <;> simp
@[simp] theorem raise_pins (code sev src : Nat) (d : List Word) (s : State) : (raise code sev src d s).pins = s.pins := by
  simp only [raise]; split
  · rfl
  · split <;> simp
@[simp] theorem raise_dbg (code sev src : Nat) (d : List Word) (s : State) : (raise code sev src d s).dbg = s.dbg := by
  simp only [raise]; split
  · rfl
  · split <;> simp
@[simp] theorem raise_ras (code sev src : Nat) (d : List Word) (s : State) : (raise code sev src d s).ras = s.ras := by
  simp only [raise]; split
  · rfl
  · split <;> simp
@[simp] theorem raise_net (code sev src : Nat) (d : List Word) (s : State) : (raise code sev src d s).net = s.net := by
  simp only [raise]; split
  · rfl
  · split <;> simp
@[simp] theorem raise_fresh (code sev src : Nat) (d : List Word) (s : State) : (raise code sev src d s).fresh = s.fresh := by
  simp only [raise]; split
  · rfl
  · split <;> simp
@[simp] theorem raise_pending (code sev src : Nat) (d : List Word) (s : State) : (raise code sev src d s).pending = s.pending := by
  simp only [raise]; split
  · rfl
  · split <;> simp

/-! ### `finish` -/

@[simp] theorem finish_regs (op st code d : Nat) (p : List Word) (s : State) : (finish op st code d p s).regs = s.regs := by
  unfold finish; split <;> simp
@[simp] theorem finish_mem (op st code d : Nat) (p : List Word) (s : State) : (finish op st code d p s).mem = s.mem := by
  unfold finish; split <;> simp
@[simp] theorem finish_pkg (op st code d : Nat) (p : List Word) (s : State) : (finish op st code d p s).pkg = s.pkg := by
  unfold finish; split <;> simp
@[simp] theorem finish_clk (op st code d : Nat) (p : List Word) (s : State) : (finish op st code d p s).clk = s.clk := by
  unfold finish; split <;> simp
@[simp] theorem finish_cfg (op st code d : Nat) (p : List Word) (s : State) : (finish op st code d p s).cfg = s.cfg := by
  unfold finish; split <;> simp
@[simp] theorem finish_fab (op st code d : Nat) (p : List Word) (s : State) : (finish op st code d p s).fab = s.fab := by
  unfold finish; split <;> simp
@[simp] theorem finish_bough (op st code d : Nat) (p : List Word) (s : State) : (finish op st code d p s).bough = s.bough := by
  unfold finish; split <;> simp
@[simp] theorem finish_links (op st code d : Nat) (p : List Word) (s : State) : (finish op st code d p s).links = s.links := by
  unfold finish; split <;> simp
@[simp] theorem finish_rmc (op st code d : Nat) (p : List Word) (s : State) : (finish op st code d p s).rmc = s.rmc := by
  unfold finish; split <;> simp
@[simp] theorem finish_dram (op st code d : Nat) (p : List Word) (s : State) : (finish op st code d p s).dram = s.dram := by
  unfold finish; split <;> simp
@[simp] theorem finish_tiles (op st code d : Nat) (p : List Word) (s : State) : (finish op st code d p s).tiles = s.tiles := by
  unfold finish; split <;> simp
@[simp] theorem finish_dsp (op st code d : Nat) (p : List Word) (s : State) : (finish op st code d p s).dsp = s.dsp := by
  unfold finish; split <;> simp
@[simp] theorem finish_xlt (op st code d : Nat) (p : List Word) (s : State) : (finish op st code d p s).xlt = s.xlt := by
  unfold finish; split <;> simp
@[simp] theorem finish_porters (op st code d : Nat) (p : List Word) (s : State) : (finish op st code d p s).porters = s.porters := by
  unfold finish; split <;> simp
@[simp] theorem finish_moverLast (op st code d : Nat) (p : List Word) (s : State) : (finish op st code d p s).moverLast = s.moverLast := by
  unfold finish; split <;> simp
@[simp] theorem finish_lan (op st code d : Nat) (p : List Word) (s : State) : (finish op st code d p s).lan = s.lan := by
  unfold finish; split <;> simp
@[simp] theorem finish_tu (op st code d : Nat) (p : List Word) (s : State) : (finish op st code d p s).tu = s.tu := by
  unfold finish; split <;> simp
@[simp] theorem finish_tal (op st code d : Nat) (p : List Word) (s : State) : (finish op st code d p s).tal = s.tal := by
  unfold finish; split <;> simp
@[simp] theorem finish_pins (op st code d : Nat) (p : List Word) (s : State) : (finish op st code d p s).pins = s.pins := by
  unfold finish; split <;> simp
@[simp] theorem finish_dbg (op st code d : Nat) (p : List Word) (s : State) : (finish op st code d p s).dbg = s.dbg := by
  unfold finish; split <;> simp
@[simp] theorem finish_ras (op st code d : Nat) (p : List Word) (s : State) : (finish op st code d p s).ras = s.ras := by
  unfold finish; split <;> simp
@[simp] theorem finish_net (op st code d : Nat) (p : List Word) (s : State) : (finish op st code d p s).net = s.net := by
  unfold finish; split <;> simp
@[simp] theorem finish_fresh (op st code d : Nat) (p : List Word) (s : State) : (finish op st code d p s).fresh = s.fresh := by
  unfold finish; split <;> simp
@[simp] theorem finish_pending (op st code d : Nat) (p : List Word) (s : State) : (finish op st code d p s).pending = s.pending := by
  unfold finish; split <;> simp

/-! ### `audit` -/

@[simp] theorem audit_mem (kind setting booth result old new steps : Nat) (s : State) : (audit kind setting booth result old new steps s).mem = s.mem := by
  simp only [audit]; split <;> simp
@[simp] theorem audit_pkg (kind setting booth result old new steps : Nat) (s : State) : (audit kind setting booth result old new steps s).pkg = s.pkg := by
  simp only [audit]; split <;> simp
@[simp] theorem audit_clk (kind setting booth result old new steps : Nat) (s : State) : (audit kind setting booth result old new steps s).clk = s.clk := by
  simp only [audit]; split <;> simp
@[simp] theorem audit_cfg (kind setting booth result old new steps : Nat) (s : State) : (audit kind setting booth result old new steps s).cfg = s.cfg := by
  simp only [audit]; split <;> simp
@[simp] theorem audit_fab (kind setting booth result old new steps : Nat) (s : State) : (audit kind setting booth result old new steps s).fab = s.fab := by
  simp only [audit]; split <;> simp
@[simp] theorem audit_bough (kind setting booth result old new steps : Nat) (s : State) : (audit kind setting booth result old new steps s).bough = s.bough := by
  simp only [audit]; split <;> simp
@[simp] theorem audit_links (kind setting booth result old new steps : Nat) (s : State) : (audit kind setting booth result old new steps s).links = s.links := by
  simp only [audit]; split <;> simp
@[simp] theorem audit_rmc (kind setting booth result old new steps : Nat) (s : State) : (audit kind setting booth result old new steps s).rmc = s.rmc := by
  simp only [audit]; split <;> simp
@[simp] theorem audit_dram (kind setting booth result old new steps : Nat) (s : State) : (audit kind setting booth result old new steps s).dram = s.dram := by
  simp only [audit]; split <;> simp
@[simp] theorem audit_tiles (kind setting booth result old new steps : Nat) (s : State) : (audit kind setting booth result old new steps s).tiles = s.tiles := by
  simp only [audit]; split <;> simp
@[simp] theorem audit_dsp (kind setting booth result old new steps : Nat) (s : State) : (audit kind setting booth result old new steps s).dsp = s.dsp := by
  simp only [audit]; split <;> simp
@[simp] theorem audit_xlt (kind setting booth result old new steps : Nat) (s : State) : (audit kind setting booth result old new steps s).xlt = s.xlt := by
  simp only [audit]; split <;> simp
@[simp] theorem audit_porters (kind setting booth result old new steps : Nat) (s : State) : (audit kind setting booth result old new steps s).porters = s.porters := by
  simp only [audit]; split <;> simp
@[simp] theorem audit_moverLast (kind setting booth result old new steps : Nat) (s : State) : (audit kind setting booth result old new steps s).moverLast = s.moverLast := by
  simp only [audit]; split <;> simp
@[simp] theorem audit_lan (kind setting booth result old new steps : Nat) (s : State) : (audit kind setting booth result old new steps s).lan = s.lan := by
  simp only [audit]; split <;> simp
@[simp] theorem audit_tu (kind setting booth result old new steps : Nat) (s : State) : (audit kind setting booth result old new steps s).tu = s.tu := by
  simp only [audit]; split <;> simp
@[simp] theorem audit_tal (kind setting booth result old new steps : Nat) (s : State) : (audit kind setting booth result old new steps s).tal = s.tal := by
  simp only [audit]; split <;> simp
@[simp] theorem audit_pins (kind setting booth result old new steps : Nat) (s : State) : (audit kind setting booth result old new steps s).pins = s.pins := by
  simp only [audit]; split <;> simp
@[simp] theorem audit_dbg (kind setting booth result old new steps : Nat) (s : State) : (audit kind setting booth result old new steps s).dbg = s.dbg := by
  simp only [audit]; split <;> simp
@[simp] theorem audit_ras (kind setting booth result old new steps : Nat) (s : State) : (audit kind setting booth result old new steps s).ras = s.ras := by
  simp only [audit]; split <;> simp
@[simp] theorem audit_net (kind setting booth result old new steps : Nat) (s : State) : (audit kind setting booth result old new steps s).net = s.net := by
  simp only [audit]; split <;> simp
@[simp] theorem audit_fresh (kind setting booth result old new steps : Nat) (s : State) : (audit kind setting booth result old new steps s).fresh = s.fresh := by
  simp only [audit]; split <;> simp
@[simp] theorem audit_pending (kind setting booth result old new steps : Nat) (s : State) : (audit kind setting booth result old new steps s).pending = s.pending := by
  simp only [audit]; split <;> simp

end Sys2Proof.Machine
end

