-- ==== Sys2Proof/Laws/Serve.lean ====
section
/-!
SUPPORT. What serving a command of a booth can do: one lemma for each reply its meaning gives (02 R56-R60).
-/
namespace Sys2Proof.Machine

/-- The state code that a response of `op` carries. -/
theorem serving_next {s : State} {b op : Nat} {args : List Word} (h : Serving s b op args) :
    ∃ t : Taken, nextWaiting s = some t ∧ t.booth = b ∧ t.op = op ∧ t.args = args ∧ t.flags = 0 := by
  obtain ⟨h, -⟩ := h
  match hn : nextWaiting s with
  | none => simp [hn] at h
  | some t =>
    simp only [hn, Option.map_some, Option.some.injEq, Prod.mk.injEq] at h
    exact ⟨t, rfl, h.1, h.2.1, h.2.2.1, h.2.2.2⟩

/-- A command whose state machine is in a legal state is performed by its meaning. -/
theorem serve_of_serving {s : State} {b op : Nat} {args : List Word} {legal : List Nat} {f : Req → State → Reply}
    (h : Serving s b op args) (hl : ∀ k : Nat, codeOf op ⟨b, 0, args⟩ s = some k → legal.contains k = true) :
    serve op legal f b s = match f ⟨b, 0, args⟩ s with
      | .ok p s' => answer b stOk ((codeOf op ⟨b, 0, args⟩ s').getD (sysState s')) 0 p s'
      | .no st d => answer b st ((codeOf op ⟨b, 0, args⟩ s).getD (sysState s)) d [] s
      | .fail st d p s' => answer b st ((codeOf op ⟨b, 0, args⟩ s').getD (sysState s')) d p s'
      | .run s' => modTaken b (fun t => { t with phase := .running }) s' := by
  obtain ⟨t, hn, hb, ho, ha, hf⟩ := serving_next h
  obtain ⟨-, ht, hd, hr⟩ := h
  subst ha hb ho
  unfold serve serveWith
  simp only [hn, ht, hd, hr, hf, ne_eq, not_true_eq_false, Bool.false_eq_true, if_false, or_false]
  cases hc : codeOf t.op ⟨t.booth, 0, t.args⟩ s with
  | none => cases f ⟨t.booth, 0, t.args⟩ s <;> simp
  | some k =>
    have hk : k ∈ legal := by simpa using hl k hc
    cases f ⟨t.booth, 0, t.args⟩ s <;> simp [hk]

/-- A change of the entries of booth `b` is found at it. -/
theorem find_changed (b : Nat) (g : Taken → Taken) (hg : ∀ t : Taken, (g t).booth = t.booth) (l : List Taken)
    (h : ∃ k ∈ l, k.booth = b) :
    ∃ k ∈ l, k.booth = b ∧
      (l.map (fun t => if t.booth = b then g t else t)).find? (fun k => k.booth = b) = some (g k) := by
  induction l with
  | nil => simp at h
  | cons k r ih =>
    by_cases hk : k.booth = b
    · exact ⟨k, by simp, hk, by simp [hk, hg]⟩
    · have hr : ∃ j ∈ r, j.booth = b := by
        obtain ⟨j, hj, hb⟩ := h
        rcases List.mem_cons.mp hj with rfl | hj
        · exact absurd hb hk
        · exact ⟨j, hj, hb⟩
      obtain ⟨x, hx, hb, hf⟩ := ih hr
      exact ⟨x, List.mem_cons_of_mem _ hx, hb, by simpa [hk] using hf⟩

/-- The response of an answered command is in its booth. -/
theorem answered_answer {s : State} {b st code d : Nat} {p : List Word} (h : ∃ k ∈ s.ward.taken, k.booth = b) :
    Answered (answer b st code d p s) b st d p := by
  obtain ⟨k, -, -, hf⟩ := find_changed b
    (fun t => { t with phase := .answered, status := st, state := code, detail := d, resp := p }) (fun _ => rfl) _ h
  exact ⟨_, hf, rfl, rfl, rfl, rfl⟩

/-- A command that has begun is running. -/
theorem begun_running {s : State} {b : Nat} (h : ∃ k ∈ s.ward.taken, k.booth = b) :
    Begun (modTaken b (fun t => { t with phase := .running }) s) b := by
  obtain ⟨k, -, -, hf⟩ := find_changed b (fun t => { t with phase := .running }) (fun _ => rfl) _ h
  exact ⟨_, hf, rfl⟩

/-- The command about to be performed is among those taken. -/
theorem serving_mem {s : State} {b op : Nat} {args : List Word} (h : Serving s b op args) :
    ∃ k ∈ s.ward.taken, k.booth = b := by
  obtain ⟨t, hn, hb, -⟩ := serving_next h
  exact ⟨t, List.mem_of_find?_eq_some hn, hb⟩

/-- An answer changes the entry of its booth alone. -/
theorem answer_onlyAnswer (b st code d : Nat) (p : List Word) (s : State) : OnlyAnswer s (answer b st code d p s) := by
  refine ⟨⟨rfl, ?_⟩, rfl⟩
  intro q hq
  cases q <;> first | rfl | simp at hq

/-! ### A booth command whose meaning replies in one of the four ways -/

section
variable {c : Instr} {s s' : State} {b op st d : Nat} {args p : List Word} {legal : List Nat} {f : Req → State → Reply}
  {P : State → Prop}

theorem does_ok (he : exec c s = .next (serve op legal f b s)) (h : Serving s b op args)
    (hl : ∀ k : Nat, codeOf op ⟨b, 0, args⟩ s = some k → legal.contains k = true) (hf : f ⟨b, 0, args⟩ s = .ok p s')
    (hp : P (answer b 0 ((codeOf op ⟨b, 0, args⟩ s').getD (sysState s')) 0 p s')) : Does c s P :=
  ⟨_, he, by rw [serve_of_serving h hl, hf]; exact hp⟩

theorem does_no (he : exec c s = .next (serve op legal f b s)) (h : Serving s b op args)
    (hl : ∀ k : Nat, codeOf op ⟨b, 0, args⟩ s = some k → legal.contains k = true) (hf : f ⟨b, 0, args⟩ s = .no st d)
    (hp : P (answer b st ((codeOf op ⟨b, 0, args⟩ s).getD (sysState s)) d [] s)) : Does c s P :=
  ⟨_, he, by rw [serve_of_serving h hl, hf]; exact hp⟩

theorem does_fail (he : exec c s = .next (serve op legal f b s)) (h : Serving s b op args)
    (hl : ∀ k : Nat, codeOf op ⟨b, 0, args⟩ s = some k → legal.contains k = true)
    (hf : f ⟨b, 0, args⟩ s = .fail st d p s')
    (hp : P (answer b st ((codeOf op ⟨b, 0, args⟩ s').getD (sysState s')) d p s')) : Does c s P :=
  ⟨_, he, by rw [serve_of_serving h hl, hf]; exact hp⟩

theorem does_run (he : exec c s = .next (serve op legal f b s)) (h : Serving s b op args)
    (hl : ∀ k : Nat, codeOf op ⟨b, 0, args⟩ s = some k → legal.contains k = true) (hf : f ⟨b, 0, args⟩ s = .run s')
    (hp : P (modTaken b (fun t => { t with phase := .running }) s')) : Does c s P :=
  ⟨_, he, by rw [serve_of_serving h hl, hf]; exact hp⟩

end

end Sys2Proof.Machine
end

