-- ==== Sys2Proof/Tests/Slice0.lean ====
section
/-!
SUPPORT. The tests: ill-formed terms that the check refuses, figures that the spec works out, and for each statement
states and operands that meet its hypotheses. Every expected result is the spec's or worked by hand from it.
-/
namespace Sys2Proof.Tests
open Sys2Proof.Machine

set_option maxRecDepth 100000

/-! ### States of the tests -/

/-- The hub after the reset is released, the Warden in RUN with a standby. -/
def up : State := { State.reset with pkg := { held := false }, regs := [(wardStatus, 0x1102)] }
/-- A state with registers written. -/
def on (l : List (Nat × Word)) (s : State) : State :=
  { s with regs := l.foldl (fun m e => sput m e.1 e.2) s.regs }
/-- A state with one command of booth `b` in TAKEN. -/
def cmd (b op : Nat) (args : List Word) (s : State) : State :=
  { s with ward := { s.ward with taken := [{ booth := b, op := op, seq := 1, flags := 0, args := args }] } }
/-- A command of booth `b` in progress. -/
def going (b op : Nat) : Taken := { booth := b, op := op, seq := 1, flags := 0, args := [], phase := .running }
/-- That command alone in TAKEN. -/
def during (b op : Nat) (s : State) : State := { s with ward := { s.ward with taken := [going b op] } }
/-- Every event raised. -/
def all (s : State) : State := { s with ward := { s.ward with evtMask := 0x1FFE, evtMin := 0 } }
/-- Every die in RUN, its routes written and every link unit UP at full width. -/
def grid : State :=
  let units (d : Nat) : List (Nat × Word) :=
    (unitsOf d).map (fun u => (lnkBlk d u, word (0x620000 + (if u < 2 then 1024 else if u < 8 then 0xFF else 1024))))
  { up with
    regs := up.regs ++ [8, 9, 10, 11, 12, 13, 14, 15].flatMap (fun d => (clkBlk d + 0x18, 0x30) :: units d)
      ++ [1, 2, 3, 4].flatMap (fun d => (clkBlk d, 0x80300000) :: units d),
    bough := { up.bough with blocks := (0 :: dies).flatMap (fun x => (0 :: dies).map (fun y => (x * 16 + y, true))) } }

/-- A state with its Tally changed. -/
def tal16 (f : Tally → Tally) (s : State) : State := { s with tal := f s.tal }

/-! ### Ill-formed commands -/

theorem test_ill_formed_1 :
    wellFormed (.packageReset 4) = false
    ∧ wellFormed (.unmappedAccess 4096 0) = false
    ∧ wellFormed (.wdnApertureWrite 2 0) = false
    ∧ wellFormed (.boothAreaWrite .warden 64 0 0) = false
    ∧ wellFormed (.boothAreaWrite .warden 0 65536 0) = false
    ∧ wellFormed (.boothPost .warden 64) = false
    ∧ wellFormed (.evtConsWrite .warden 65536) = false
    ∧ wellFormed (.lockstepMismatch 2) = false
    ∧ wellFormed (.wardenSramUncorrectable 2 0 false) = false
    ∧ wellFormed (.wardenSramUncorrectable 0 262144 false) = false
    ∧ wellFormed (.xinStartDelayExpiry 2 false) = false
    ∧ wellFormed (.clkSourceSelectWrite .warden 16 0) = false
    ∧ wellFormed (.referenceSlewEnd 6) = false
    ∧ wellFormed (.lrlLockLost 4) = false
    ∧ wellFormed (.peerClockLost 16 0) = false
    ∧ wellFormed (.peerClockLost 0 16) = false
    ∧ wellFormed (.blockClockStop 16 0) = false
    ∧ wellFormed (.blockClockStop 0 32) = false
    ∧ wellFormed (.loadDigestCheck 8 0) = false
    ∧ wellFormed (.bramPortOperation 8 0 0 false 0 0 0) = false := by decide

theorem test_ill_formed_2 :
    wellFormed (.bramPortOperation 0 1920 0 false 0 0 0) = false
    ∧ wellFormed (.bramPortOperation 0 0 2 false 0 0 0) = false
    ∧ wellFormed (.bramWriteBack 8 0) = false
    ∧ wellFormed (.bramWriteBack 0 1920) = false
    ∧ wellFormed (.bramExportAccess 4096 0 0 0 false 0 0 []) = false
    ∧ wellFormed (.bramExportAccess 0 0 8 0 false 0 0 []) = false
    ∧ wellFormed (.bramExportAccess 0 0 0 1920 false 0 0 []) = false
    ∧ wellFormed (.nvmRead 8 0 []) = false
    ∧ wellFormed (.nvmRead 0 262144 []) = false
    ∧ wellFormed (.fabricSerialTransfer 8 0 0 0) = false
    ∧ wellFormed (.fabricSerialTransfer 0 6 0 0) = false
    ∧ wellFormed (.traceRead 8 0) = false
    ∧ wellFormed (.traceRead 0 131072) = false
    ∧ wellFormed (.boughRequestSend 4096 0 0 0 0 [] none false) = false
    ∧ wellFormed (.boughRequestSend 0 16 0 0 0 [] none false) = false
    ∧ wellFormed (.contractMeterRelease 4096 0) = false
    ∧ wellFormed (.contractMeterRelease 0 4096) = false
    ∧ wellFormed (.nop 4096 false) = false
    ∧ wellFormed (.add 4096 false 0 0 0) = false
    ∧ wellFormed (.add 0 false 16 0 0) = false := by decide

theorem test_ill_formed_3 :
    wellFormed (.add 0 false 0 16 0) = false
    ∧ wellFormed (.add 0 false 0 0 16) = false
    ∧ wellFormed (.addi 4096 false 0 0 0) = false
    ∧ wellFormed (.addi 0 false 16 0 0) = false
    ∧ wellFormed (.addi 0 false 0 16 0) = false
    ∧ wellFormed (.addi 0 false 0 0 65536) = false
    ∧ wellFormed (.slli 4096 false 0 0 0) = false
    ∧ wellFormed (.slli 0 false 16 0 0) = false
    ∧ wellFormed (.slli 0 false 0 16 0) = false
    ∧ wellFormed (.slli 0 false 0 0 32) = false
    ∧ wellFormed (.li 4096 false 0 0) = false
    ∧ wellFormed (.li 0 false 16 0) = false
    ∧ wellFormed (.li 0 false 0 65536) = false
    ∧ wellFormed (.mts 4096 false 0) = false
    ∧ wellFormed (.mts 0 false 16) = false
    ∧ wellFormed (.mfs 4096 false 0 0) = false
    ∧ wellFormed (.mfs 0 false 16 0) = false
    ∧ wellFormed (.mfs 0 false 0 2) = false
    ∧ wellFormed (.amov 4096 0 0 0) = false
    ∧ wellFormed (.amov 0 3 0 0) = false := by decide

theorem test_ill_formed_4 :
    wellFormed (.amov 0 0 8 0) = false
    ∧ wellFormed (.amov 0 0 0 16) = false
    ∧ wellFormed (.aseti 4096 0 0 0) = false
    ∧ wellFormed (.aseti 0 3 0 0) = false
    ∧ wellFormed (.aseti 0 0 8 0) = false
    ∧ wellFormed (.aseti 0 0 0 65536) = false
    ∧ wellFormed (.astep 4096 0 0) = false
    ∧ wellFormed (.astep 0 8 0) = false
    ∧ wellFormed (.astep 0 0 65536) = false
    ∧ wellFormed (.vneg 4096 false 0 0) = false
    ∧ wellFormed (.vneg 0 false 16 0) = false
    ∧ wellFormed (.vneg 0 false 0 16) = false
    ∧ wellFormed (.vsrai 4096 false 0 0 0) = false
    ∧ wellFormed (.vsrai 0 false 16 0 0) = false
    ∧ wellFormed (.vsrai 0 false 0 16 0) = false
    ∧ wellFormed (.vsrai 0 false 0 0 8) = false
    ∧ wellFormed (.vext 4096 false 0 0 0) = false
    ∧ wellFormed (.vext 0 false 16 0 0) = false
    ∧ wellFormed (.vext 0 false 0 16 0) = false
    ∧ wellFormed (.vext 0 false 0 0 16) = false := by decide

theorem test_ill_formed_5 :
    wellFormed (.cmac 4096 false 0 0 0 0) = false
    ∧ wellFormed (.cmac 0 false 4 0 0 0) = false
    ∧ wellFormed (.cmac 0 false 0 16 0 0) = false
    ∧ wellFormed (.cmac 0 false 0 0 16 0) = false
    ∧ wellFormed (.cmac 0 false 0 0 0 16) = false
    ∧ wellFormed (.cmace 4096 false 0 0 0) = false
    ∧ wellFormed (.cmace 0 false 4 0 0) = false
    ∧ wellFormed (.cmace 0 false 0 16 0) = false
    ∧ wellFormed (.cmace 0 false 0 0 16) = false
    ∧ wellFormed (.narrow 4096 false 0 0 0) = false
    ∧ wellFormed (.narrow 0 false 16 0 0) = false
    ∧ wellFormed (.narrow 0 false 0 4 0) = false
    ∧ wellFormed (.narrow 0 false 0 0 32) = false
    ∧ wellFormed (.narrows 4096 false 0 0 0) = false
    ∧ wellFormed (.narrows 0 false 16 0 0) = false
    ∧ wellFormed (.narrows 0 false 0 4 0) = false
    ∧ wellFormed (.narrows 0 false 0 0 16) = false
    ∧ wellFormed (.jal 4096 0 0) = false
    ∧ wellFormed (.jal 0 16 0) = false
    ∧ wellFormed (.jal 0 0 4096) = false := by decide

theorem test_ill_formed_6 :
    wellFormed (.dbnz 4096 0 0) = false
    ∧ wellFormed (.dbnz 0 16 0) = false
    ∧ wellFormed (.dbnz 0 0 4096) = false
    ∧ wellFormed (.rep 4096 0) = false
    ∧ wellFormed (.rep 0 65536) = false
    ∧ wellFormed (.lock 4096 1) = false
    ∧ wellFormed (.lock 0 0) = false
    ∧ wellFormed (.lock 0 5) = false
    ∧ wellFormed (.exit 4096 0) = false
    ∧ wellFormed (.exit 0 256) = false
    ∧ wellFormed (.descriptorPost 8 0 0) = false
    ∧ wellFormed (.descriptorPost 0 2048 0) = false
    ∧ wellFormed (.postSlotStore 8 0 0 0) = false
    ∧ wellFormed (.postSlotStore 0 2048 0 0) = false
    ∧ wellFormed (.postSlotStore 0 0 7 0) = false
    ∧ wellFormed (.resultRead 4096 0 0 0) = false
    ∧ wellFormed (.resultRead 0 8 0 0) = false
    ∧ wellFormed (.resultRead 0 0 2048 0) = false
    ∧ wellFormed (.delayListRelease 8 0) = false
    ∧ wellFormed (.delayListRelease 0 8) = false := by decide

theorem test_ill_formed_7 :
    wellFormed (.dspQminWrite .warden 8 0 0) = false
    ∧ wellFormed (.dspQminWrite .warden 0 256 0) = false
    ∧ wellFormed (.clsCycLowRead 4096 0 0) = false
    ∧ wellFormed (.clsCycLowRead 0 8 0) = false
    ∧ wellFormed (.clsCycLowRead 0 0 8) = false
    ∧ wellFormed (.ptrProdWrite .warden 4096 0) = false
    ∧ wellFormed (.trainingDone 16 false 0 0 []) = false
    ∧ wellFormed (.trainingDone 0 false 0 4 []) = false
    ∧ wellFormed (.selfRefreshEntry 16) = false
    ∧ wellFormed (.dramReadDecode 16 0) = false
    ∧ wellFormed (.dramReadDecode 0 16) = false
    ∧ wellFormed (.treeBuildDone 8 0) = false
    ∧ wellFormed (.treeBuildDone 0 8) = false
    ∧ wellFormed (.counterCacheEvict 8 0) = false
    ∧ wellFormed (.counterCacheEvict 0 2048) = false
    ∧ wellFormed (.losAssert 512) = false
    ∧ wellFormed (.portLinkChange 64 0 false) = false
    ∧ wellFormed (.portLinkChange 0 8 false) = false
    ∧ wellFormed (.txUnitQueued 64 0) = false
    ∧ wellFormed (.txUnitQueued 0 4096) = false := by decide

theorem test_ill_formed_8 :
    wellFormed (.gateEntryEnd 64) = false
    ∧ wellFormed (.wrapsWrap 8) = false
    ∧ wellFormed (.tuTbNsRead 4096 0) = false
    ∧ wellFormed (.tuTbNsRead 0 8) = false
    ∧ wellFormed (.captureEdge 32 false) = false
    ∧ wellFormed (.outputEdge 16) = false
    ∧ wellFormed (.ptpMessageSend 0 16) = false
    ∧ wellFormed (.esmcTimeout 8) = false
    ∧ wellFormed (.pmbusPoll 32 false 0 0 0 0) = false
    ∧ wellFormed (.fanTachFault 8 0 false) = false
    ∧ wellFormed (.svpMaskedWrite .warden false 6 0) = false
    ∧ wellFormed (.pinSwitchEnd 96) = false
    ∧ wellFormed (.dbgacc 4 0 0) = false
    ∧ wellFormed (.dbgacc 0 65536 0) = false
    ∧ wellFormed (.dbgHaltReqWrite .warden 8 0 0) = false
    ∧ wellFormed (.dbgHaltReqWrite .warden 0 16 0) = false
    ∧ wellFormed (.tileHalt 8 0) = false
    ∧ wellFormed (.tileHalt 0 512) = false
    ∧ wellFormed (.crossTriggerPulse 16 0) = false
    ∧ wellFormed (.crossTriggerPulse 0 8) = false := by decide

theorem test_ill_formed_9 :
    wellFormed (.pcieConfigurationRequest 2 0 false 0) = false
    ∧ wellFormed (.pcieConfigurationRequest 0 4096 false 0) = false
    ∧ wellFormed (.tapInstruction false 64 []) = false
    ∧ wellFormed (.lw 4096 0 0 0 0) = false
    ∧ wellFormed (.lw 0 16 0 0 0) = false
    ∧ wellFormed (.sw 0 0 8 0 0) = false
    ∧ wellFormed (.vld 0 0 0 3 0) = false
    ∧ wellFormed (.vst 0 0 0 2 16) = false
    ∧ wellFormed (.vst 0 0 0 1 32768) = false
    ∧ wellFormed (.b 4096 1 0 0 0) = false
    ∧ wellFormed (.b 0 9 0 0 0) = false
    ∧ wellFormed (.b 0 0 1 0 0) = false
    ∧ wellFormed (.b 0 1 16 0 0) = false
    ∧ wellFormed (.b 0 7 0 1 0) = false
    ∧ wellFormed (.b 0 1 0 16 0) = false
    ∧ wellFormed (.b 0 1 0 0 4096) = false
    ∧ wellFormed (.settmr 0 true 16) = false
    ∧ wellFormed (.settmr 0 false 1048576) = false
    ∧ wellFormed (.loadFrame 8 0 [] [] 0) = false
    ∧ wellFormed (.loadFrame 0 0 [] [] 1) = false := by decide

theorem test_ill_formed_10 :
    wellFormed (.uartByteReceive 2 0) = false := by decide

/-! ### Checks against figures that the spec works out -/

/-- 01, WDN_ID: the part number is 0x8512; a device of revision B1 reads 0x21 in its low byte. -/
theorem test_device_id : rdF State.reset wdnBase 31 16 = 0x8512 ∧ rdF State.reset wdnBase 7 0 = 0x21 := by
  have h : rd State.reset wdnBase = word (0x85120021 + (Config.speedGrade % 16) * 2 ^ 12 + (Config.tempGrade % 16) * 2 ^ 8) := rfl
  simp only [rdF, h, fld, nfld, word, BitVec.toNat_ofNat]
  omega

/-- 05 R149: parity of each byte, then of each bit position, of 0x0123456789ABCDEF, worked by hand. -/
theorem test_square_bits : squareOf 0x0123456789ABCDEF = 0x00FF := by decide +kernel
/-- 05 R150: bit 43 inverted is put back. -/
theorem test_square_corrects :
    squareCheck ⟨0x0123456789ABCDEF ^^^ 2 ^ 43, 0x00FF⟩ = (1, 0x0123456789ABCDEF, ⟨0x0123456789ABCDEF, 0x00FF⟩) := by decide +kernel

/-- 09, words of the tail of the uplink kernel; CMACZ acc3 by its field table. -/
theorem test_words_cmac :
    tileWord (.cmac 0 true 0 0 8 15) = some (0, 0xB0023C00) ∧ tileWord (.cmac 0 true 1 0 9 15) = some (0, 0xB0427C00) ∧
    tileWord (.cmac 0 true 2 2 10 1) = some (0, 0xB08A8400) ∧ tileWord (.cmac 0 true 3 2 11 1) = some (0, 0xB0CAC400) ∧
    tileWord (.cmacz 0 true 2 1 10 0) = some (0, 0xB1868000) := by decide +kernel
theorem test_words_narrow_load_store :
    tileWord (.narrows 0 false 4 0 3) = some (0, 0x39400003) ∧ tileWord (.narrows 0 false 5 1 3) = some (0, 0x39540003) ∧
    tileWord (.vld 0 2 0 0 1024) = some (0, 0x43200400) ∧ tileWord (.vld 0 11 1 0 32) = some (0, 0x43B20020) ∧
    tileWord (.vst 0 4 2 0 1024) = some (0, 0x44440400) := by decide +kernel
theorem test_words_read_back :
    tileDecode 0 0xB0023C00 = some (.cmac 0 true 0 0 8 15) ∧ tileDecode 0 0x39540003 = some (.narrows 0 false 5 1 3) ∧
    tileDecode 0 0x44440400 = some (.vst 0 4 2 0 1024) ∧ tileDecode 0 0x18708040 = some (.lui 0 false 7 0x8040) := by decide +kernel
/-- No opcode at the top of the class, and no pair after a word of class M. -/
theorem test_words_refused : tileDecode 0 0x3F000000 = none ∧ tileDecode 0 0xC3200400 = none := by decide +kernel

/-- 09, CMAC and CMACJ, by hand: (3 - 2i)(5 + 4i) = 23 + 2i; by the conjugate weight 7 - 22i. -/
theorem test_complex_product : cprod false 3 (-2) 5 4 = (23, 2) ∧ cprod true 3 (-2) 5 4 = (7, -22) := by decide
/-- 08 R255: an arithmetic right shift of -5 by 1 gives -3; R254: the narrowing saturates or wraps. -/
theorem test_narrowing : sraI (-5) 1 = -3 ∧ sraI (-300) 1 = -150 ∧ sraI (-301) 1 = -151 ∧ fitN 8 true (-150) = 0x80 ∧ fitN 8 false (-150) = 106 ∧
    ovfN 8 (-150) = true ∧ ovfN 8 (-128) = false := by decide
/-- 08 R246: the data walk returns to its group after 16 antennas. -/
theorem test_circular_walk : stepAddr 0x3C20 0x20 16384 1024 = 0x20 := by decide

/-- 13, the worked layout of a region of 16,384 MiB. -/
theorem test_region_layout : treeDepth (linesOf 16384) = 10 ∧ levelNodes 268435456 1 = 38347923 ∧ metaMib (linesOf 16384) = 4779 := by
  decide +kernel

/-- 12 R377: one wrong symbol is named with its error; S1 = 5 * α^3 = 0x28. -/
theorem test_codeword_one_symbol :
    cwClass false ((List.replicate 18 0).set 3 5) = .corrected 3 5 ∧ syn1 ((List.replicate 18 0).set 3 5) = 0x28 := by decide +kernel
/-- 19, the example: errors 0x01 and 0x8F in symbols 0 and 1 look like 0x8E in symbol 2. -/
theorem test_codeword_miscorrection :
    cwClass false (((List.replicate 18 0).set 0 1).set 1 0x8F) = .corrected 2 0x8E := by decide +kernel
/-- 19, the example: that channel address of C3 holds the line 0x0040_1234_5740 of G1's window. -/
theorem test_channel_address : winAddr 1 (offsetOf (on [(memBlk 3 + 8, word (2 ^ 31))] up) 3 0x091A2B40) = 0x004012345740 := by decide +kernel

/-- 06, the backhaul flow: interference and cost of its outputs. -/
theorem test_path_sums :
    interference grid (.trunk 8 0) 4 = 13 ∧ interference grid (.trunk 8 0) 2 = 7 ∧ interference grid (.trunk 8 0) 1 = 4 ∧
    interference grid (.trunk 8 0) 0 = 1 ∧ outCost grid (.trunk 8 0) = 11 ∧ outCost grid (.lane 10 2 true) = 10 := by decide +kernel

/-- 10 R313: 100 ns past is 2^40 - 100 ahead; the posts of the example lie 83,000 ns ahead. -/
theorem test_distance : distance 53000 53100 = 2 ^ 40 - 100 ∧ distance 1200053000 1199970000 = 83000 := by decide

/-- 16, the mains failure: what the battery sustains for the time announced. -/
theorem test_sustain :
    sustainMw (tal16 (fun t => { t with eRem := 2376000, tOut := 7200 }) up) = 330000 ∧
    sustainMw (tal16 (fun t => { t with eRem := 2191000, tOut := 14400 }) up) = 152152 := by decide +kernel

/-- A command at the front of the queue is performed, and the queue moves up. -/
theorem test_step_takes_the_front :
    (match step { State.reset with pending := [.perstNRise, .refLost] } with | .next t => t.pending | _ => []) = [.refLost] := by
  decide +kernel

/-! ### States that meet the hypotheses of the statements

Each theorem takes a statement and applies it, clause by clause, to a concrete state and operands; every hypothesis of
the clause is shown of them. -/

/-- A statement that a term proves; the term stands in it, with every hypothesis it discharges. -/
def Shown {p : Prop} (_ : p) : Prop := p
theorem shown {p : Prop} (h : p) : Shown h := h

namespace C01

/-- The host link up. -/
def linkUp (s : State) : State := { s with pkg := { s.pkg with endpointUp := true } }
/-- Slots in two states, with signatures that verify. -/
def slots (a b : Nat) (s : State) : State :=
  { s with ward := { s.ward with slotA := { state := a, version := 7, sigOk := a < 4 }, slotB := { state := b, version := 8, sigOk := true } } }
/-- Booths 5 and 6 in POSTED, booth 5 with an unknown opcode. -/
def posted (s : State) : State :=
  on [(boothSlot 5, 1), (boothSlot 6, 1)] { s with ward := { s.ward with posted := [5, 6], poster := [], req := [(5 * 4096, 0x0001FFFF)] } }
/-- A command with its response. -/
def ready (b : Nat) : Taken := { booth := b, op := 0x0101, seq := 1, flags := 0, args := [], phase := .answered, resp := [9] }
/-- Booth 3 in TAKEN, its response known. -/
def answered (s : State) : State := on [(boothSlot 3, 2)] { s with ward := { s.ward with taken := [ready 3] } }
/-- Three events lost. -/
def lost (s : State) : State := { s with ward := { s.ward with lostCount := 3, lostGroups := 2 } }
/-- Pair 0 active, pair 1 the standby. -/
def paired (s : State) : State := { s with ward := { s.ward with pair0 := .active, pair1 := .standby } }
/-- Pair 1 fenced. -/
def fenced1 (s : State) : State := { s with ward := { s.ward with pair0 := .active, pair1 := .fenced } }
/-- Slots whose signatures do not verify. -/
def noSig (s : State) : State := { s with ward := { s.ward with slotA := { sigOk := false }, slotB := { sigOk := false } } }

theorem test_meets_IdleStepCountsTime (h : Obligations.IdleStepCountsTime) :
    Shown ((h State.reset (by decide +kernel)).1 (by decide +kernel)) ∧
    Shown ((h up (by decide +kernel)).2 (by decide +kernel) (by decide +kernel) (by decide +kernel) (by decide +kernel)) :=
  ⟨shown _, shown _⟩

theorem test_meets_PackageResetResetsAllButOtp (h : Obligations.PackageResetResetsAllButOtp) :
    Shown (h.1 (on [(wdnBase + 0x14, 3), (clkBase + 0x100, 2), (clkReady, 7)] up) 1) ∧
    Shown (h.2.1 (on [(clkReady, 7)] up)) ∧
    Shown (h.2.2 (on [(clkReady, 7)] up)) :=
  ⟨shown _, shown _, shown _⟩

theorem test_meets_ResetReleaseAndHostLink (h : Obligations.ResetReleaseAndHostLink) :
    Shown ((h.1).1 up) ∧
    Shown ((h.2) State.reset 0x180 true [] [] (by decide +kernel)) :=
  ⟨shown _, shown _⟩

theorem test_meets_BootSlotStartsFirmware (h : Obligations.BootSlotStartsFirmware) :
    Shown ((h (slots 3 0 (on [(wardStatus, 0x1002), (cfgBase, 0x50000)] up)) (by decide +kernel) (by decide +kernel) (by decide +kernel) (by decide +kernel)).1 0 (by decide +kernel) (by decide +kernel) (by decide +kernel) (by decide +kernel)) ∧
    Shown ((h (slots 4 1 (on [(wardStatus, 0x1002), (cfgBase, 0x50000)] up)) (by decide +kernel) (by decide +kernel) (by decide +kernel) (by decide +kernel)).2.1 0 (by decide +kernel) (by decide +kernel) (by decide +kernel) (by decide +kernel) (by decide +kernel)) ∧
    Shown ((h (noSig <| on [(wardStatus, 0x1002), (cfgBase, 0x50000)] up) (by decide +kernel) (by decide +kernel) (by decide +kernel) (by decide +kernel)).2.2 (by decide +kernel) (by decide +kernel)) :=
  ⟨shown _, shown _, shown _⟩

theorem test_meets_HostAccessesCountedAndPerformed (h : Obligations.HostAccessesCountedAndPerformed) :
    Shown (h.1 up 0x01F 0xFFFFFFFFFFF0 (by decide +kernel) (by decide +kernel)) ∧
    Shown (h.2.1 up clkBase (by decide +kernel)) ∧
    Shown ((h.2.2.1 up (.host 0) 15 0x87654327 (by decide +kernel) (by decide +kernel) (by decide +kernel) (by decide +kernel) (by decide +kernel)).1) ∧
    Shown ((h.2.2.1 (on [(boothSlot 17 + 0xC, 7)] up) (.host 1) 17 5 (by decide +kernel) (by decide +kernel) (by decide +kernel) (by decide +kernel) (by decide +kernel)).2) ∧
    Shown ((h.2.2.2 (on [(wdnBase + 0x18, 5)] up) (by decide +kernel) (by decide +kernel)).1) ∧
    Shown ((h.2.2.2 (on [(wdnBase + 0x18, 5)] up) (by decide +kernel) (by decide +kernel)).2) :=
  ⟨shown _, shown _, shown _, shown _, shown _, shown _⟩

theorem test_meets_BoothHandshake (h : Obligations.BoothHandshake) :
    Shown (((h up (.host 0) 3 (by decide +kernel) (by decide +kernel)).1 (by decide +kernel)).1 16380 0x77 (by decide +kernel) (by decide +kernel) |>.1 (by decide +kernel)) ∧
    Shown (((h (on [(boothSlot 3, 3)] up) (.host 0) 3 (by decide +kernel) (by decide +kernel)).1 (by decide +kernel)).1 0 0x77 (by decide +kernel) (by decide +kernel) |>.2 (by decide +kernel)) ∧
    Shown (((h up (.host 1) 31 (by decide +kernel) (by decide +kernel)).1 (by decide +kernel)).2.1 (by decide +kernel) (by decide +kernel)) ∧
    Shown (((h (on [(boothSlot 3, 2)] up) (.host 0) 3 (by decide +kernel) (by decide +kernel)).1 (by decide +kernel)).2.2.1 (by decide +kernel)) ∧
    Shown (((h (on [(boothSlot 3, 3), (boothSlot 3 + 8, 1)] up) (.host 0) 3 (by decide +kernel) (by decide +kernel)).1 (by decide +kernel)).2.2.2.1 (by decide +kernel)) ∧
    Shown (((h (on [(boothSlot 3, 1)] up) (.host 0) 3 (by decide +kernel) (by decide +kernel)).1 (by decide +kernel)).2.2.2.2 (by decide +kernel)) ∧
    Shown ((h up (.host 1) 3 (by decide +kernel) (by decide +kernel)).2 (by decide +kernel)) :=
  ⟨shown _, shown _, shown _, shown _, shown _, shown _, shown _⟩

theorem test_meets_WardenTakesCompletesAndReports (h : Obligations.WardenTakesCompletesAndReports) :
    Shown ((h.1).1 (posted up) 5 [6] (by decide +kernel) (by decide +kernel) (by decide +kernel) (by decide +kernel) (by decide +kernel) (by decide +kernel) (by decide +kernel)) ∧
    Shown (((h.2).1 (on [(evtProd, 2), (evtCons, 0xFFFF)] up) 1 (by decide +kernel) (by decide +kernel)).1 (by decide +kernel)) :=
  ⟨shown _, shown _⟩

theorem test_meets_WardenPairsFailOver (h : Obligations.WardenPairsFailOver) :
    Shown (((h (paired up) (by decide +kernel) (by decide +kernel) (by decide +kernel)).1 0 (by decide +kernel) (by decide +kernel) (by decide +kernel) (by decide +kernel)).1) ∧
    Shown (((h (paired up) (by decide +kernel) (by decide +kernel) (by decide +kernel)).1 0 (by decide +kernel) (by decide +kernel) (by decide +kernel) (by decide +kernel)).2.1) ∧
    Shown (((h (paired up) (by decide +kernel) (by decide +kernel) (by decide +kernel)).1 0 (by decide +kernel) (by decide +kernel) (by decide +kernel) (by decide +kernel)).2.2.1 (by decide +kernel)) ∧
    Shown (((h (paired up) (by decide +kernel) (by decide +kernel) (by decide +kernel)).1 0 (by decide +kernel) (by decide +kernel) (by decide +kernel) (by decide +kernel)).2.2.2 (by decide +kernel) 3) ∧
    Shown (((h (fenced1 up) (by decide +kernel) (by decide +kernel) (by decide +kernel)).2.1 1 (by decide +kernel) (by decide +kernel) (by decide +kernel) (by decide +kernel)).1) ∧
    Shown (((h (fenced1 up) (by decide +kernel) (by decide +kernel) (by decide +kernel)).2.1 1 (by decide +kernel) (by decide +kernel) (by decide +kernel) (by decide +kernel)).2) ∧
    Shown ((h (paired up) (by decide +kernel) (by decide +kernel) (by decide +kernel)).2.2) :=
  ⟨shown _, shown _, shown _, shown _, shown _, shown _, shown _⟩

end C01

namespace C02

/-- SYS_RESET accepted. -/
def resetDue (s : State) : State := { s with ward := { s.ward with resetDue := true } }
/-- Slot B being staged for booth 3. -/
def staging (s : State) : State :=
  on [(wardStatus, 0x1202)] { s with ward := { s.ward with stageSlot := some 1, stageBack := 0x11, taken := [going 3 0x0103] } }
/-- A firmware image. -/
def image : FwImage := { version := 5, level := 1, format := 0, length := 3145728, epoch := 0, digest := [], sig := [], poisoned := false }
/-- A minimum level of 2. -/
def level2 (s : State) : State := { s with ward := { s.ward with setVal := s.ward.setVal.set 0 2 } }
/-- Slots in two states. -/
def slots (a b : Nat) (s : State) : State :=
  { s with ward := { s.ward with slotA := { state := a, version := 7 }, slotB := { state := b, version := 8 } } }
/-- Pair 0 active, pair 1 the standby. -/
def paired (s : State) : State := { s with ward := { s.ward with pair0 := .active, pair1 := .standby } }
/-- A hand-over to slot B. -/
def handing (s : State) : State := { s with ward := { s.ward with handSlot := some 1, taken := [going 3 0x0104] } }
/-- A preparation of setting 5. -/
def prep : Preparation := { booth := 3, index := 5, value := 1, token := 0xFFFF }
/-- It stands. -/
def prepared (s : State) : State := { s with ward := { s.ward with prep := some prep } }
/-- An audit record. -/
def recorded (s : State) : State :=
  { s with ward := { s.ward with audit := [{ index := 0xFFFFFFFF, kind := 1, setting := 0, booth := 0, result := 0, old := 0, new := 0, ns := 0, wraps := 0, tb := 0, valid := false, steps := 0, fw := 0 }] } }
/-- A command with DRY_RUN. -/
def dryK (b : Nat) : Taken := { booth := b, op := 0x0502, seq := 1, flags := 2, args := [0, 0, 0, 0, 0, 0] }
def dry (s : State) : State := { s with ward := { s.ward with taken := [dryK 3] } }
/-- A command of a booth posted. -/
def req02 (b op : Nat) (s : State) : State := { s with ward := { s.ward with posted := [b], req := [(b * 4096, word op)] } }

theorem test_meets_IllegalStateIsAnsweredWrongState (h : Obligations.IllegalStateIsAnsweredWrongState) :
    Shown ((h (cmd 3 0x0304 [0,0,0,0] up) 3 0x0304 (.cfgRelease 3) [0x42] [0,0,0,0] .cfgRelease).1 (by decide +kernel) 0x40 (by decide +kernel) (by decide +kernel)) ∧
    Shown ((h (on [(wardStatus, 0x1502)] (cmd 3 0x0902 [0, 0] up)) 3 0x0902 (.setPrepare 3) [0x20] [0, 0] .setPrepare).2 (by decide +kernel) (by decide +kernel) (by decide +kernel) (by decide +kernel) (by decide +kernel)) :=
  ⟨shown _, shown _⟩

theorem test_meets_SysInformationAndConfiguration (h : Obligations.SysInformationAndConfiguration) :
    Shown (h.1 (cmd 3 0x0101 [] up) 3 (by decide +kernel)) ∧
    Shown (h.2.1 (cmd 3 0x0102 [7, 0x1FFE, 3] up) 3 7 4095 3 (by decide +kernel) (by decide +kernel) (by decide +kernel) (by decide +kernel)) ∧
    Shown (h.2.2.1 (cmd 3 0x0109 [61] (on [(boothSlot 61, 3), (boothSlot 61 + 8, 1)] up)) 3 61 (by decide +kernel) (by decide +kernel) (by decide +kernel)) ∧
    Shown (h.2.2.2.1 (cmd 3 0x0108 [0xB007C0DE] up) 3 (by decide +kernel)) ∧
    Shown (h.2.2.2.2 (resetDue up) (by decide +kernel) (by decide +kernel)) :=
  ⟨shown _, shown _, shown _, shown _, shown _⟩

theorem test_meets_FirmwareStageSwitchCommit (h : Obligations.FirmwareStageSwitchCommit) :
    Shown (h.1 (cmd 3 0x0103 [1, 2, 3, 4, 5] up) 3 1 [2, 3, 4, 5] (by decide +kernel) (by decide +kernel) (by decide +kernel) (by decide +kernel) (by decide +kernel)) ∧
    Shown ((h.2.1 (staging up) image 1 (by decide +kernel) (by decide +kernel) (by decide +kernel)).1 (by decide +kernel) (by decide +kernel) (by decide +kernel)) ∧
    Shown ((h.2.1 (level2 (staging up)) image 1 (by decide +kernel) (by decide +kernel) (by decide +kernel)).2 (by decide +kernel)) ∧
    Shown ((h.2.2.1 (cmd 3 0x0104 [1] (on [(wardStatus, 0x1100)] up)) 3 1 (by decide +kernel) (by decide +kernel)).1 (by decide +kernel)) ∧
    Shown ((h.2.2.1 (cmd 3 0x0104 [1] (slots 3 1 up)) 3 1 (by decide +kernel) (by decide +kernel)).2 (by decide +kernel) (by decide +kernel)) ∧
    Shown (h.2.2.2.1 (cmd 3 0x0106 [] (slots 3 2 (on [(wardStatus, 0x1402)] up))) 3 (by decide +kernel) (by decide +kernel) (by decide +kernel) (by decide +kernel) (by decide +kernel)) ∧
    Shown ((h.2.2.2.2.1 (handing (slots 3 1 (on [(wardStatus, 0x1302)] up))) 1 (by decide +kernel) (by decide +kernel) (by decide +kernel)).1) ∧
    Shown ((h.2.2.2.2.1 (handing (slots 3 1 (on [(wardStatus, 0x1302)] up))) 1 (by decide +kernel) (by decide +kernel) (by decide +kernel)).2) ∧
    Shown (h.2.2.2.2.2.1 (cmd 3 0x0105 [1] (slots 3 1 up)) 3 1 (by decide +kernel) (by decide +kernel) (by decide +kernel) (by decide +kernel)) ∧
    Shown (h.2.2.2.2.2.2 (cmd 3 0x0107 [] (paired up)) 3 0 (by decide +kernel) (by decide +kernel) (by decide +kernel) (by decide +kernel) (by decide +kernel) (by decide +kernel)) :=
  ⟨shown _, shown _, shown _, shown _, shown _, shown _, shown _, shown _, shown _, shown _⟩

theorem test_meets_CountedSettingsArePreparedAndBurnt (h : Obligations.CountedSettingsArePreparedAndBurnt) :
    Shown (h.1 (cmd 3 0x0901 [] up) 3 (by decide +kernel)) ∧
    Shown (h.2.1 (cmd 3 0x0902 [2, 0x123] up) 3 2 0x123 (by decide +kernel) (by decide +kernel) (by decide +kernel) (by decide +kernel) (by decide +kernel) (by decide +kernel)) ∧
    Shown (h.2.2.1 (cmd 3 0x0902 [8, 0xFFFFFFFF] up) 3 8 0xFFFFFFFF (by decide +kernel) (by decide +kernel) (by decide +kernel) (by decide +kernel) (by decide +kernel)) ∧
    Shown ((h.2.2.2.1 (cmd 3 0x0903 [5, 1, 0xFFFF] (prepared up)) 3 prep (by decide +kernel) (by decide +kernel) (by decide +kernel) (by decide +kernel) (by decide +kernel) (by decide +kernel) (by decide +kernel) (by decide +kernel) (by decide +kernel) (by decide +kernel) (by decide +kernel) (by decide +kernel) (by decide +kernel)).1) ∧
    Shown ((h.2.2.2.1 (cmd 3 0x0903 [5, 1, 0xFFFF] (prepared up)) 3 prep (by decide +kernel) (by decide +kernel) (by decide +kernel) (by decide +kernel) (by decide +kernel) (by decide +kernel) (by decide +kernel) (by decide +kernel) (by decide +kernel) (by decide +kernel) (by decide +kernel) (by decide +kernel) (by decide +kernel)).2) ∧
    Shown (h.2.2.2.2.1 (cmd 4 0x0903 [5, 1, 0xFFFF] (prepared up)) 4 prep 5 1 0xFFFF (by decide +kernel) (by decide +kernel) (by decide +kernel) (by decide +kernel) (by decide +kernel) (by decide +kernel)) ∧
    Shown (h.2.2.2.2.2.1 (cmd 15 0x0904 [] (prepared up)) 15 prep (by decide +kernel) (by decide +kernel) (by decide +kernel)) ∧
    Shown (h.2.2.2.2.2.2.1 (prepared up) prep (by decide +kernel)) ∧
    Shown (h.2.2.2.2.2.2.2.1 (cmd 3 0x0905 [] up) 3 (by decide +kernel)) ∧
    Shown (h.2.2.2.2.2.2.2.2 (cmd 3 0x0906 [0xFFFFFFFF, 511] (recorded up)) 3 0xFFFFFFFF 511 (by decide +kernel) (by decide +kernel) (by decide +kernel) (by decide +kernel)) :=
  ⟨shown _, shown _, shown _, shown _, shown _, shown _, shown _, shown _, shown _, shown _⟩

theorem test_meets_DryRunChangesOnlyTheAnswer (h : Obligations.DryRunChangesOnlyTheAnswer) :
    Shown (h (dry up) 3 (dryK 3) (by decide +kernel) (by decide +kernel) (by decide +kernel) (.timeSet 3) .timeSet) :=
  shown _

theorem test_meets_BoothClassesOpenGroups (h : Obligations.BoothClassesOpenGroups) :
    Shown ((h (req02 47 0x0602 up) 47 [] (by decide +kernel) (by decide +kernel) (by decide +kernel) (by decide +kernel) (by decide +kernel) (by decide +kernel) (by decide +kernel) (by decide +kernel) (by decide +kernel)).1 (by decide +kernel)) ∧
    Shown ((h (req02 15 0x0A01 up) 15 [] (by decide +kernel) (by decide +kernel) (by decide +kernel) (by decide +kernel) (by decide +kernel) (by decide +kernel) (by decide +kernel) (by decide +kernel) (by decide +kernel)).1 (by decide +kernel)) ∧
    Shown ((h (req02 59 0x0501 up) 59 [] (by decide +kernel) (by decide +kernel) (by decide +kernel) (by decide +kernel) (by decide +kernel) (by decide +kernel) (by decide +kernel) (by decide +kernel) (by decide +kernel)).1 (by decide +kernel)) ∧
    Shown ((h (req02 61 0x0902 up) 61 [] (by decide +kernel) (by decide +kernel) (by decide +kernel) (by decide +kernel) (by decide +kernel) (by decide +kernel) (by decide +kernel) (by decide +kernel) (by decide +kernel)).1 (by decide +kernel)) ∧
    Shown ((h (req02 62 0x0102 up) 62 [] (by decide +kernel) (by decide +kernel) (by decide +kernel) (by decide +kernel) (by decide +kernel) (by decide +kernel) (by decide +kernel) (by decide +kernel) (by decide +kernel)).1 (by decide +kernel)) ∧
    Shown ((h (req02 16 0x0C0E up) 16 [] (by decide +kernel) (by decide +kernel) (by decide +kernel) (by decide +kernel) (by decide +kernel) (by decide +kernel) (by decide +kernel) (by decide +kernel) (by decide +kernel)).1 (by decide +kernel)) ∧
    Shown ((h (req02 16 0x0609 up) 16 [] (by decide +kernel) (by decide +kernel) (by decide +kernel) (by decide +kernel) (by decide +kernel) (by decide +kernel) (by decide +kernel) (by decide +kernel) (by decide +kernel)).2 (by decide +kernel) (by decide +kernel) (.inl (by decide +kernel))) ∧
    Shown ((h (req02 47 0x0C0F up) 47 [] (by decide +kernel) (by decide +kernel) (by decide +kernel) (by decide +kernel) (by decide +kernel) (by decide +kernel) (by decide +kernel) (by decide +kernel) (by decide +kernel)).2 (by decide +kernel) (by decide +kernel) (.inr (by decide +kernel))) :=
  ⟨shown _, shown _, shown _, shown _, shown _, shown _, shown _, shown _⟩

end C02

namespace C03

/-- TL being slewed. -/
def slewing (s : State) : State := { s with clk := { s.clk with switching := [1] } }
/-- Both XINs with their amplitude. -/
def ampl (s : State) : State := { s with clk := { s.clk with ampl := [0, 1] } }
/-- XIN0 after 15 unsatisfied start delays. -/
def fails (s : State) : State := { s with clk := { s.clk with fails0 := 15 } }
/-- The links of every die with their clocks. -/
def linked (s : State) : State := setLink 8 3 { linkAt s 8 3 with clock := true } s
/-- G0 and G1 released. -/
def released (s : State) : State := { s with clk := { s.clk with released := [8, 9] } }
/-- A CLK_DIE_RESET of G1 in progress. -/
def resetting (s : State) : State := { s with clk := { s.clk with dieResets := [(9, 3, false)] } }
/-- G1 released after it, its command running. -/
def rejoining (s : State) : State :=
  { s with clk := { s.clk with dieResets := [(9, 3, false)], released := [9] }, ward := { s.ward with taken := [going 3 0x0206] } }
/-- An entry of delay list 0 of G0, 50 us before its release by time base 0. -/
def due (s : State) : State :=
  { s with dsp := { s.dsp with slots := [(0, some { item := {}, stage := .delay, due := 50000 })] },
           tu := { s.tu with replicas := [(8, { loaded := true, cores := [(0, { run := true })] })] } }

theorem test_meets_ClockSelectionIsHonouredWhenReady (h : Obligations.ClockSelectionIsHonouredWhenReady) :
    Shown ((h.1 (on [(clkReady, 0x6)] up) 0x1 (by decide +kernel) (by decide +kernel) (by decide +kernel) (by decide +kernel) (by decide +kernel)).1 (by decide +kernel) (by decide +kernel)) ∧
    Shown ((h.1 (on [(clkReady, 0x6)] up) 0x2 (by decide +kernel) (by decide +kernel) (by decide +kernel) (by decide +kernel) (by decide +kernel)).2 (by decide +kernel)) ∧
    Shown ((h.2.1 (on [(clkBlk 4, 0xF)] up) 3 0x3 (by decide +kernel) (by decide +kernel) (by decide +kernel) (by decide +kernel)).1 (by decide +kernel) (by decide +kernel)) ∧
    Shown ((h.2.1 up 0 0x4 (by decide +kernel) (by decide +kernel) (by decide +kernel) (by decide +kernel)).2 (by decide +kernel)) ∧
    Shown (h.2.2.1 up (.host 0) 0 0x1 (by decide +kernel)) ∧
    Shown (h.2.2.2.1 (on [(clkReady, 0x6)] up) (by decide +kernel) (by decide +kernel) (by decide +kernel) (by decide +kernel) (by decide +kernel)) ∧
    Shown (h.2.2.2.2 (slewing up) (by decide +kernel) (by decide +kernel)) :=
  ⟨shown _, shown _, shown _, shown _, shown _, shown _, shown _⟩

theorem test_meets_ReferencesAreReadyLostAndHeldOver (h : Obligations.ReferencesAreReadyLostAndHeldOver) :
    Shown (((h.1).1 (on [(clkReady, 0x6), (rootSel, 0x12)] up) (by decide +kernel) (by decide +kernel)).1 (by decide +kernel) (by decide +kernel)) ∧
    Shown (((h.2).1 up (by decide +kernel)).1) :=
  ⟨shown _, shown _⟩

theorem test_meets_ClkCommandsTakeEffect (h : Obligations.ClkCommandsTakeEffect) :
    Shown (h.1 (cmd 3 0x0201 [] up) 3 (by decide +kernel)) ∧
    Shown ((h.2.1 (cmd 3 0x0202 [0, 1, 0] (on [(clkReady, 0x6)] up)) 3 1 (by decide +kernel) (by decide +kernel) (by decide +kernel)).1 (by decide +kernel) (by decide +kernel)) ∧
    Shown ((h.2.1 (cmd 3 0x0202 [0, 3, 0] (on [(clkReady, 0x6)] up)) 3 3 (by decide +kernel) (by decide +kernel) (by decide +kernel)).2 (by decide +kernel)) ∧
    Shown (h.2.2.1 (cmd 3 0x0203 [0x1707, 0, 5] (on [(clkBlk 15 + 0x18, 0x30)] up)) 3 7 23 5 (by decide +kernel) (by decide +kernel) (by decide +kernel) (by decide +kernel) (by decide +kernel) (by decide +kernel)) ∧
    Shown (h.2.2.2.1 (cmd 3 0x0204 [8, 0x20000, 1] (on [(clkBlk 8 + 0x18, 0x30), (clkBlk 8 + 0x10, 0)] up)) 3 8 0x20000 (by decide +kernel) (by decide +kernel) (by decide +kernel) (by decide +kernel)) ∧
    Shown (h.2.2.2.2.1 (cmd 3 0x0204 [1, 0x10000, 0] (on [(clkBlk 1, 0x300000)] up)) 3 1 0x10000 (by decide +kernel) (by decide +kernel) (by decide +kernel) (by decide +kernel) (by decide +kernel)) ∧
    Shown (h.2.2.2.2.2 (cmd 3 0x0205 [8, 1] (on [(clkBlk 8 + 0x18, 0x30)] up)) 3 8 1 (by decide +kernel) (by decide +kernel) (by decide +kernel) (by decide +kernel)) :=
  ⟨shown _, shown _, shown _, shown _, shown _, shown _, shown _⟩

theorem test_meets_GatesBlockResetsAndDieResets (h : Obligations.GatesBlockResetsAndDieResets) :
    Shown (((h.1).1 (on [(clkBlk 15 + 0x10, 0)] up) 15 17 (by decide +kernel) (by decide +kernel) (by decide +kernel)).1 (by decide +kernel)) ∧
    Shown ((h.2).1 (cmd 3 0x0206 [1, 0] (on [(clkBlk 1, 0x80300000), (penBlk 3, 5)] up)) 3 1 (by decide +kernel) (by decide +kernel) (by decide +kernel) (by decide +kernel)) :=
  ⟨shown _, shown _⟩

end C03

namespace C04

/-- G1 in REJOIN. -/
def grove1 : State := on [(clkBlk 9 + 0x18, 0x34)] up
/-- A boot header with nothing stated and no image. -/
def bare : List Word := [0x56494C42, 1] ++ List.replicate 158 0 ++ [2294873918]
/-- A descriptor of G1 without clearings, and its image header. -/
def desc1 : List Word := 1 :: List.replicate 2467 0
def hdr1 : List Word := [0x56494C49, 0x00200002, 2, 9872] ++ List.replicate 60 0
/-- A load of a region of G1. -/
def load1 (r src : Nat) (sh : Bool) (n k : Nat) : Load :=
  { grove := 1, region := r, shadow := sh, source := src, auto := false, frames := n, next := k, bramInit := true }
def loading (l : Load) (s : State) : State := { s with cfg := { s.cfg with loads := [l] } }
/-- A boot header of one entry, the static region of G1. -/
def tabled : List Word := [0x56494C42, 0x01000001, 0, 0, 0, 0, 0, 0, 0, 0, 0x90, 0]
def edge1 (k : Nat) : Edge := ⟨some 3, 0x0304 + k, 1, 15, k, 0, none, false⟩
/-- An edge of clearing 15 of G1 waits, its command running; its frame 7 is owned and in both planes. -/
def waiting (k : Nat) (s : State) : State :=
  during 3 0 { s with cfg := { s.cfg with edges := [edge1 k], plans := [(32, [0x101, 0, 0, 0, 0, 0, 0x00070007])] },
                      fab := { s.fab with live := [(frameKey 1 1 7, [1])], shadow := [(frameKey 1 1 7, [2])] } }
/-- Eight loads in progress. -/
def eight (s : State) : State := { s with cfg := { s.cfg with loads := List.replicate 8 (load1 15 0 false 2 0) } }
/-- A LOGIC frame of zeros, index 7, SEQ 1. -/
def frame7 : List Word := [0x91000007, 1, 1, 0, 2411111833]
def holding (s : State) : State := { s with cfg := { s.cfg with header := some tabled } }

theorem test_meets_CfgHeaderAndLoadAreChecked (h : Obligations.CfgHeaderAndLoadAreChecked) :
    Shown (h.1 (cmd 3 0x0301 [7] up) 3 7 (by decide +kernel) (by decide +kernel)) ∧
    Shown ((h.2.1 (cmd 3 0x0302 bare up) 3 bare (by decide +kernel) (by decide +kernel)).1 (by decide +kernel) (by decide +kernel)) ∧
    Shown ((h.2.1 (cmd 3 0x0302 [] { up with cfg := { up.cfg with header := some [] } }) 3 [] (by decide +kernel) (by decide +kernel)).2 (by decide +kernel)) ∧
    Shown ((h.2.2 (cmd 3 0x0303 [0x90, 1, 0, 0, 100] grove1) 3 1 1 100 [0x90, 1, 0, 0, 100] hdr1 desc1 (by decide +kernel) (by decide +kernel) (by decide +kernel) (by decide +kernel) (by decide +kernel) (by decide +kernel)).1 (by decide +kernel) (by decide +kernel)) ∧
    Shown ((h.2.2 (cmd 3 0x0303 [0x90, 1, 0, 0, 100] grove1) 3 1 1 100 [0x90, 1, 0, 0, 100] [] [] (by decide +kernel) (by decide +kernel) (by decide +kernel) (by decide +kernel) (by decide +kernel) (by decide +kernel)).2.1 (by decide +kernel) (by decide +kernel)) ∧
    Shown ((h.2.2 (cmd 3 0x0303 [0x90, 1, 0, 0, 100] (eight grove1)) 3 1 1 100 [0x90, 1, 0, 0, 100] [] [] (by decide +kernel) (by decide +kernel) (by decide +kernel) (by decide +kernel) (by decide +kernel) (by decide +kernel)).2.2 (by decide +kernel)) :=
  ⟨shown _, shown _, shown _, shown _, shown _, shown _⟩

theorem test_meets_FramesAreWrittenOrFailTheLoad (h : Obligations.FramesAreWrittenOrFailTheLoad) :
    Shown ((h.1 (loading (load1 16 0 false 2 1) grove1) 1 16 7 (load1 16 0 false 2 1) frame7 [] (by decide +kernel) (by decide +kernel) (by decide +kernel) (by decide +kernel) (by decide +kernel) (by decide +kernel) (by decide +kernel) (by decide +kernel)).1 (by decide +kernel) (by decide +kernel) (by decide +kernel)) ∧
    Shown ((h.1 (loading (load1 16 0 false 2 0) grove1) 1 16 7 (load1 16 0 false 2 0) frame7 [] (by decide +kernel) (by decide +kernel) (by decide +kernel) (by decide +kernel) (by decide +kernel) (by decide +kernel) (by decide +kernel) (by decide +kernel)).2 (by decide +kernel) (by decide +kernel)) ∧
    Shown (h.2.1 (loading (load1 15 1 true 2 0) grove1) 1 15 (load1 15 1 true 2 0) (by decide +kernel) (by decide +kernel) (by decide +kernel) (by decide +kernel) (by decide +kernel) (by decide +kernel) (by decide +kernel) (by decide +kernel) (by decide +kernel) (by decide +kernel)) ∧
    Shown (h.2.2.1 (loading (load1 15 1 false 2 2) grove1) 1 15 (load1 15 1 false 2 2) (by decide +kernel) (by decide +kernel) (by decide +kernel) (by decide +kernel) (by decide +kernel) (by decide +kernel) (by decide +kernel) (by decide +kernel)) ∧
    Shown (h.2.2.2.1 up 2 5 (by decide +kernel)) ∧
    Shown ((h.2.2.2.2 (loading (load1 15 2 false 2 0) grove1) 0 5 (load1 15 2 false 2 0) (by decide +kernel) (by decide +kernel) (by decide +kernel) (by decide +kernel)).1 (by decide +kernel)) ∧
    Shown ((h.2.2.2.2 (loading (load1 15 2 false 2 0) grove1) 2 5 (load1 15 2 false 2 0) (by decide +kernel) (by decide +kernel) (by decide +kernel) (by decide +kernel)).2.1 (by decide +kernel)) ∧
    Shown ((h.2.2.2.2 (loading (load1 15 2 false 2 0) grove1) 2 5 (load1 15 2 false 2 0) (by decide +kernel) (by decide +kernel) (by decide +kernel) (by decide +kernel)).2.2 (by decide +kernel) (by decide +kernel) (by decide +kernel) (by decide +kernel)) :=
  ⟨shown _, shown _, shown _, shown _, shown _, shown _, shown _, shown _⟩

theorem test_meets_ReleaseSwapRollbackAndClear (h : Obligations.ReleaseSwapRollbackAndClear) :
    Shown (((h.1 (cmd 3 0x0304 [0x1F, 0, 0, 0] (on [(regionReg 1 15, 0x142), (regionReg 1 16, 0x43)] grove1)) 3 1 15 (by decide +kernel) (by decide +kernel) (by decide +kernel)).1 (by decide +kernel) (by decide +kernel)).1 (by decide +kernel)) ∧
    Shown (((h.1 (cmd 3 0x0304 [0x1F, 0, 0, 0] (on [(regionReg 1 15, 0x142)] grove1)) 3 1 15 (by decide +kernel) (by decide +kernel) (by decide +kernel)).1 (by decide +kernel) (by decide +kernel)).2 (by decide +kernel)) ∧
    Shown ((h.1 (cmd 3 0x0305 [0x1F, 0, 0, 0] (on [(regionReg 1 15, 0x145)] grove1)) 3 1 15 (by decide +kernel) (by decide +kernel) (by decide +kernel)).2.1 (by decide +kernel) (by decide +kernel)) ∧
    Shown (((h.1 (cmd 3 0x0306 [0x1F, 0, 0, 0] (on [(regionReg 1 15, 0x343)] grove1)) 3 1 15 (by decide +kernel) (by decide +kernel) (by decide +kernel)).2.2.1 (by decide +kernel) (by decide +kernel)).1 (by decide +kernel)) ∧
    Shown (((h.1 (cmd 3 0x0306 [0x1F, 0, 0, 0] (on [(regionReg 1 15, 0x143)] grove1)) 3 1 15 (by decide +kernel) (by decide +kernel) (by decide +kernel)).2.2.1 (by decide +kernel) (by decide +kernel)).2 (by decide +kernel)) ∧
    Shown ((h.1 (cmd 3 0x0307 [0x1F] (on [(regionReg 1 15, 0x146)] grove1)) 3 1 15 (by decide +kernel) (by decide +kernel) (by decide +kernel)).2.2.2 (by decide +kernel) (by decide +kernel) (by decide +kernel)) ∧
    Shown (h.2.1 (waiting 0 (on [(regionReg 1 15, 0x142)] grove1)) 3 1 15 (going 3 0) (by decide +kernel) (by decide +kernel) (by decide +kernel) (by decide +kernel) (by decide +kernel) (by decide +kernel) (by decide +kernel)) ∧
    Shown (h.2.2 (waiting 1 (on [(regionReg 1 15, 0x145)] grove1)) 3 1 15 7 (going 3 0) (by decide +kernel) (by decide +kernel) (by decide +kernel) (by decide +kernel) (by decide +kernel) (by decide +kernel) (by decide +kernel) (by decide +kernel) (by decide +kernel) (by decide +kernel)) ∧
    Shown (h.2.2 (waiting 1 (on [(regionReg 1 15, 0x145)] grove1)) 3 1 15 8 (going 3 0) (by decide +kernel) (by decide +kernel) (by decide +kernel) (by decide +kernel) (by decide +kernel) (by decide +kernel) (by decide +kernel) (by decide +kernel) (by decide +kernel) (by decide +kernel)) :=
  ⟨shown _, shown _, shown _, shown _, shown _, shown _, shown _, shown _, shown _⟩

theorem test_meets_SweepReloadAndEndOfBoot (h : Obligations.SweepReloadAndEndOfBoot) :
    Shown ((h.1 grove1 1 12799 true (by decide +kernel) (by decide +kernel) (by decide +kernel) (by decide +kernel) (by decide +kernel)).1) ∧
    Shown ((h.1 grove1 1 12799 true (by decide +kernel) (by decide +kernel) (by decide +kernel) (by decide +kernel) (by decide +kernel)).2.1) ∧
    Shown ((h.1 grove1 1 0 true (by decide +kernel) (by decide +kernel) (by decide +kernel) (by decide +kernel) (by decide +kernel)).2.2) ∧
    Shown (h.2.1 (holding (on [(cfgBase, 0x80000)] grove1)) 1 0 tabled hdr1 desc1 (by decide +kernel) (by decide +kernel) (by decide +kernel) (by decide +kernel) (by decide +kernel) (by decide +kernel) (by decide +kernel) (by decide +kernel) (by decide +kernel)) ∧
    Shown (h.2.2.1 (all (on [(cfgBase, 0x90000)] grove1)) (by decide +kernel) (by decide +kernel) (by decide +kernel)) ∧
    Shown (h.2.2.2 up (by decide +kernel)) :=
  ⟨shown _, shown _, shown _, shown _, shown _, shown _⟩

end C04

namespace C05

/-- G7 in RUN, its static region RELEASED. -/
def grove7 : State := on [(clkBlk 15 + 0x18, 0x30), (regionReg 7 16, 0x43)] up
/-- The tail word of a LOGIC frame of G7 set. -/
def tail (idx : Nat) (w : Word) (s : State) : State :=
  { s with fab := { s.fab with live := sset [] s.fab.live (frameKey 7 1 idx) (List.replicate 992 0 ++ [w]) } }
/-- Block RAM 1,919 with both ports in use in shape 1,024 × 64. -/
def bram9 (c : Word) : State := tail (bramFrame 1919) c grove7
def putBram (loc d : Nat) (x : BramWord) (s : State) : State := { s with fab := { s.fab with bram := [(bramNo 7 d * 2048 + loc, some x)] } }
/-- The word of the spec's example, bit 43 of it inverted. -/
def example1 : Nat := 0x0123456789ABCDEF
def upset : BramWord := ⟨example1 ^^^ 2 ^ 43, squareOf example1⟩
def owed (s : State) : State := { s with fab := { s.fab with writeBacks := [(bramNo 7 1919, 1023)] } }
def lastSweep (s : State) : State := { s with fab := { s.fab with sweepPos := [(bramNo 7 1919, 1023)] } }
/-- The NVM of G7 enabled, with a word programmed and a command under way. -/
def nvm (w : Option Nat) (b : Option (Nat × Nat × Nat × Nat)) : State :=
  let s := tail 43 1 grove7
  let s1 := match w with | some d => nvmSet 7 262143 ⟨d, false⟩ s | none => s
  setNvmPort 7 { nvmPort s1 7 with busy := b } s1
def wornSector (n : Nat) : State := { nvm none none with fab := { (nvm none none).fab with nvmCount := [(7 * 512 + 511, n)] } }
/-- Serial port 5 of G7 enabled with items in it. -/
def serial (tx rx : List Nat) : State := setSerial 7 5 { serialAt grove7 7 5 with tx := tx, rx := rx } (tail 163 1 grove7)
/-- Probes of G7 armed at WPTR 131,070. -/
def armed (c : Word) (l : List (Nat × Word)) : State := on ((prbCtrl 7, c) :: (prbStatus 7, 0x1FFFE) :: l) grove7
def postOne (s : State) : State := { s with fab := { s.fab with postLeft := [(7, some 1)] } }

theorem test_meets_SquareCorrectsEverySingleBitError (h : Obligations.SquareCorrectsEverySingleBitError) :
    Shown ((h example1 (by decide +kernel)).1) ∧
    Shown ((h example1 (by decide +kernel)).2.1 43 (by decide +kernel)) ∧
    Shown ((h (2 ^ 64 - 1) (by decide +kernel)).2.1 63 (by decide +kernel)) ∧
    Shown ((h example1 (by decide +kernel)).2.2 15 (by decide +kernel)) :=
  ⟨shown _, shown _, shown _, shown _⟩

theorem test_meets_BlockRamPortsReadAndWrite (h : Obligations.BlockRamPortsReadAndWrite) :
    Shown ((h.1 (putBram 1023 1919 ⟨example1, squareOf example1⟩ (bram9 0x00100010)) 7 1919 1 1023 example1 (by decide +kernel) (by decide +kernel) (by decide +kernel) (by decide +kernel) (by decide +kernel) (by decide +kernel) (by decide +kernel) (by decide +kernel)).1 (by decide +kernel)) ∧
    Shown ((h.1 (bram9 0x00140010) 7 1919 1 1023 example1 (by decide +kernel) (by decide +kernel) (by decide +kernel) (by decide +kernel) (by decide +kernel) (by decide +kernel) (by decide +kernel) (by decide +kernel)).2.1 (by decide +kernel)) ∧
    Shown ((h.1 (putBram 1023 1919 upset (bram9 0x00100010)) 7 1919 0 1023 example1 (by decide +kernel) (by decide +kernel) (by decide +kernel) (by decide +kernel) (by decide +kernel) (by decide +kernel) (by decide +kernel) (by decide +kernel)).2.2.1 43 (by decide +kernel) (by decide +kernel)) ∧
    Shown ((h.1 (putBram 1023 1919 ⟨3, 0⟩ (bram9 0x00100010)) 7 1919 0 1023 example1 (by decide +kernel) (by decide +kernel) (by decide +kernel) (by decide +kernel) (by decide +kernel) (by decide +kernel) (by decide +kernel) (by decide +kernel)).2.2.2.1 (by decide +kernel)) ∧
    Shown ((h.1 (putBram 1023 1919 ⟨example1, squareOf example1⟩ (bram9 0x00100010)) 7 1919 0 1023 example1 (by decide +kernel) (by decide +kernel) (by decide +kernel) (by decide +kernel) (by decide +kernel) (by decide +kernel) (by decide +kernel) (by decide +kernel)).2.2.2.2 (by decide +kernel)) ∧
    Shown (h.2.1 (owed (putBram 1023 1919 upset (bram9 0x00100010))) 7 1919 1023 example1 43 (by decide +kernel) (by decide +kernel) (by decide +kernel) (by decide +kernel) (by decide +kernel) (by decide +kernel)) ∧
    Shown ((h.2.2.1 (lastSweep (bram9 0)) 7 1919 1023 (by decide +kernel) (by decide +kernel) (by decide +kernel) (by decide +kernel) (by decide +kernel) (by decide +kernel) (by decide +kernel) (by decide +kernel) (by decide +kernel) (by decide +kernel)).1 (by decide +kernel)) ∧
    Shown ((h.2.2.1 (lastSweep (putBram 1023 1919 upset (bram9 0))) 7 1919 1023 (by decide +kernel) (by decide +kernel) (by decide +kernel) (by decide +kernel) (by decide +kernel) (by decide +kernel) (by decide +kernel) (by decide +kernel) (by decide +kernel) (by decide +kernel)).2 (by decide +kernel)) ∧
    Shown (h.2.2.2 (putBram 1023 1919 ⟨3, 0⟩ (bram9 0x04000000)) 7 1919 1023 0x100 5 (by decide +kernel) (by decide +kernel) (by decide +kernel) (by decide +kernel) (by decide +kernel) (by decide +kernel) (by decide +kernel) (by decide +kernel) (by decide +kernel)) :=
  ⟨shown _, shown _, shown _, shown _, shown _, shown _, shown _, shown _, shown _⟩

theorem test_meets_UserNvmCommands (h : Obligations.UserNvmCommands) :
    Shown (((h.1 (nvm (some 9) none) 7 262143 (by decide +kernel) (by decide +kernel)).1 (by decide +kernel) (by decide +kernel)).1) ∧
    Shown (((h.1 (nvm (some 9) none) 7 262143 (by decide +kernel) (by decide +kernel)).1 (by decide +kernel) (by decide +kernel)).2 71 (by decide +kernel)) ∧
    Shown (((h.1 (nvm none none) 7 262143 (by decide +kernel) (by decide +kernel)).2.1 5 (by decide +kernel)).1 (by decide +kernel)) ∧
    Shown (((h.1 (nvm (some 9) none) 7 262143 (by decide +kernel) (by decide +kernel)).2.1 5 (by decide +kernel)).2 (by decide +kernel)) ∧
    Shown ((h.1 (wornSector 99998) 7 262143 (by decide +kernel) (by decide +kernel)).2.2.1 (by decide +kernel)) ∧
    Shown ((h.1 (wornSector 100000) 7 262143 (by decide +kernel) (by decide +kernel)).2.2.2.1 (by decide +kernel)) ∧
    Shown ((h.1 (wornSector 100000) 7 262143 (by decide +kernel) (by decide +kernel)).2.2.2.2) ∧
    Shown ((h.2 (nvm none (some (1, 262143, 1, 7))) 7 262143 1 7 (by decide +kernel) (by decide +kernel)).1 (by decide +kernel)) ∧
    Shown ((h.2 (nvm none (some (2, 262143, 0, 7))) 7 262143 1 7 (by decide +kernel) (by decide +kernel)).2.1 (by decide +kernel)) ∧
    Shown ((h.2 (nvm (some 4) (some (3, 262143, 0, 0))) 7 262143 1 7 (by decide +kernel) (by decide +kernel)).2.2 (by decide +kernel)) :=
  ⟨shown _, shown _, shown _, shown _, shown _, shown _, shown _, shown _, shown _, shown _⟩

theorem test_meets_SerialPortsProbesAndTrace (h : Obligations.SerialPortsProbesAndTrace) :
    Shown ((h.1 (serial [] []) 7 5 255 (by decide +kernel) (by decide +kernel) (by decide +kernel) (by decide +kernel) (by decide +kernel)).1 (by decide +kernel)) ∧
    Shown ((h.1 (serial (List.replicate 64 1) []) 7 5 255 (by decide +kernel) (by decide +kernel) (by decide +kernel) (by decide +kernel) (by decide +kernel)).2.1 (by decide +kernel)) ∧
    Shown ((h.1 (serial [255, 1] []) 7 5 255 (by decide +kernel) (by decide +kernel) (by decide +kernel) (by decide +kernel) (by decide +kernel)).2.2.1 [1] (by decide +kernel)) ∧
    Shown ((h.1 (serial [] [1]) 7 5 255 (by decide +kernel) (by decide +kernel) (by decide +kernel) (by decide +kernel) (by decide +kernel)).2.2.2.1 (by decide +kernel)) ∧
    Shown ((h.1 (serial [] [1, 2]) 7 5 255 (by decide +kernel) (by decide +kernel) (by decide +kernel) (by decide +kernel) (by decide +kernel)).2.2.2.2) ∧
    Shown (h.2.1 (armed 0 []) 7 0x8001 (by decide +kernel) (by decide +kernel)) ∧
    Shown (h.2.2.1 (postOne (armed 0x8001 [])) 7 5 (by decide +kernel) (by decide +kernel) (by decide +kernel) (by decide +kernel) (by decide +kernel)) ∧
    Shown (h.2.2.2.1 (armed 0x10001 [(dbgBlk 7, 0x80000000), (dbgBlk 7 + 0x110, 1), (dbgBlk 7 + 0x118, 1)]) 7 1 (by decide +kernel) (by decide +kernel) (by decide +kernel) (by decide +kernel) (by decide +kernel)) ∧
    Shown (h.2.2.2.2 grove7 7 131071 (by decide +kernel) (by decide +kernel) (by decide +kernel) (by decide +kernel)) :=
  ⟨shown _, shown _, shown _, shown _, shown _, shown _, shown _, shown _, shown _⟩

theorem test_meets_CheckBitsAreRowAndColumnParities (h : Obligations.CheckBitsAreRowAndColumnParities) :
    Shown (h 0xFEDCBA9876543211 (by decide +kernel)) ∧
    Shown (h 0x8000000000000001 (by decide +kernel)) :=
  ⟨shown _, shown _⟩

end C05

namespace C06

/-- A route entry written. -/
def routed (st e : Nat) (w : Word) (s : State) : State := setRoute st e w s
def full (st : Nat) (s : State) : State := { s with bough := { s.bough with used := [(st, 63)] } }
/-- Contract 4,095 from PG0.4 to PE20, the spec's example. -/
def terms6 : List Word := [0x2140814, 0x12000000, 200000, 8000, 32768, 8192, 600, 0, 0, 0, 0, 0]
def backhaul (p : Int) : Contract := { state := .opened, terms := terms6, booth := 3, path := pathOf 0x814 0x214 0, bound := 407, peakA := p, rateA := p }
def bound6 (p : Int) (s : State) : State := setContract 4095 (backhaul p) (setRoute 0x814 0x214 (guarEntry 4095 0) s)
/-- One port of PE20 in use at 400 Gb/s. -/
def engine20 (s : State) : State := on [(penBlk 20, 0x80000000)] s
def pk (op src dst tdir : Nat) : Packet := { op := op, vc := 2, src := src, dst := dst, len := 64, tdir := tdir, altOk := true }
def flying (p : Packet) (s : State) : State := { s with net := [p] }
def held6 (p : Packet) (s : State) : State := { s with bough := { s.bough with waiting := [p] } }
/-- The trunk between H and G0 DOWN. -/
def cut0 (s : State) : State := on [(lnkBlk 8 0, 0x650000)] s
def due (k : Nat) (s : State) : State := { s with bough := { s.bough with rerouteDue := [k] } }
def sink (s : State) : State := { on [(stnCfg 0xF9F, 0x4002)] s with bough := { s.bough with inbox := [{ pk 4 0x801 0xF9F 0 with vc := 1 }] } }
def restoring : State :=
  let s := on [(bghBlk 7, 1)] grid
  { s with bough := { s.bough with line := true, restoreDue := [0], avoid := [0], rewrites := [(0, 0xF9F * 4096 + 7, 1)], entries := [(0xF9F * 4096 + 7, some 0x80008000)] } }

theorem test_meets_RequestsLeaveOrWaitInTheirInterface (h : Obligations.RequestsLeaveOrWaitInTheirInterface) :
    Shown (((h.1 grid 0x11F 65535 0x030010001000 4 (by decide +kernel) (by decide +kernel) (by decide +kernel) (by decide +kernel) (by decide +kernel) (by decide +kernel) (by decide +kernel) (by decide +kernel) (by decide +kernel)).1 (by decide +kernel) (by decide +kernel)).1 (by decide +kernel) (by decide +kernel)) ∧
    Shown (((h.1 (full 0x930 grid) 0x930 0 0x020000000000 256 (by decide +kernel) (by decide +kernel) (by decide +kernel) (by decide +kernel) (by decide +kernel) (by decide +kernel) (by decide +kernel) (by decide +kernel) (by decide +kernel)).1 (by decide +kernel) (by decide +kernel)).2 (by decide +kernel)) ∧
    Shown ((h.1 (routed 0x930 0x830 0 grid) 0x930 0 0x020000000000 256 (by decide +kernel) (by decide +kernel) (by decide +kernel) (by decide +kernel) (by decide +kernel) (by decide +kernel) (by decide +kernel) (by decide +kernel) (by decide +kernel)).2 (by decide +kernel) (by decide +kernel) (by decide +kernel)) ∧
    Shown ((h.2.1 (setContract 4095 (backhaul 32768000) (routed 0x814 0x830 (guarEntry 4095 0) grid)) 0x814 0 0x020000000000 [1, 2] (by decide +kernel) (by decide +kernel) (by decide +kernel) (by decide +kernel) (by decide +kernel) (by decide +kernel) (by decide +kernel) (by decide +kernel) (by decide +kernel) (by decide +kernel)).1 (by decide +kernel)) ∧
    Shown ((h.2.1 (setContract 4095 (backhaul 0) (routed 0x814 0x830 (guarEntry 4095 0) grid)) 0x814 0 0x020000000000 [1, 2] (by decide +kernel) (by decide +kernel) (by decide +kernel) (by decide +kernel) (by decide +kernel) (by decide +kernel) (by decide +kernel) (by decide +kernel) (by decide +kernel) (by decide +kernel)).2 (by decide +kernel)) ∧
    Shown ((h.2.2 (held6 { pk 3 0x814 0x214 0 with vc := 0, contract := 4095 } (bound6 32768000 grid)) { pk 3 0x814 0x214 0 with vc := 0, contract := 4095 } [] (by decide +kernel) (by decide +kernel)).1 (by decide +kernel) (by decide +kernel)) ∧
    Shown ((h.2.2 (held6 (pk 1 0x814 0x830 0) grid) (pk 1 0x814 0x830 0) [] (by decide +kernel) (by decide +kernel)).2 (by decide +kernel) (by decide +kernel) (by decide +kernel)) :=
  ⟨shown _, shown _, shown _, shown _, shown _, shown _, shown _⟩

theorem test_meets_PacketsAreDeliveredTurnedOrDiscarded (h : Obligations.PacketsAreDeliveredTurnedOrDiscarded) :
    Shown ((h.1 (flying { pk 1 0x800 0x900 0 with hops := 0 } grid) { pk 1 0x800 0x900 0 with hops := 0 } (by decide +kernel) (by decide +kernel) (by decide +kernel)).1 (.trunk 8 0) (by decide +kernel)) ∧
    Shown (((h.1 (flying (pk 1 0x800 0 1) (cut0 grid)) (pk 1 0x800 0 1) (by decide +kernel) (by decide +kernel) (by decide +kernel)).2 8 1 (by decide +kernel)).1 (by decide +kernel) (by decide +kernel)) ∧
    Shown (((h.1 (flying { pk 1 0x800 0 1 with altOk := false } (cut0 grid)) { pk 1 0x800 0 1 with altOk := false } (by decide +kernel) (by decide +kernel) (by decide +kernel)).2 8 1 (by decide +kernel)).2 (by decide +kernel)) ∧
    Shown (h.2.1 (flying (pk 15 0x101 0 1) grid) (pk 15 0x101 0 1) (by decide +kernel) (by decide +kernel)) ∧
    Shown ((h.2.2.1 (flying (pk 4 0x801 0xF4F 1) grid) (pk 4 0x801 0xF4F 1) (by decide +kernel) (by decide +kernel) (by decide +kernel)).1 (by decide +kernel) (by decide +kernel)) ∧
    Shown ((h.2.2.1 (flying (pk 1 0x80F 0x41F 1) grid) (pk 1 0x80F 0x41F 1) (by decide +kernel) (by decide +kernel) (by decide +kernel)).2.1 (by decide +kernel) (by decide +kernel)) ∧
    Shown (((h.2.2.1 (flying (pk 3 0x814 0xF9F 1) grid) (pk 3 0x814 0xF9F 1) (by decide +kernel) (by decide +kernel) (by decide +kernel)).2.2 (by decide +kernel) (by decide +kernel) (by decide +kernel)).1) ∧
    Shown (((h.2.2.1 (flying (pk 3 0x814 0xF9F 1) grid) (pk 3 0x814 0xF9F 1) (by decide +kernel) (by decide +kernel) (by decide +kernel)).2.2 (by decide +kernel) (by decide +kernel) (by decide +kernel)).2.1) ∧
    Shown (((h.2.2.1 (flying (pk 3 0x814 0xF9F 1) (all grid)) (pk 3 0x814 0xF9F 1) (by decide +kernel) (by decide +kernel) (by decide +kernel)).2.2 (by decide +kernel) (by decide +kernel) (by decide +kernel)).2.2 (by decide +kernel)) ∧
    Shown (h.2.2.2 (sink (all grid)) { pk 4 0x801 0xF9F 0 with vc := 1 } (by decide +kernel) (by decide +kernel) (by decide +kernel) (by decide +kernel) (by decide +kernel)) :=
  ⟨shown _, shown _, shown _, shown _, shown _, shown _, shown _, shown _, shown _, shown _⟩

theorem test_meets_FlowContractsAreAdmittedClosedAndRerouted (h : Obligations.FlowContractsAreAdmittedClosedAndRerouted) :
    Shown (h.1 (cmd 3 0x0401 [] (bound6 0 grid)) 3 (by decide +kernel) (by decide +kernel)) ∧
    Shown (((h.2.1 (cmd 3 0x0402 terms6 (engine20 grid)) 3 terms6 { state := .opened, terms := terms6, booth := 3 } (by decide +kernel) (by decide +kernel) (by decide +kernel) (by decide +kernel)).1 (by decide +kernel) (by decide +kernel) (by decide +kernel) (by decide +kernel) (by decide +kernel) (by decide +kernel)).1 (by decide +kernel)) ∧
    Shown (((h.2.1 (cmd 3 0x0402 terms6 (setContract 9 { backhaul 0 with terms := [0x2150814, 0x12000000, 1536000, 8000, 32768, 8192, 99999, 0, 0, 0, 0, 0] } (engine20 grid))) 3 terms6 { state := .opened, terms := terms6, booth := 3 } (by decide +kernel) (by decide +kernel) (by decide +kernel) (by decide +kernel)).1 (by decide +kernel) (by decide +kernel) (by decide +kernel) (by decide +kernel) (by decide +kernel) (by decide +kernel)).2 (by decide +kernel)) ∧
    Shown ((h.2.1 (cmd 3 0x0402 terms6 (bound6 0 (engine20 grid))) 3 terms6 { state := .opened, terms := terms6, booth := 3 } (by decide +kernel) (by decide +kernel) (by decide +kernel) (by decide +kernel)).2 (by decide +kernel)) ∧
    Shown ((h.2.2.1 (cmd 3 0x0403 [4095] (bound6 0 grid)) 3 4095 (by decide +kernel)).1 (by decide +kernel) (by decide +kernel) (by decide +kernel)) ∧
    Shown ((h.2.2.1 (cmd 3 0x0404 [4095] (setContract 4095 { backhaul 0 with state := .broken } grid)) 3 4095 (by decide +kernel)).2 (by decide +kernel) (by decide +kernel) (by decide +kernel)) ∧
    Shown ((h.2.2.2.1 (cmd 3 0x0405 [0xF9F, 3, 2048] grid) 3 0xF9F 0 (by decide +kernel) (by decide +kernel)).1 2048 3 (by decide +kernel) (by decide +kernel) (by decide +kernel) (by decide +kernel) (by decide +kernel) (by decide +kernel) (by decide +kernel)) ∧
    Shown ((h.2.2.2.1 (cmd 3 0x0406 [0xF9F, 0x10FFF, 0x80008000] grid) 3 0xF9F 0 (by decide +kernel) (by decide +kernel)).2.1 4095 0x80008000 (by decide +kernel) (by decide +kernel) (by decide +kernel) (by decide +kernel) (by decide +kernel) (by decide +kernel)) ∧
    Shown ((h.2.2.2.1 (cmd 3 0x0407 [0xF9F, 0x20FFE] grid) 3 0xF9F 2 (by decide +kernel) (by decide +kernel)).2.2.1 4094 (by decide +kernel) (by decide +kernel) (by decide +kernel) (by decide +kernel)) ∧
    Shown ((h.2.2.2.1 (cmd 3 0x0408 [15] grid) 3 0 0 (by decide +kernel) (by decide +kernel)).2.2.2 15 (by decide +kernel) (by decide +kernel) (by decide +kernel)) ∧
    Shown ((h.2.2.2.2.1 (due 8 { grid with bough := { grid.bough with entries := [(0xF9F * 4096 + 7, some 0x80008000)] } }) 8 (by decide +kernel)).1 0xF9F 7 0 0x80008000 (by decide +kernel) (by decide +kernel) (by decide +kernel) (by decide +kernel) (by decide +kernel) (by decide +kernel) (by decide +kernel)) ∧
    Shown ((h.2.2.2.2.1 (due 1 (all (engine20 { grid with bough := { grid.bough with contracts := [(4095, { backhaul 0 with terms := [0x2140814, 0x12000000, 200000, 8000, 32768, 8192, 6000, 0, 0, 0, 0, 0] })] } }))) 1 (by decide +kernel)).2 4095 { backhaul 0 with terms := [0x2140814, 0x12000000, 200000, 8000, 32768, 8192, 6000, 0, 0, 0, 0, 0] } (by decide +kernel) (by decide +kernel) (by decide +kernel) (by decide +kernel) |>.1 (by decide +kernel) (by decide +kernel)) ∧
    Shown ((h.2.2.2.2.1 (due 1 (all (cut0 (engine20 { grid with bough := { grid.bough with contracts := [(4095, backhaul 0)] } })))) 1 (by decide +kernel)).2 4095 (backhaul 0) (by decide +kernel) (by decide +kernel) (by decide +kernel) (by decide +kernel) |>.2 (by decide +kernel) (by decide +kernel)) ∧
    Shown (h.2.2.2.2.2 restoring 0 0xF9F 7 1 0x80008000 (by decide +kernel) (by decide +kernel) (by decide +kernel) (by decide +kernel) (by decide +kernel) (by decide +kernel) (by decide +kernel) (by decide +kernel)) :=
  ⟨shown _, shown _, shown _, shown _, shown _, shown _, shown _, shown _, shown _, shown _, shown _, shown _, shown _, shown _⟩

end C06

namespace C07

/-- A unit in TRAIN at a round, with a cap. -/
def training (d u r cap : Nat) (s : State) : State := setUnit d u 0x61 (setLink d u { round := r, cap := cap } s)
def round7 (a b : List Nat) (ok : Bool) : TrainRound := { heard := true, badA := a, badB := b, wireA := 5, wireB := 6, checkOk := ok, failedGroups := 0 }
def failed (n : Nat) (s : State) : State := setLink 9 1 { linkAt s 9 1 with fails := sset 0 [] 145 n } s
def charged (n : Nat) (s : State) : State := setLink 15 11 { linkAt s 15 11 with charges := List.replicate n ((15 * 16 + 11) * 2048 + 1119, 0) } s
def spares (n : Word) (s : State) : State := on [(lnkBlk 15 11 + 4, n)] s
/-- A contract that crosses bundle 3 of G7. -/
def far (want : Word) : Contract := { state := .opened, terms := [0xF9F0427, 0x12000000, 1000, 1000, 4096, 1024, want, 0, 0, 0, 0, 0], path := pathOf 0x41F 0xF9F 0, bound := 9 }
def narrow (want : Word) (s : State) : State :=
  { on [(stnCfg 0xF9F, 0x10004000)] s with links := { s.links with narrowDue := [(15, 11)] }, bough := { s.bough with contracts := [(4095, far want)] } }
/-- A read from tile group 31 of G7 of the last line of G0's DRAM window. -/
def read7 (prov : Bool) : Packet := { op := 1, vc := 2, dst := rmcStation 7, src := 0xF4F, addr := 0x3FFFFFFFFC, len := 4, tag := 9, prov := prov }
def got (p : Packet) (s : State) : State := { s with bough := { s.bough with inbox := [p] } }
def line7 (st : Nat) (chk : Bool) (s : State) : State :=
  setWay (wayBase 7 (lineOf 0x3FFFFFFFC0)) { st := st, home := 0, line := lineOf 0x3FFFFFFFC0, data := List.replicate 64 7, check := chk } s
def fill7 (x : Bool) : Fill := { grove := 7, home := 0, line := lineOf 0x3FFFFFFFC0, excl := x, way := wayBase 7 (lineOf 0x3FFFFFFFC0) + 15 }
def filling (x : Bool) (s : State) : State := { s with rmc := { s.rmc with fills := [fill7 x] } }
def filled : Packet := { op := 4, vc := 1, dst := rmcStation 7, src := rmcStation 0, addr := 0x3FFFFFFFC0, len := 64, data := List.replicate 64 5 }
def stale : Packet := { op := 7, vc := 3, dst := rmcStation 7, src := rmcStation 0, addr := 0x3FFFFFFFC0 }
def confirm7 : Packet := { op := 6, vc := 3, dst := rmcStation 7, src := rmcStation 0, addr := 0x3FFFFFFFC0 }
def check7 : VCheck := { grove := 7, home := 0, line := lineOf 0x3FFFFFFFC0, data := List.replicate 64 7, requesters := [read7 true] }
def checking (s : State) : State := { line7 3 true s with rmc := { (line7 3 true s).rmc with checks := [check7] } }
def flushing (s : State) : State := on [(rmcBlk 7 + 4, 1)] s
def shared7 : CacheLine := { st := 1, home := 0, line := 5 }
def oneLine (s : State) : State := { s with rmc := { s.rmc with lines := [(7 * 262144 + 16, shared7)] } }
/-- Requests of G0's cache at G7's home. -/
def fillMsg (k : Nat) : Packet := { op := 1, vc := 2, dst := rmcStation 7, src := rmcStation 0, addr := 0x1FFFFFFFFC0 + k, len := 64 }
def holder (h : Nat) (s : State) : State :=
  setDir (dirBase 7 (lineOf 0x1FFFFFFFFC0) + 15) { valid := true, line := lineOf 0x1FFFFFFFFC0, holders := 2 ^ h, used := 3 } s
def notice : Packet := { op := 6, vc := 3, dst := rmcStation 7, src := rmcStation 6, addr := 0x1FFFFFFFFC0, len := 0 }
def awaiting (s : State) : State := { s with rmc := { s.rmc with homeReqs := [{ home := 7, pkt := fillMsg 1, awaits := [(lineOf 0x1FFFFFFFFC0, 6, 0)] }] } }
def way16 (i : Nat) : DirEntry := { valid := true, line := 65535 + 65536 * i, holders := 64, used := i }
def fullSet (s : State) : State := (upto 16).foldl (fun t i => setDir (dirBase 7 (lineOf 0x1FFFFFFFFC0) + i) (way16 i) t) s
def vc0 : Packet := { op := 3, vc := 0, dst := 256 * 15 + 2, src := 0xF14, addr := 0x1C000000040, len := 64 }

theorem test_meets_LinksTrainRepairAndNarrow (h : Obligations.LinksTrainRepairAndNarrow) :
    Shown ((h.1 (training 10 1 1 512 grid) 10 1 11 0 (round7 [71] [3] true) (by decide +kernel) (by decide +kernel) (by decide +kernel) (by decide +kernel) (by decide +kernel)).1 (by decide +kernel) (by decide +kernel) (by decide +kernel) (by decide +kernel)) ∧
    Shown ((h.1 (training 10 1 1 1024 grid) 10 1 11 0 (round7 [64] [3] false) (by decide +kernel) (by decide +kernel) (by decide +kernel) (by decide +kernel) (by decide +kernel)).2.1 (by decide +kernel) (by decide +kernel) (by decide +kernel) (by decide +kernel)) ∧
    Shown ((h.1 (training 10 1 2 1024 grid) 10 1 11 0 (round7 [71] [3] true) (by decide +kernel) (by decide +kernel) (by decide +kernel) (by decide +kernel) (by decide +kernel)).2.2.1 (by decide +kernel) (by decide +kernel) (by decide +kernel) (by decide +kernel)) ∧
    Shown ((h.1 (training 15 11 3 0 (all grid)) 15 11 4 7 (round7 [] [] true) (by decide +kernel) (by decide +kernel) (by decide +kernel) (by decide +kernel) (by decide +kernel)).2.2.2 (by decide +kernel) (by decide +kernel) (by decide +kernel)) ∧
    Shown (h.2.1 (training 8 4 3 0x7F grid) 8 4 12 4 (round7 [64, 0] [] true) (by decide +kernel) (by decide +kernel) (by decide +kernel) (by decide +kernel) (by decide +kernel) (by decide +kernel) (by decide +kernel)) ∧
    Shown ((h.2.2.1 (training 8 0 2 512 grid) 8 0 0 1 (by decide +kernel) (by decide +kernel) (by decide +kernel) (by decide +kernel) (by decide +kernel)).1 (by decide +kernel)) ∧
    Shown ((h.2.2.1 (training 8 0 3 512 grid) 8 0 0 1 (by decide +kernel) (by decide +kernel) (by decide +kernel) (by decide +kernel) (by decide +kernel)).2 (by decide +kernel) (by decide +kernel)) ∧
    Shown (((h.2.2.2.1 (failed 6 grid) 9 1 10 0 (by decide +kernel) (by decide +kernel) (by decide +kernel) (by decide +kernel)).1 6 (by decide +kernel) (by decide +kernel)).1 (by decide +kernel)) ∧
    Shown (((h.2.2.2.1 (failed 7 grid) 9 1 10 0 (by decide +kernel) (by decide +kernel) (by decide +kernel) (by decide +kernel)).1 7 (by decide +kernel) (by decide +kernel)).2 (by decide +kernel)) ∧
    Shown (((h.2.2.2.1 grid 15 11 4 7 (by decide +kernel) (by decide +kernel) (by decide +kernel) (by decide +kernel)).2 1119 (by decide +kernel) (by decide +kernel)).1 (by decide +kernel)) ∧
    Shown (((h.2.2.2.1 (charged 15 (spares 62 grid)) 15 11 4 7 (by decide +kernel) (by decide +kernel) (by decide +kernel) (by decide +kernel)).2 1119 (by decide +kernel) (by decide +kernel)).2 (by decide +kernel) (by decide +kernel)) ∧
    Shown ((h.2.2.2.2.1 (narrow 99999 (on [(penBlk 63, 0x10000000)] (all grid))) 15 11 4095 (far 99999) (by decide +kernel) (by decide +kernel) (by decide +kernel) (by decide +kernel) (by decide +kernel)).1 (by decide +kernel)) ∧
    Shown ((h.2.2.2.2.1 (narrow 1 (on [(penBlk 63, 0x10000000)] (all grid))) 15 11 4095 (far 1) (by decide +kernel) (by decide +kernel) (by decide +kernel) (by decide +kernel) (by decide +kernel)).2 (by decide +kernel) (by decide +kernel)) ∧
    Shown (h.2.2.2.2.2 grid 9 2 8 3 (by decide +kernel) (by decide +kernel) (by decide +kernel) (by decide +kernel)) :=
  ⟨shown _, shown _, shown _, shown _, shown _, shown _, shown _, shown _, shown _, shown _, shown _, shown _, shown _, shown _⟩

theorem test_meets_RemoteCacheServesFillsAndChecks (h : Obligations.RemoteCacheServesFillsAndChecks) :
    Shown ((h.1 (got (read7 false) (line7 2 false grid)) 7 (wayBase 7 (lineOf 0x3FFFFFFFC0)) (lineOf 0x3FFFFFFFC0) (read7 false) (by decide +kernel) (by decide +kernel) (by decide +kernel) (by decide +kernel) (by decide +kernel) (by decide +kernel) (by decide +kernel) (by decide +kernel) (by decide +kernel) (by decide +kernel) (by decide +kernel) (by decide +kernel) (by decide +kernel) (by decide +kernel) (by decide +kernel) (by decide +kernel)).1 (by decide +kernel) (by decide +kernel) (by decide +kernel)) ∧
    Shown ((h.1 (got (read7 true) (line7 3 false grid)) 7 (wayBase 7 (lineOf 0x3FFFFFFFC0)) (lineOf 0x3FFFFFFFC0) (read7 true) (by decide +kernel) (by decide +kernel) (by decide +kernel) (by decide +kernel) (by decide +kernel) (by decide +kernel) (by decide +kernel) (by decide +kernel) (by decide +kernel) (by decide +kernel) (by decide +kernel) (by decide +kernel) (by decide +kernel) (by decide +kernel) (by decide +kernel) (by decide +kernel)).2.1 (by decide +kernel) (by decide +kernel) (by decide +kernel) (by decide +kernel) (by decide +kernel)) ∧
    Shown ((h.1 (got (read7 true) grid) 7 (wayBase 7 (lineOf 0x3FFFFFFFC0)) (lineOf 0x3FFFFFFFC0) (read7 true) (by decide +kernel) (by decide +kernel) (by decide +kernel) (by decide +kernel) (by decide +kernel) (by decide +kernel) (by decide +kernel) (by decide +kernel) (by decide +kernel) (by decide +kernel) (by decide +kernel) (by decide +kernel) (by decide +kernel) (by decide +kernel) (by decide +kernel) (by decide +kernel)).2.2 (by decide +kernel) (by decide +kernel) (by decide +kernel) (by decide +kernel) (by decide +kernel) (by decide +kernel)) ∧
    Shown (h.2.1 (got filled (filling true grid)) 7 (fill7 true) filled (by decide +kernel) (by decide +kernel) (by decide +kernel) (by decide +kernel) (by decide +kernel) (by decide +kernel) (by decide +kernel) (by decide +kernel) (by decide +kernel) (by decide +kernel) (by decide +kernel) (by decide +kernel) (by decide +kernel) ⟨wayBase 7 (lineOf 0x3FFFFFFFC0), by decide, by decide, by decide⟩) ∧
    Shown (h.2.1 (got filled (filling false grid)) 7 (fill7 false) filled (by decide +kernel) (by decide +kernel) (by decide +kernel) (by decide +kernel) (by decide +kernel) (by decide +kernel) (by decide +kernel) (by decide +kernel) (by decide +kernel) (by decide +kernel) (by decide +kernel) (by decide +kernel) (by decide +kernel) ⟨wayBase 7 (lineOf 0x3FFFFFFFC0), by decide, by decide, by decide⟩) ∧
    Shown (h.2.2.1 (got stale (line7 1 false grid)) 7 (wayBase 7 (lineOf 0x3FFFFFFFC0)) stale (by decide +kernel) (by decide +kernel) (by decide +kernel) (by decide +kernel) (by decide +kernel) (by decide +kernel) (by decide +kernel) (by decide +kernel) (by decide +kernel) (by decide +kernel) (by decide +kernel) (by decide +kernel) (by decide +kernel)) ∧
    Shown (h.2.2.2.1 (got confirm7 (checking grid)) 7 (wayBase 7 (lineOf 0x3FFFFFFFC0)) confirm7 (read7 true) check7 (by decide +kernel) (by decide +kernel) (by decide +kernel) (by decide +kernel) (by decide +kernel) (by decide +kernel) (by decide +kernel) (by decide +kernel) (by decide +kernel) (by decide +kernel) (by decide +kernel) (by decide +kernel) (by decide +kernel) (by decide +kernel) (by decide +kernel)) ∧
    Shown (h.2.2.2.2.1 (checking grid) (read7 true) check7 (by decide +kernel) (by decide +kernel) (by decide +kernel) (by decide +kernel) (by decide +kernel) (by decide +kernel)) ∧
    Shown ((h.2.2.2.2.2.1 (flushing (oneLine grid)) 7 (by decide +kernel) (by decide +kernel) (by decide +kernel) (by decide +kernel)).1 (7 * 262144 + 16) shared7 (by decide +kernel) (by decide +kernel) (by decide +kernel) (by decide +kernel) (by decide +kernel) (by decide +kernel) (by decide +kernel)) ∧
    Shown ((h.2.2.2.2.2.1 (flushing grid) 7 (by decide +kernel) (by decide +kernel) (by decide +kernel) (by decide +kernel)).2 (by decide +kernel)) ∧
    Shown (h.2.2.2.2.2.2 (on [(clkBlk 15 + 0x108, 0x40), (rmcBlk 7 + 0x3C, 5)] (oneLine grid)) 7 (by decide +kernel) (by decide +kernel) (by decide +kernel) (by decide +kernel) (by decide +kernel)) :=
  ⟨shown _, shown _, shown _, shown _, shown _, shown _, shown _, shown _, shown _, shown _, shown _⟩

theorem test_meets_HomeDirectoryWithdrawsBeforeItGrants (h : Obligations.HomeDirectoryWithdrawsBeforeItGrants) :
    Shown ((h.1 (got (fillMsg 1) grid) 7 0 (dirBase 7 (lineOf 0x1FFFFFFFFC0)) (fillMsg 1) (by decide +kernel) (by decide +kernel) (by decide +kernel) (by decide +kernel) (by decide +kernel) (by decide +kernel) (by decide +kernel) (by decide +kernel) (by decide +kernel) (by decide +kernel) (by decide +kernel)).1 (by decide +kernel) (by decide +kernel)) ∧
    Shown ((h.1 (got (fillMsg 1) (holder 6 grid)) 7 0 (dirBase 7 (lineOf 0x1FFFFFFFFC0) + 15) (fillMsg 1) (by decide +kernel) (by decide +kernel) (by decide +kernel) (by decide +kernel) (by decide +kernel) (by decide +kernel) (by decide +kernel) (by decide +kernel) (by decide +kernel) (by decide +kernel) (by decide +kernel)).2 { valid := true, line := lineOf 0x1FFFFFFFFC0, holders := 64, used := 3 } 6 (by decide +kernel) (by decide +kernel) (by decide +kernel) (by decide +kernel) (by decide +kernel) (by decide +kernel) (by decide +kernel) (by decide +kernel) (by decide +kernel) (by decide +kernel)) ∧
    Shown (h.2.1 (got notice (awaiting (holder 6 grid))) 7 6 (dirBase 7 (lineOf 0x1FFFFFFFFC0) + 15) notice (fillMsg 1) (by decide +kernel) (by decide +kernel) (by decide +kernel) (by decide +kernel) (by decide +kernel) (by decide +kernel) (by decide +kernel) (by decide +kernel) (by decide +kernel) (by decide +kernel) (by decide +kernel) (by decide +kernel) (by decide +kernel) (by decide +kernel) (by decide +kernel)) ∧
    Shown (h.2.2.1 (got (fillMsg 0) (fullSet grid)) 7 0 6 (fillMsg 0) (way16 0) (by decide +kernel) (by decide +kernel) (by decide +kernel) (by decide +kernel) (by decide +kernel) (by decide +kernel) (by decide +kernel) (by decide +kernel) (by decide +kernel) (by decide +kernel) (by decide +kernel) (by decide +kernel) (by decide +kernel) (by decide +kernel) (by decide +kernel) (by decide +kernel) (by decide +kernel) (by decide +kernel) (by decide +kernel) (by decide +kernel) (by decide +kernel)) ∧
    Shown (h.2.2.2 (got vc0 (on [(memBlk 15, 0x93)] grid)) 15 vc0 (by decide +kernel) (by decide +kernel) (by decide +kernel) (by decide +kernel) (by decide +kernel) (by decide +kernel) (by decide +kernel) (by decide +kernel) (by decide +kernel)) :=
  ⟨shown _, shown _, shown _, shown _, shown _⟩

end C07

namespace C08

/-- A tile of G7 that runs an item, with registers set and a unit about to issue. -/
def regs8 : TRegs := { vals := [(0, 7), (1, 0xFFFFFFFE), (2, 3), (3, 0x80000000), (15, 33), (16, 0x40), (17, 0x80000000), (23, 0xFFE0), (24, 0x20), (32, 0x4000),
  (40, 0x7F80FE03), (41, 0x0405), (55, 0x80807F7F), (56, 0xFFFFFED4), (59, 0x7FFFFFFF)], taints := [(1, true), (55, true)] }
def item8 : Item := { desc := [1, 2, 3, 4, 0x10000005, 0x02000007, 9, 0], eclass := 7 }
def tile8 : Tile := { state := 0x71, item := some item8, pc := 4093, regs := regs8, old := regs8, older := regs8 }
def code (pc : Nat) (l : List Nat) (s : State) : State :=
  (l.foldl (fun (a : State × Nat) w => (memPut (tileMem 4095 + 0x10000 + 4 * (a.2 % 4096)) (toBytes 4 w) a.1, a.2 + 1)) (s, pc)).1
def put8 (x : Tile) (s : State) : State := setTile 4095 x s
/-- The tile with words at its PC. -/
def at8 (x : Tile) (l : List Nat) : State := code x.pc l (put8 x up)
def sat8 (x : Tile) : Tile := { x with regs := { regs8 with vals := regs8.vals ++ [(60, 1)] } }
def on8 (x : Tile) (l : List Nat) : State := code x.pc l (put8 x grid)
def ans8 (op : Nat) (st : Nat) (prov : Bool) : Packet :=
  { op := op, vc := 1, dst := 0xF4F, src := 0x800, tag := 15, addr := 0x40, len := 4, data := [1, 2, 3, 4], status := st, prov := prov }
def got8 (p : Packet) (x : Tile) : State := { put8 x grid with bough := { grid.bough with inbox := [p] } }
def loading8 : Tile := { tile8 with stall := some (.load 5 4 0x80000040 false none), regs := {} , old := {}, older := {}}
def store8 : TileStore := { ext := true, addr := 0x020000000000, va := 0x80000040, data := [1, 2, 3, 4], taint := false }
def held8 : Held := { item := item8, stage := .ready }
def far8 : Tile := { tile8 with regs := { vals := [(23, 0x20000)] }, old := { vals := [(23, 0x20000)] }, older := { vals := [(23, 0x20000)] } }
def holding8 (s : State) : State := setHeld 7 4095 (some held8) s
def saved8 : SavedTile := { regs := regs8, pc := 4095, tmr := 6, wd := 5, item := item8, state := 0x74 }

theorem test_meets_ScalarInstructionsGiveTheirResults (h : Obligations.ScalarInstructionsGiveTheirResults) :
    Shown ((h.1 (at8 (sat8 tile8) [2180190208, 1660944384]) 4095 true 15 3 1 (by decide +kernel) (by decide +kernel) (by decide +kernel)).1 _ (.head _) (by decide +kernel)) ∧
    Shown ((h.1 (at8 tile8 [32706560]) 4095 false 15 3 1 (by decide +kernel) (by decide +kernel) (by decide +kernel)).1 _ (.head _) (by decide +kernel)) ∧
    Shown ((h.1 (at8 tile8 [83038208]) 4095 false 15 3 1 (by decide +kernel) (by decide +kernel) (by decide +kernel)).2 _ (.head _) (by decide +kernel)) ∧
    Shown ((h.2.1 (at8 tile8 [284393473]) 4095 false 15 3 0x8001 (by decide +kernel) (by decide +kernel) (by decide +kernel)).1 (by decide +kernel)) ∧
    Shown ((h.2.1 (at8 tile8 [301170689]) 4095 false 15 3 0x8001 (by decide +kernel) (by decide +kernel) (by decide +kernel)).2.1 _ (.head _) (by decide +kernel)) ∧
    Shown ((h.2.1 (at8 tile8 [351469599]) 4095 false 15 3 31 (by decide +kernel) (by decide +kernel) (by decide +kernel)).2.2.1 (by decide +kernel) _ (.head _) (by decide +kernel)) ∧
    Shown ((h.2.1 (at8 tile8 [401670143]) 4095 false 15 0 0xFFFF (by decide +kernel) (by decide +kernel) (by decide +kernel)).2.2.2.1 (by decide +kernel)) ∧
    Shown ((h.2.1 (at8 tile8 [410026048]) 4095 false 7 0 0x8040 (by decide +kernel) (by decide +kernel) (by decide +kernel)).2.2.2.2 (by decide +kernel)) ∧
    Shown ((h.2.2.1 (at8 tile8 [469827584]) 4095 false 1 (by decide +kernel)).1 (by decide +kernel)) ∧
    Shown ((h.2.2.1 (at8 tile8 [502267904]) 4095 false 15 (by decide +kernel)).2.1 (by decide +kernel)) ∧
    Shown ((h.2.2.1 (at8 { tile8 with tmr := 9 } [502267905]) 4095 false 15 (by decide +kernel)).2.2 (by decide +kernel)) ∧
    Shown (h.2.2.2.1 (at8 tile8 [2147483648, 1677721600]) 4095 true (by decide +kernel)) ∧
    Shown ((h.2.2.2.2 (at8 { tile8 with cyc := 6, results := [{ reg := 15, val := 8, taint := true, due := 7 }] } [0]) 4095 (by decide +kernel) (by decide +kernel)).1 { reg := 15, val := 8, taint := true, due := 7 } (by decide +kernel) (by decide +kernel) (by decide +kernel)) ∧
    Shown ((h.2.2.2.2 (at8 { tile8 with slots := 1, target := some 4095 } [0]) 4095 (by decide +kernel) (by decide +kernel)).2.1 4095 (by decide +kernel) (by decide +kernel) (by decide +kernel)) ∧
    Shown ((h.2.2.2.2 (at8 { tile8 with rep := 65535, repPc := 4093 } [0]) 4095 (by decide +kernel) (by decide +kernel)).2.2 65533 (by decide +kernel) (by decide +kernel)) :=
  ⟨shown _, shown _, shown _, shown _, shown _, shown _, shown _, shown _, shown _, shown _, shown _, shown _, shown _, shown _, shown _⟩

theorem test_meets_VectorInstructionsGiveTheirResults (h : Obligations.VectorInstructionsGiveTheirResults) :
    Shown ((h.1 (at8 (sat8 tile8) [552603648]) 4095 false 15 0 1 (by decide +kernel) (by decide +kernel) (by decide +kernel)).1 _ (.head _) (by decide +kernel)) ∧
    Shown ((h.1 (at8 tile8 [619712512]) 4095 false 15 0 1 (by decide +kernel) (by decide +kernel) (by decide +kernel)).2.1 _ (.head _) (by decide +kernel)) ∧
    Shown ((h.1 (at8 (sat8 tile8) [587137024]) 4095 false 15 15 0 (by decide +kernel) (by decide +kernel) (by decide +kernel)).2.2.1 (by decide +kernel)) ∧
    Shown ((h.1 (at8 tile8 [603914240]) 4095 false 15 15 0 (by decide +kernel) (by decide +kernel) (by decide +kernel)).2.2.2.1 (by decide +kernel)) ∧
    Shown ((h.1 (at8 tile8 [687800320]) 4095 false 15 15 0 (by decide +kernel) (by decide +kernel) (by decide +kernel)).2.2.2.2.1 (by decide +kernel)) ∧
    Shown ((h.1 (at8 tile8 [704577536]) 4095 false 15 15 0 (by decide +kernel) (by decide +kernel) (by decide +kernel)).2.2.2.2.2.1 (by decide +kernel)) ∧
    Shown ((h.1 (at8 tile8 [671023111]) 4095 false 15 15 7 (by decide +kernel) (by decide +kernel) (by decide +kernel)).2.2.2.2.2.2.1 (by decide +kernel) (by decide +kernel)) ∧
    Shown ((h.1 (at8 tile8 [721354767]) 4095 false 15 15 15 (by decide +kernel) (by decide +kernel) (by decide +kernel)).2.2.2.2.2.2.2.1 (by decide +kernel)) ∧
    Shown ((h.1 (at8 tile8 [738131983]) 4095 false 15 15 15 (by decide +kernel) (by decide +kernel) (by decide +kernel)).2.2.2.2.2.2.2.2 (by decide +kernel)) ∧
    Shown ((h.2.1 (at8 (sat8 tile8) [821822464]) 4095 false 3 15 0 1 (by decide +kernel) (by decide +kernel) (by decide +kernel) (by decide +kernel)).1 _ (.head _) (by decide +kernel)) ∧
    Shown ((h.2.1 (at8 tile8 [876347392]) 4095 false 0 15 0 0 (by decide +kernel) (by decide +kernel) (by decide +kernel) (by decide +kernel)).2 _ (.head _) (by decide +kernel)) ∧
    Shown ((h.2.2 (at8 tile8 [955260928]) 4095 false 15 0 1 (by decide +kernel) (by decide +kernel)).1 (by decide +kernel) (by decide +kernel)) ∧
    Shown ((h.2.2 (at8 tile8 [972029967]) 4095 false 15 0 15 (by decide +kernel) (by decide +kernel)).2 (by decide +kernel) (by decide +kernel)) :=
  ⟨shown _, shown _, shown _, shown _, shown _, shown _, shown _, shown _, shown _, shown _, shown _, shown _, shown _⟩

theorem test_meets_TileAddressAndMemoryInstructions (h : Obligations.TileAddressAndMemoryInstructions) :
    Shown ((h.1 (at8 tile8 [1220018177]) 4095 2 7 1 (by decide +kernel) (by decide +kernel)).1 (by decide +kernel) (by decide +kernel)) ∧
    Shown ((h.1 (at8 tile8 [1228472319]) 4095 0 7 65535 (by decide +kernel) (by decide +kernel)).2.1 (by decide +kernel) (by decide +kernel)) ∧
    Shown ((h.1 (at8 tile8 [1241579519]) 4095 0 0 65535 (by decide +kernel) (by decide +kernel)).2.2.1 (by decide +kernel) (by decide +kernel)) ∧
    Shown ((h.1 (at8 tile8 [1262485519]) 4095 1 0 15 (by decide +kernel) (by decide +kernel)).2.2.2 (by decide +kernel) (by decide +kernel)) ∧
    Shown (((h.2 (code 16 [77] (at8 tile8 [1106248704])) 4095 15 0 0 1024 (by decide +kernel) (by decide +kernel) (by decide +kernel) (by decide +kernel) (by decide +kernel) (by decide +kernel)).1 _ (.head _) (by decide +kernel)).1 (by decide +kernel) (by decide +kernel)) ∧
    Shown (((h.2 (on8 { tile8 with xaddr := some 0x020000000040 } [1106411520]) 4095 15 1 1 0 (by decide +kernel) (by decide +kernel) (by decide +kernel) (by decide +kernel) (by decide +kernel) (by decide +kernel)).1 _ (.head _) (by decide +kernel)).2.1 0x020000000040 (by decide +kernel) (by decide +kernel) (by decide +kernel) (by decide +kernel) (by decide +kernel) (by decide +kernel) (by decide +kernel) (by decide +kernel) (by decide +kernel) (by decide +kernel) (by decide +kernel) (by decide +kernel)) ∧
    Shown (((h.2 (at8 tile8 [1106280450]) 4095 15 0 1 2 (by decide +kernel) (by decide +kernel) (by decide +kernel) (by decide +kernel) (by decide +kernel) (by decide +kernel)).1 _ (.head _) (by decide +kernel)).2.2 (by decide +kernel) (by decide +kernel)) ∧
    Shown (((h.2 (at8 tile8 [1123942400]) 4095 15 7 0 0 (by decide +kernel) (by decide +kernel) (by decide +kernel) (by decide +kernel) (by decide +kernel) (by decide +kernel)).2 _ (.head _) (by decide +kernel)).1 (by decide +kernel) (by decide +kernel) (by decide +kernel)) ∧
    Shown (((h.2 (on8 { tile8 with xaddr := some 0x020000000040 } [1109557248]) 4095 2 1 1 0 (by decide +kernel) (by decide +kernel) (by decide +kernel) (by decide +kernel) (by decide +kernel) (by decide +kernel)).2 _ (.head _) (by decide +kernel)).2.1 0x020000000040 (by decide +kernel) (by decide +kernel) (by decide +kernel) (by decide +kernel) (by decide +kernel) (by decide +kernel) (by decide +kernel) (by decide +kernel) (by decide +kernel) (by decide +kernel) (by decide +kernel) (by decide +kernel) (by decide +kernel) (by decide +kernel) (by decide +kernel) (by decide +kernel)) ∧
    Shown (((h.2 (at8 tile8 [1110343712]) 4095 2 7 1 32 (by decide +kernel) (by decide +kernel) (by decide +kernel) (by decide +kernel) (by decide +kernel) (by decide +kernel)).2 _ (.head _) (by decide +kernel)).2.2 (by decide +kernel) (by decide +kernel) (by decide +kernel) (by decide +kernel)) :=
  ⟨shown _, shown _, shown _, shown _, shown _, shown _, shown _, shown _, shown _, shown _⟩

theorem test_meets_TileControlInstructions (h : Obligations.TileControlInstructions) :
    Shown ((h.1 (at8 tile8 [1342181375]) 4095 0 0 4095 (by decide +kernel) (by decide +kernel) (by decide +kernel) (by decide +kernel) (by decide +kernel) (by decide +kernel)).1 0 (by decide +kernel) (by decide +kernel) (by decide +kernel) (by decide +kernel)) ∧
    Shown ((h.1 (at8 tile8 [1359941631]) 4095 15 0 4095 (by decide +kernel) (by decide +kernel) (by decide +kernel) (by decide +kernel) (by decide +kernel) (by decide +kernel)).2.1 (by decide +kernel) (by decide +kernel) (by decide +kernel)) ∧
    Shown ((h.1 (at8 tile8 [1375797248]) 4095 1 0 0 (by decide +kernel) (by decide +kernel) (by decide +kernel) (by decide +kernel) (by decide +kernel) (by decide +kernel)).2.2.1 (by decide +kernel)) ∧
    Shown ((h.1 (at8 tile8 [1392578559]) 4095 1 0 4095 (by decide +kernel) (by decide +kernel) (by decide +kernel) (by decide +kernel) (by decide +kernel) (by decide +kernel)).2.2.2 (by decide +kernel)) ∧
    Shown (h.2.1 (at8 { tile8 with slots := 1 } [1342177287]) 4095 7 (by decide +kernel) (by decide +kernel) (by decide +kernel) (by decide +kernel)) ∧
    Shown ((h.2.2.1 (at8 tile8 [1476460543]) 4095 65535 (by decide +kernel) (by decide +kernel) (by decide +kernel) (by decide +kernel)).1 (by decide +kernel) (by decide +kernel) (by decide +kernel)) ∧
    Shown ((h.2.2.1 (on [(tilBlk 4095 + 8, 4)] (at8 tile8 [1476395013])) 4095 5 (by decide +kernel) (by decide +kernel) (by decide +kernel) (by decide +kernel)).2.1 (by decide +kernel) (by decide +kernel) (by decide +kernel)) ∧
    Shown ((h.2.2.1 (at8 tile8 [1493172239]) 4095 15 (by decide +kernel) (by decide +kernel) (by decide +kernel) (by decide +kernel)).2.2.1 (by decide +kernel) (by decide +kernel) (by decide +kernel)) ∧
    Shown ((h.2.2.1 (at8 tile8 [1509949444]) 4095 4 (by decide +kernel) (by decide +kernel) (by decide +kernel) (by decide +kernel)).2.2.2.1 (by decide +kernel) (by decide +kernel) (by decide +kernel)) ∧
    Shown ((h.2.2.1 (at8 tile8 [1610612737]) 4095 1 (by decide +kernel) (by decide +kernel) (by decide +kernel) (by decide +kernel)).2.2.2.2.1 (by decide +kernel) (by decide +kernel)) ∧
    Shown ((h.2.2.1 (at8 tile8 [1627390207]) 4095 255 (by decide +kernel) (by decide +kernel) (by decide +kernel) (by decide +kernel)).2.2.2.2.2 (by decide +kernel) (by decide +kernel)) ∧
    Shown ((h.2.2.2 (at8 tile8 [1645215743]) 4095 1048575).1 (by decide +kernel) (by decide +kernel)) ∧
    Shown ((h.2.2.2 (at8 tile8 [1652555777]) 4095 1).2.1 (by decide +kernel) (by decide +kernel)) ∧
    Shown ((h.2.2.2 (at8 { tile8 with wd := 1, wdLoad := 9 } [1660944384]) 4095 0).2.2.1 (by decide +kernel) (by decide +kernel)) ∧
    Shown ((h.2.2.2 (at8 tile8 [1677721600]) 4095 0).2.2.2.1 (by decide +kernel) (by decide +kernel) (by decide +kernel)) ∧
    Shown ((h.2.2.2 (at8 { tile8 with wrOut := [(1, 2)] } [1677721600]) 4095 0).2.2.2.2 (by decide +kernel) (by decide +kernel)) :=
  ⟨shown _, shown _, shown _, shown _, shown _, shown _, shown _, shown _, shown _, shown _, shown _, shown _, shown _, shown _, shown _, shown _⟩

theorem test_meets_TileItemsAnswersAndStops (h : Obligations.TileItemsAnswersAndStops) :
    Shown (h.1 (put8 { incoming := some item8 } up) 4095 item8 (by decide +kernel) (by decide +kernel) (by decide +kernel) (by decide +kernel)) ∧
    Shown (((h.2.1 (got8 (ans8 4 0 true) loading8) (ans8 4 0 true) 4095 0 (by decide +kernel) (by decide +kernel) (by decide +kernel) (by decide +kernel) (by decide +kernel) (by decide +kernel) (by decide +kernel) (by decide +kernel) (by decide +kernel)).1 5 4 0x80000040 false (by decide +kernel) (by decide +kernel) (by decide +kernel) (by decide +kernel)).1 (by decide +kernel) (by decide +kernel)) ∧
    Shown (((h.2.1 (got8 (ans8 4 0xE true) loading8) (ans8 4 0xE true) 4095 0 (by decide +kernel) (by decide +kernel) (by decide +kernel) (by decide +kernel) (by decide +kernel) (by decide +kernel) (by decide +kernel) (by decide +kernel) (by decide +kernel)).1 5 4 0x80000040 false (by decide +kernel) (by decide +kernel) (by decide +kernel) (by decide +kernel)).2 (by decide +kernel) (by decide +kernel)) ∧
    Shown ((h.2.1 (got8 (ans8 5 0xE false) { tile8 with wrOut := [(0x40, 0x80000040)] }) (ans8 5 0xE false) 4095 0 (by decide +kernel) (by decide +kernel) (by decide +kernel) (by decide +kernel) (by decide +kernel) (by decide +kernel) (by decide +kernel) (by decide +kernel) (by decide +kernel)).2.1 0x40 0x80000040 (by decide +kernel) (by decide +kernel) (by decide +kernel) (by decide +kernel) (by decide +kernel) (by decide +kernel)) ∧
    Shown ((h.2.1 (got8 (ans8 6 0 false) { tile8 with provPend := 1, ctaint := true, units := [(3, true)] }) (ans8 6 0 false) 4095 0 (by decide +kernel) (by decide +kernel) (by decide +kernel) (by decide +kernel) (by decide +kernel) (by decide +kernel) (by decide +kernel) (by decide +kernel) (by decide +kernel)).2.2.1 (by decide +kernel) (by decide +kernel) (by decide +kernel)) ∧
    Shown ((h.2.1 (got8 (ans8 7 0 false) { tile8 with provPend := 2, cbuf := [store8], wd := 3 }) (ans8 7 0 false) 4095 0 (by decide +kernel) (by decide +kernel) (by decide +kernel) (by decide +kernel) (by decide +kernel) (by decide +kernel) (by decide +kernel) (by decide +kernel) (by decide +kernel)).2.2.2 item8 (by decide +kernel) (by decide +kernel) (by decide +kernel)) ∧
    Shown (h.2.2.1 (put8 { tile8 with cbuf := [store8] } grid) 4095 store8 (by decide +kernel) (by decide +kernel) (by decide +kernel) (by decide +kernel) (by decide +kernel) (by decide +kernel) (by decide +kernel) (by decide +kernel) (by decide +kernel) (by decide +kernel) (by decide +kernel) (by decide +kernel)) ∧
    Shown ((h.2.2.2.1 (put8 { tile8 with state := 0x73, exitCode := 255 } grid) 4095 item8 (by decide +kernel) (by decide +kernel) (by decide +kernel) (by decide +kernel)).1 (by decide +kernel) (by decide +kernel) (by decide +kernel) (by decide +kernel) (by decide +kernel)) ∧
    Shown (((h.2.2.2.1 (put8 { tile8 with state := 0x72, werr := some 0x80000040 } grid) 4095 item8 (by decide +kernel) (by decide +kernel) (by decide +kernel) (by decide +kernel)).2.1 (by decide +kernel) (by decide +kernel)).1 0x80000040 (by decide +kernel)) ∧
    Shown (((h.2.2.2.1 (put8 { tile8 with state := 0x72, wdLoad := 9 } grid) 4095 item8 (by decide +kernel) (by decide +kernel) (by decide +kernel) (by decide +kernel)).2.1 (by decide +kernel) (by decide +kernel)).2.1 (by decide +kernel)) ∧
    Shown (((h.2.2.2.1 (put8 { tile8 with state := 0x72, wdLoad := 9 } grid) 4095 item8 (by decide +kernel) (by decide +kernel) (by decide +kernel) (by decide +kernel)).2.1 (by decide +kernel) (by decide +kernel)).2.2.1 (by decide +kernel)) ∧
    Shown (((h.2.2.2.1 (put8 { tile8 with state := 0x72, wake := true } grid) 4095 item8 (by decide +kernel) (by decide +kernel) (by decide +kernel) (by decide +kernel)).2.1 (by decide +kernel) (by decide +kernel)).2.2.2.1 (by decide +kernel)) ∧
    Shown (((h.2.2.2.1 (on [(clkBlk 15 + 0x10, 0)] (put8 { tile8 with state := 0x72 } grid)) 4095 item8 (by decide +kernel) (by decide +kernel) (by decide +kernel) (by decide +kernel)).2.1 (by decide +kernel) (by decide +kernel)).2.2.2.2 (by decide +kernel) (by decide +kernel)) ∧
    Shown ((h.2.2.2.1 (put8 { tile8 with state := 0x74 } grid) 4095 item8 (by decide +kernel) (by decide +kernel) (by decide +kernel) (by decide +kernel)).2.2.1 (by decide +kernel) (by decide +kernel)) ∧
    Shown ((h.2.2.2.1 (holding8 (put8 { tile8 with preempt := some 4095 } grid)) 4095 item8 (by decide +kernel) (by decide +kernel) (by decide +kernel) (by decide +kernel)).2.2.2.1 4095 held8 (by decide +kernel) (by decide +kernel) (by decide +kernel) (by decide +kernel)) ∧
    Shown ((h.2.2.2.1 (put8 { tile8 with state := 0x76, before := 0x72, tmr := 5, incoming := some { item8 with gen := 3 } } grid) 4095 item8 (by decide +kernel) (by decide +kernel) (by decide +kernel) (by decide +kernel)).2.2.2.2 { item8 with gen := 3 } (by decide +kernel) (by decide +kernel) (by decide +kernel)) ∧
    Shown ((h.2.2.2.2.1 (put8 { tile8 with state := 0x76, restoring := true, saved := some saved8 } grid) 4095 saved8 (by decide +kernel)).1 (by decide +kernel) (by decide +kernel) (by decide +kernel)) ∧
    Shown ((h.2.2.2.2.1 (put8 { tile8 with saved := some saved8 } grid) 4095 saved8 (by decide +kernel)).2 (by decide +kernel) (by decide +kernel)) ∧
    Shown (h.2.2.2.2.2.1 grid 4095 (by decide +kernel) (by decide +kernel)) ∧
    Shown (h.2.2.2.2.2.2 (put8 { tile8 with state := 0x74, saved := some saved8 } grid) 4095 (.station 0x804) (by decide +kernel) (by decide +kernel)) :=
  ⟨shown _, shown _, shown _, shown _, shown _, shown _, shown _, shown _, shown _, shown _, shown _, shown _, shown _, shown _, shown _, shown _, shown _, shown _, shown _, shown _⟩

end C08

namespace C09

theorem test_meets_TileWordsDecodeAndEncodeAgree (h : Obligations.TileWordsDecodeAndEncodeAgree) :
    Shown (h.1 (.cmac 4095 true 3 15 15 15) 4095 0xB0FFFC00 (by decide +kernel) (by decide +kernel)) ∧
    Shown (h.1 (.lw 0 15 7 2 15) 0 0x41FF000F (by decide +kernel) (by decide +kernel)) ∧
    Shown (h.2.1 (.lock 7 4) 7 0x5A000004 (by decide +kernel) (by decide +kernel) (by decide +kernel)) ∧
    Shown (h.2.2.1 0 0xFFFFFFFF (by decide +kernel)) ∧
    Shown (h.2.2.2 (.lui 4095 false 7 0x8040) 4095 0x18708040 up (by decide +kernel) (by decide +kernel) (by decide +kernel)) :=
  ⟨shown _, shown _, shown _, shown _, shown _⟩

end C09

namespace C10

/-- G7 alone in RUN, with every route. -/
def run10 : State := { grid with regs := up.regs ++ [(clkBlk 15 + 0x18, 0x30)] }
/-- G7's dispatcher enabled, queue 255 of class E7, delay list 7 on TB1 with a tick of 250 ns. -/
def d10 (l : List (Nat × Word)) (now : Nat) : State :=
  let s := on ([(dspBlk 7, 0x80000008), (dspBlk 7 + 8, 0xF8000000), (dspBlk 7 + 0xC, 0x1C0), (qCfg 7 255, 0x87710000), (dlCfg 7 7, 0x810000FA)] ++ l) run10
  { s with tu := { s.tu with replicas := [(15, { cores := [(1, { run := true, cnt := now * 2 ^ 40 })] })] } }
/-- Post slot 2047 of G7 filled but for word 7. -/
def words10 (w5 w6 : Word) : List Word := [1, 2, 3, 4, 0x000FF005, w5, w6, 0]
def put10 (w5 w6 : Word) (s : State) : State := { s with dsp := { s.dsp with posted := [(7 * 2048 + 2047, words10 w5 w6)] } }
def desc10 (w5 w6 w7 : Word) : List Word := [1, 2, 3, 4, 0x000FF005, w5, w6, w7]
def item10 (w5 w6 w7 : Word) : Item := { desc := desc10 w5 w6 w7, slot := 65535, gen := 9, eclass := 7 }
def w5u : Word := 0
def w5t : Word := 0x3C000000
def w5f : Word := 0x01E00005
def ctx10 (h w : Word) : List Word := [h + w * 0x10000] ++ List.replicate 15 0
def withCtx (w : List Word) (s : State) : State := { s with dsp := { s.dsp with ctxs := [(ctxKey 7 0xE00005, w)] } }
def at10 (n : Nat) (h : Held) (s : State) : State := { s with dsp := { s.dsp with slots := [(7 * 65536 + n, some h)] } }
def two10 (n : Nat) (h : Held) (m : Nat) (k : Held) (s : State) : State :=
  { s with dsp := { s.dsp with slots := [(7 * 65536 + n, some h), (7 * 65536 + m, some k)] } }
def reportIs (r : TileReport) (s : State) : State := { s with dsp := { s.dsp with reports := [r] } }
def ready10 (w5 : Word) : Held := { item := item10 w5 0 0, stage := .ready, order := 3 }
def serving10 (t : Nat) (w5 : Word) : Held := { item := item10 w5 0 0, stage := .service t }
def got10 (p : Packet) (s : State) : State := { s with bough := { s.bough with inbox := [p] }, dsp := { s.dsp with reads := [ctxKey 7 0xE00005] } }
def fill10 (poison : Bool) (st : Nat) : Packet :=
  { op := 4, vc := 1, dst := dspStation 7, src := 0xF01, addr := ctxAddr (d10 [] 5) (ctxKey 7 0xE00005), len := 64, data := List.replicate 64 0, poison := poison, status := st }
def tile10 : Tile := { state := 0x72, item := some { item10 0x40000000 0 0 with restarts := 7 } }

theorem test_meets_PostsAreCheckedAndItemsHeld (h : Obligations.PostsAreCheckedAndItemsHeld) :
    Shown ((h.1 (put10 0 0 (d10 [] 5)) 7 2047 0xFFFFFFFF (by decide +kernel) (by decide +kernel) (by decide +kernel) (by decide +kernel)).1 6 (by decide +kernel)) ∧
    Shown (((h.1 (put10 0x80000000 0 (d10 [] 5)) 7 2047 0xFFFFFFFF (by decide +kernel) (by decide +kernel) (by decide +kernel) (by decide +kernel)).2.1 (desc10 0x80000000 0 0xFFFFFFFF) { desc := (desc10 0x80000000 0 0xFFFFFFFF) } 0xFFFFFFFF 0 1 (by decide +kernel) (by decide +kernel) (by decide +kernel) (by decide +kernel) (by decide +kernel)).1) ∧
    Shown (((h.1 (put10 0x80000000 0 (d10 [] 5)) 7 2047 0xFFFFFFFF (by decide +kernel) (by decide +kernel) (by decide +kernel) (by decide +kernel)).2.1 (desc10 0x80000000 0 0xFFFFFFFF) { desc := (desc10 0x80000000 0 0xFFFFFFFF) } 0xFFFFFFFF 0 1 (by decide +kernel) (by decide +kernel) (by decide +kernel) (by decide +kernel) (by decide +kernel)).2.1 0x11 (by decide +kernel)) ∧
    Shown ((((h.1 (put10 w5u 0 (d10 [] 5)) 7 2047 2 (by decide +kernel) (by decide +kernel) (by decide +kernel) (by decide +kernel)).2.1 (desc10 w5u 0 2) { desc := (desc10 w5u 0 2) } 2 0 1 (by decide +kernel) (by decide +kernel) (by decide +kernel) (by decide +kernel) (by decide +kernel)).2.2 (by decide +kernel)).1 (by decide +kernel) (by decide +kernel)) ∧
    Shown ((((h.1 (put10 w5t 0x00100000 (d10 [] 5)) 7 2047 5 (by decide +kernel) (by decide +kernel) (by decide +kernel) (by decide +kernel)).2.1 (desc10 w5t 0x00100000 5) { desc := (desc10 w5t 0x00100000 5) } (2 ^ 32) 0 1 (by decide +kernel) (by decide +kernel) (by decide +kernel) (by decide +kernel) (by decide +kernel)).2.2 (by decide +kernel)).2.1 (by decide +kernel) (by decide +kernel) (by decide +kernel)) ∧
    Shown ((((h.1 (put10 w5t 0 (d10 [] 5)) 7 2047 5 (by decide +kernel) (by decide +kernel) (by decide +kernel) (by decide +kernel)).2.1 (desc10 w5t 0 5) { desc := (desc10 w5t 0 5) } 0 0 1 (by decide +kernel) (by decide +kernel) (by decide +kernel) (by decide +kernel) (by decide +kernel)).2.2 (by decide +kernel)).2.2.1 (by decide +kernel) (by decide +kernel) (by decide +kernel)) ∧
    Shown (((((h.1 (withCtx (ctx10 0 0) (put10 w5f 0 (d10 [] 5))) 7 2047 5 (by decide +kernel) (by decide +kernel) (by decide +kernel) (by decide +kernel)).2.1 (desc10 w5f 0 5) { desc := (desc10 w5f 0 5) } 5 0 1 (by decide +kernel) (by decide +kernel) (by decide +kernel) (by decide +kernel) (by decide +kernel)).2.2 (by decide +kernel)).2.2.2.2.1 (ctx10 0 0) (by decide +kernel) (by decide +kernel) (by decide +kernel)).1 (by decide +kernel)) ∧
    Shown (((((h.1 (withCtx (ctx10 1 0) (put10 w5f 0 (d10 [] 5))) 7 2047 5 (by decide +kernel) (by decide +kernel) (by decide +kernel) (by decide +kernel)).2.1 (desc10 w5f 0 5) { desc := (desc10 w5f 0 5) } 5 0 1 (by decide +kernel) (by decide +kernel) (by decide +kernel) (by decide +kernel) (by decide +kernel)).2.2 (by decide +kernel)).2.2.2.2.1 (ctx10 1 0) (by decide +kernel) (by decide +kernel) (by decide +kernel)).2 (by decide +kernel) (by decide +kernel)) ∧
    Shown ((((h.1 (put10 w5f 0 (d10 [] 5)) 7 2047 5 (by decide +kernel) (by decide +kernel) (by decide +kernel) (by decide +kernel)).2.1 (desc10 w5f 0 5) { desc := (desc10 w5f 0 5) } 5 0 1 (by decide +kernel) (by decide +kernel) (by decide +kernel) (by decide +kernel) (by decide +kernel)).2.2 (by decide +kernel)).2.2.2.2.2 (by decide +kernel) (by decide +kernel) (by decide +kernel) (by decide +kernel) (by decide +kernel) (by decide +kernel) (by decide +kernel) (by decide +kernel) (by decide +kernel) (by decide +kernel) (by decide +kernel)) ∧
    Shown ((h.1 { put10 w5f 0 (d10 [] 5) with dsp := { results := [(7 * 2048 + 2047, 0x01090000)] } } 7 2047 5 (by decide +kernel) (by decide +kernel) (by decide +kernel) (by decide +kernel)).2.2 0xF4F 65535 (by decide +kernel) (by decide +kernel)) ∧
    Shown ((h.2.1 (d10 [] 5) 7 65535 0x0009FFFF (by decide +kernel) (by decide +kernel) (by decide +kernel) (by decide +kernel)).1 (fun x h => nomatch h)) ∧
    Shown (((h.2.1 (at10 65535 { item := item10 w5t 0 9, stage := .delay, due := 9 } (d10 [(qCfg 7 255 + 8, 1)] 5)) 7 65535 0x0009FFFF (by decide +kernel) (by decide +kernel) (by decide +kernel) (by decide +kernel)).2 { item := item10 w5t 0 9, stage := .delay, due := 9 } (by decide +kernel) (by decide +kernel) (by decide +kernel) (by decide +kernel)).1 (by decide +kernel)) ∧
    Shown (((h.2.1 (at10 65535 (ready10 0) (d10 [(qCfg 7 255 + 8, 1)] 5)) 7 65535 0x0009FFFF (by decide +kernel) (by decide +kernel) (by decide +kernel) (by decide +kernel)).2 (ready10 0) (by decide +kernel) (by decide +kernel) (by decide +kernel) (by decide +kernel)).2.1 (by decide +kernel) (by decide +kernel)) ∧
    Shown (((h.2.1 (at10 65535 { ready10 w5f with stage := .lookup } (d10 [(qCfg 7 255 + 8, 1)] 5)) 7 65535 0x0009FFFF (by decide +kernel) (by decide +kernel) (by decide +kernel) (by decide +kernel)).2 { ready10 w5f with stage := .lookup } (by decide +kernel) (by decide +kernel) (by decide +kernel) (by decide +kernel)).2.2.1 (by decide +kernel) (by decide +kernel)) ∧
    Shown (((h.2.1 (withCtx (ctx10 1 1) (at10 65535 { ready10 w5f with stage := .chain } (d10 [(qCfg 7 255 + 8, 1)] 5))) 7 65535 0x0009FFFF (by decide +kernel) (by decide +kernel) (by decide +kernel) (by decide +kernel)).2 { ready10 w5f with stage := .chain } (by decide +kernel) (by decide +kernel) (by decide +kernel) (by decide +kernel)).2.2.2 (ctx10 1 1) (by decide +kernel) (by decide +kernel) (by decide +kernel) (by decide +kernel)) ∧
    Shown ((h.2.2 (on [(dlCfg 7 7, 0x820000FA)] (d10 [] 5)) 7 7 65535 250 (ready10 0) (by decide +kernel) (by decide +kernel) (by decide +kernel) (by decide +kernel) (by decide +kernel)).1 (by decide +kernel)) ∧
    Shown (((h.2.2 (at10 65535 { item := item10 w5t 0 249, stage := .delay, due := 249 } (d10 [] 500)) 7 7 65535 250 { item := item10 w5t 0 249, stage := .delay, due := 249 } (by decide +kernel) (by decide +kernel) (by decide +kernel) (by decide +kernel) (by decide +kernel)).2 (by decide +kernel) (by decide +kernel) (by decide +kernel) (by decide +kernel) (by decide +kernel) (by decide +kernel)).1 (by decide +kernel) (by decide +kernel)) ∧
    Shown (((h.2.2 (at10 65535 { item := item10 w5t 0 250, stage := .delay, due := 250 } (d10 [] 500)) 7 7 65535 250 { item := item10 w5t 0 250, stage := .delay, due := 250 } (by decide +kernel) (by decide +kernel) (by decide +kernel) (by decide +kernel) (by decide +kernel)).2 (by decide +kernel) (by decide +kernel) (by decide +kernel) (by decide +kernel) (by decide +kernel) (by decide +kernel)).1 (by decide +kernel) (by decide +kernel)) ∧
    Shown (((h.2.2 (at10 65535 { item := item10 w5t 0 250, stage := .delay, due := 250 } (d10 [] 249)) 7 7 65535 250 { item := item10 w5t 0 250, stage := .delay, due := 250 } (by decide +kernel) (by decide +kernel) (by decide +kernel) (by decide +kernel) (by decide +kernel)).2 (by decide +kernel) (by decide +kernel) (by decide +kernel) (by decide +kernel) (by decide +kernel) (by decide +kernel)).2 (by decide +kernel)) :=
  ⟨shown _, shown _, shown _, shown _, shown _, shown _, shown _, shown _, shown _, shown _, shown _, shown _, shown _, shown _, shown _, shown _, shown _, shown _, shown _⟩

theorem test_meets_ItemsStartEndAndFlowsAdvance (h : Obligations.ItemsStartEndAndFlowsAdvance) :
    Shown ((h.1 (withCtx (ctx10 1 0) (at10 65535 (ready10 w5f) (d10 [] 5))) 7 65535 0 (ready10 w5f) (by decide +kernel) (by decide +kernel) (by decide +kernel) (by decide +kernel) (by decide +kernel) (by decide +kernel)).1 (by decide +kernel) (by decide +kernel) (by decide +kernel)) ∧
    Shown ((h.1 (two10 3 { ready10 0 with item := { item10 0 0 0 with desc := [1, 2, 3, 4, 5, 0, 0, 0] }, order := 9 } 65535 (ready10 0) (d10 [(qCfg 7 0, 0x80010000)] 5)) 7 3 0 { ready10 0 with item := { item10 0 0 0 with desc := [1, 2, 3, 4, 5, 0, 0, 0] }, order := 9 } (by decide +kernel) (by decide +kernel) (by decide +kernel) (by decide +kernel) (by decide +kernel) (by decide +kernel)).2.1 65535 (ready10 0) (by decide +kernel) (by decide +kernel) (by decide +kernel) (by decide +kernel) (by decide +kernel) (by decide +kernel) (by decide +kernel) (by decide +kernel) (by decide +kernel) (by decide +kernel)) ∧
    Shown ((h.1 (at10 65535 (ready10 0) (d10 [(dspBlk 7 + 0x10, 0x7F)] 5)) 7 65535 0 (ready10 0) (by decide +kernel) (by decide +kernel) (by decide +kernel) (by decide +kernel) (by decide +kernel) (by decide +kernel)).2.2 (by decide +kernel) (.inr rfl)) ∧
    Shown (h.2.1 { at10 65535 { ready10 0 with item := { item10 0 0 0 with desc := [1, 2, 3, 4, 0xF0000005, 0, 0, 0] } } (d10 [(qCfg 7 0, 0xC0010000), (dspBlk 7 + 0x5C0, 0x80000000)] 5) with tiles := [(3615, tile10)] } 7 65535 3615 { ready10 0 with item := { item10 0 0 0 with desc := [1, 2, 3, 4, 0xF0000005, 0, 0, 0] } } tile10 (by decide +kernel) (by decide +kernel) (by decide +kernel) (by decide +kernel) (by decide +kernel) (by decide +kernel) (by decide +kernel) (by decide +kernel) (by decide +kernel) (by decide +kernel) (by decide +kernel) (by decide +kernel) (by decide +kernel)) ∧
    Shown ((h.2.2.1 (reportIs ⟨4095, item10 0 0 0, 5, 7⟩ (at10 65535 (serving10 4095 0) (d10 [(qCfg 7 255 + 8, 1)] 5))) 7 ⟨4095, item10 0 0 0, 5, 7⟩ (serving10 4095 0) (by decide +kernel) (by decide +kernel) (by decide +kernel) (by decide +kernel) (by decide +kernel) (by decide +kernel) (by decide +kernel) (by decide +kernel)).1 (by decide +kernel) (by decide +kernel)) ∧
    Shown ((h.2.2.1 (reportIs ⟨4095, item10 0 0 0, 0, 255⟩ (at10 65535 (serving10 4095 0) (d10 [(qCfg 7 255 + 8, 1), (dspBlk 7 + 0x2FF0, 0xFFFFFFF0), (dspBlk 7 + 0x2FF4, 0x801001BF), (dspBlk 7 + 0x2FF8, 0xFFFFFFFF)] 5))) 7 ⟨4095, item10 0 0 0, 0, 255⟩ (serving10 4095 0) (by decide +kernel) (by decide +kernel) (by decide +kernel) (by decide +kernel) (by decide +kernel) (by decide +kernel) (by decide +kernel) (by decide +kernel)).2.1 (by decide +kernel) (by decide +kernel)) ∧
    Shown ((h.2.2.1 (withCtx (ctx10 1 0) (reportIs ⟨4095, item10 w5f 0 0, 0, 255⟩ (at10 65535 (serving10 4095 w5f) (d10 [(qCfg 7 255 + 8, 1)] 5)))) 7 ⟨4095, item10 w5f 0 0, 0, 255⟩ (serving10 4095 w5f) (by decide +kernel) (by decide +kernel) (by decide +kernel) (by decide +kernel) (by decide +kernel) (by decide +kernel) (by decide +kernel) (by decide +kernel)).2.2 (ctx10 1 0) (by decide +kernel) (by decide +kernel) (by decide +kernel) (by decide +kernel) (by decide +kernel)) ∧
    Shown (h.2.2.2.1 (withCtx ((ctx10 1 1).set 1 3) (reportIs ⟨4095, item10 w5f 0 0, 0, 255⟩ (two10 3 { ready10 w5f with stage := .chain } 65535 (serving10 4095 w5f) (d10 [(qCfg 7 255 + 8, 2)] 5)))) 7 3 ⟨4095, item10 w5f 0 0, 0, 255⟩ (serving10 4095 w5f) { ready10 w5f with stage := .chain } ((ctx10 1 1).set 1 3) (by decide +kernel) (by decide +kernel) (by decide +kernel) (by decide +kernel) (by decide +kernel) (by decide +kernel) (by decide +kernel) (by decide +kernel) (by decide +kernel) (by decide +kernel) (by decide +kernel) (by decide +kernel) (by decide +kernel) (by decide +kernel) (by decide +kernel) (by decide +kernel)) ∧
    Shown ((h.2.2.2.2.1 (got10 (fill10 false 0) (at10 65535 { ready10 w5f with stage := .lookup } (d10 [] 5))) 7 65535 (ctxKey 7 0xE00005) (fill10 false 0) { ready10 w5f with stage := .lookup } (by decide +kernel) (by decide +kernel) (by decide +kernel) (by decide +kernel) (by decide +kernel) (by decide +kernel) (by decide +kernel) (by decide +kernel) (by decide +kernel) (by decide +kernel) (by decide +kernel) (by decide +kernel) (by decide +kernel) (by decide +kernel) (by decide +kernel)).1 (by decide +kernel) (by decide +kernel) (by decide +kernel) (by decide +kernel)) ∧
    Shown ((h.2.2.2.2.1 (all (got10 (fill10 true 0) (at10 65535 { ready10 w5f with stage := .lookup } (d10 [] 5)))) 7 65535 (ctxKey 7 0xE00005) (fill10 true 0) { ready10 w5f with stage := .lookup } (by decide +kernel) (by decide +kernel) (by decide +kernel) (by decide +kernel) (by decide +kernel) (by decide +kernel) (by decide +kernel) (by decide +kernel) (by decide +kernel) (by decide +kernel) (by decide +kernel) (by decide +kernel) (by decide +kernel) (by decide +kernel) (by decide +kernel)).2 (by decide +kernel) (by decide +kernel) (by decide +kernel) (by decide +kernel)) ∧
    Shown (h.2.2.2.2.2.1 (withCtx (ctx10 0 0) (at10 65535 { ready10 w5f with stage := .backlog } (d10 [] 5))) 7 65535 { ready10 w5f with stage := .backlog } (ctx10 0 0) (by decide +kernel) (by decide +kernel) (by decide +kernel) (by decide +kernel) (by decide +kernel) (by decide +kernel) (by decide +kernel)) ∧
    Shown ((h.2.2.2.2.2.2.1 { d10 [(dspBlk 7, 0x80000009)] 5 with tiles := [(3615, tile10)], dsp := { restarts := [3615] } } 7 3615 { item10 0x40000000 0 0 with restarts := 7 } (by decide +kernel) (by decide +kernel) (by decide +kernel) (by decide +kernel) (by decide +kernel)).1 (.inr (by decide +kernel))) ∧
    Shown ((h.2.2.2.2.2.2.1 (all { d10 [(dspBlk 7, 0x80000008)] 5 with tiles := [(3615, tile10)], dsp := { restarts := [3615] } }) 7 3615 { item10 0x40000000 0 0 with restarts := 7 } (by decide +kernel) (by decide +kernel) (by decide +kernel) (by decide +kernel) (by decide +kernel)).2 (by decide +kernel) (by decide +kernel) (by decide +kernel) (by decide +kernel) (by decide +kernel) (by decide +kernel)) ∧
    Shown ((h.2.2.2.2.2.2.2.1 (d10 [] 5) 7 (.host 0) 65536 (by decide +kernel) (by decide +kernel) (by decide +kernel)).1 255 (by decide +kernel) |>.1 (by decide +kernel)) ∧
    Shown ((h.2.2.2.2.2.2.2.1 (d10 [] 5) 7 (.host 0) 65537 (by decide +kernel) (by decide +kernel) (by decide +kernel)).1 255 (by decide +kernel) |>.2 (by decide +kernel)) ∧
    Shown ((h.2.2.2.2.2.2.2.1 (d10 [] 5) 7 .warden 0x87000010 (by decide +kernel) (by decide +kernel) (by decide +kernel)).2.1 7 (by decide +kernel) (by decide +kernel) (by decide +kernel) |>.1 (by decide +kernel)) ∧
    Shown ((h.2.2.2.2.2.2.2.1 (at10 65535 { ready10 w5t with stage := .delay } (d10 [] 5)) 7 .warden 0x8100FFFE (by decide +kernel) (by decide +kernel) (by decide +kernel)).2.1 7 (by decide +kernel) (by decide +kernel) (by decide +kernel) |>.2 (by decide +kernel) (.inr (by decide +kernel))) ∧
    Shown ((h.2.2.2.2.2.2.2.1 (d10 [] 5) 7 .warden 0x7F (by decide +kernel) (by decide +kernel) (by decide +kernel)).2.2.1 (by decide +kernel) (by decide +kernel)) ∧
    Shown ((h.2.2.2.2.2.2.2.1 (d10 [(dspBlk 7, 8), (dspBlk 7 + 8, 0xF8000000), (dspBlk 7 + 0xC, 0x1C0)] 5) 7 .warden 0x8000007F (by decide +kernel) (by decide +kernel) (by decide +kernel)).2.2.2.1 (by decide +kernel) (by decide +kernel) |>.2 (by decide +kernel)) ∧
    Shown ((h.2.2.2.2.2.2.2.1 (withCtx (ctx10 1 0) (d10 [] 5)) 7 .warden 0x80000000 (by decide +kernel) (by decide +kernel) (by decide +kernel)).2.2.2.2 (ctxKey 7 0xE00005) (ctx10 1 0) (by decide +kernel) (by decide +kernel) (by decide +kernel) (by decide +kernel)) ∧
    Shown ((h.2.2.2.2.2.2.2.2.1 (withCtx (ctx10 0 0) (d10 [(dspBlk 7 + 4, 8)] 5)) 7 (by decide +kernel) (by decide +kernel)).1 (ctxKey 7 0xE00005) (ctx10 0 0) (by decide +kernel) (by decide +kernel) (by decide +kernel) (by decide +kernel) (by decide +kernel)) ∧
    Shown ((h.2.2.2.2.2.2.2.2.1 { d10 [(dspBlk 7 + 4, 2)] 5 with dsp := { flush := [(7, some none)] } } 7 (by decide +kernel) (by decide +kernel)).2 (by decide +kernel)) ∧
    Shown (h.2.2.2.2.2.2.2.2.2 (d10 [(dspBlk 7 + 0xBC, 5)] 5) 0xF4F 7 7 (by decide +kernel) (by decide +kernel) (by decide +kernel) (by decide +kernel)) :=
  ⟨shown _, shown _, shown _, shown _, shown _, shown _, shown _, shown _, shown _, shown _, shown _, shown _, shown _, shown _, shown _, shown _, shown _, shown _, shown _, shown _, shown _, shown _, shown _⟩

end C10

namespace C11

/-- Channel PG7.31: its configuration, state, producer, consumer, further registers. -/
def ch (cfg st prod cons : Word) (l : List (Nat × Word)) : State :=
  on ([(ptrBlk 0xF2F, cfg), (ptrBlk 0xF2F + 4, st), (ptrBlk 0xF2F + 8, 0xFFFFFFC0), (ptrBlk 0xF2F + 0xC, 0x1C3), (ptrBlk 0xF2F + 0x10, prod), (ptrBlk 0xF2F + 0x14, cons)] ++ l) grid
def porter11 (x : Porter) (s : State) : State := { s with porters := [(0xF2F, x)] }
def got11 (p : Packet) (s : State) : State := { s with bough := { s.bough with inbox := [p] } }
/-- A descriptor: 128 bytes from the last line of G7's DRAM to G0's. -/
def desc11 (fl : Word) (l : Word) : List Word := [fl, 0, 0xFFFFFF80, 0x1FF, 0xFFFFFF80, 0x3F, l, 0, 0, 0xABCD, 0, 0, 0, 0, 0, 0]
def ans11 (op tag st : Nat) (poison : Bool) (data : List Byte) : Packet :=
  { op := op, vc := 1, dst := 0xF2F, src := 0xF01, tag := tag, addr := 0, len := data.length, data := data, status := st, poison := poison }
def beat11 (st : BeatState) : Beat := { off := 0, len := 128, st := st, src := 0x1FFFFFFFF80, dst := 0x3FFFFFFF80, tag := 0xFEFF }
def mid11 (st : BeatState) : Porter := { desc := some (desc11 0 128), mover := true, next := 128, beats := [beat11 st] }
def done11 : Porter := { desc := some (desc11 0 128), mover := true, next := 128 }
def data11 : List Byte := List.replicate 128 7
def running11 (s : State) : State := { s with tu := { s.tu with replicas := [(15, { cores := [(7, { run := true, cnt := 5 * 2 ^ 40 })] })] } }
def recv11 : Word := 0xA000000C
def unit11 (addr : Nat) (n : Nat) : Packet := { op := 3, vc := 2, dst := 0xF2F, src := 0x21F, addr := addr, len := n, data := List.replicate n 9 }
/-- A receive descriptor of a buffer of G0's DRAM. -/
def rdesc11 (l : Word) : List Word := [0, 0, 0, 0, 0xFFFE0000, 0x3F, l, 0, 0, 0xABCD, 0, 0, 0, 0, 0, 0]
def open11 : Porter := { desc := some (rdesc11 65536), sender := some 0x21F, placed := 300, beats := [beat11 .writing, beat11 .xdst] }
def walk11 (lv k va : Nat) (wr_ : Bool) : Walk := { id := 65536, grove := 7, asid := 255, va := va, write := wr_, user := .tile 4095, sent := true, level := lv, k := k }
def walking (w : Walk) (e : Nat) (s : State) : State :=
  { got11 { op := 4, vc := 1, dst := 0xF00, src := 0xF01, tag := w.id % 65536, addr := 0, len := 8, data := toBytes 8 e } s with
    xlt := { walks := [w] }, tiles := [(4095, { state := 0x71, item := some {}, stall := some (.xlate w.id) })] }
def tlb11 (a p k : Nat) : TlbEntry := { asid := a, page := p, k := k, base := 0, w := true }

theorem test_meets_TransfersMoveBeatByBeat (h : Obligations.TransfersMoveBeatByBeat) :
    Shown ((h.1 (ch 0x8000000C 0x80 4096 0 []) 0xF2F (.station 0xF04) 4097 (by decide +kernel) (by decide +kernel) (by decide +kernel) (by decide +kernel)).1 (by decide +kernel) (by decide +kernel)) ∧
    Shown ((h.1 (ch 0x8000000C 0x80 5 5 []) 0xF2F (.host 1) 4101 (by decide +kernel) (by decide +kernel) (by decide +kernel) (by decide +kernel)).2.1 (by decide +kernel) (by decide +kernel)) ∧
    Shown ((h.1 (ch 0x8000000C 0x80 65535 65535 []) 0xF2F .warden 0 (by decide +kernel) (by decide +kernel) (by decide +kernel) (by decide +kernel)).2.1 (by decide +kernel) (by decide +kernel)) ∧
    Shown ((h.1 (ch 0x8000000C 0x80 5 5 []) 0xF2F (.station 0x804) 6 (by decide +kernel) (by decide +kernel) (by decide +kernel) (by decide +kernel)).2.2 (by decide +kernel)) ∧
    Shown (h.2.1 (on [(ptrBlk 0xF10 + 4, 0x82), (ptrBlk 0xF10, 0x83000000)] (ch 0x8200000C 0x82 7 4101 [])) 15 0xF2F (by decide +kernel) (by decide +kernel) (by decide +kernel) (by decide +kernel) (by decide +kernel) (by decide +kernel) (by decide +kernel) (by decide +kernel) (by decide +kernel) (by decide +kernel) (by decide +kernel) (by decide +kernel) (by decide +kernel) (by decide +kernel) (by decide +kernel)) ∧
    Shown (h.2.1 (on [(ptrBlk 0xF2E + 4, 0x82), (ptrBlk 0xF2E, 0x80000000)] (ch 0xC300000C 0x82 7 4101 [])) 15 0xF2F (by decide +kernel) (by decide +kernel) (by decide +kernel) (by decide +kernel) (by decide +kernel) (by decide +kernel) (by decide +kernel) (by decide +kernel) (by decide +kernel) (by decide +kernel) (by decide +kernel) (by decide +kernel) (by decide +kernel) (by decide +kernel) (by decide +kernel)) ∧
    Shown ((h.2.2.1 (all (porter11 { reading := true, mover := true } (got11 (ans11 4 0xFFFF 6 false []) (ch 0x8000000C 0x81 0 65535 [])))) 0xF2F (ans11 4 0xFFFF 6 false []) { reading := true, mover := true } (by decide +kernel) (by decide +kernel) (by decide +kernel) (by decide +kernel) (by decide +kernel) (by decide +kernel) (by decide +kernel) (by decide +kernel) (by decide +kernel) (by decide +kernel)).1 6 (.inr (.inl ⟨rfl, rfl, rfl⟩)) (by decide +kernel) (by decide +kernel) (by decide +kernel) (by decide +kernel)) ∧
    Shown ((h.2.2.1 (all (porter11 { reading := true, mover := true } (got11 (ans11 4 0xFFFF 0 true []) (ch 0x8000000C 0x81 0 65535 [])))) 0xF2F (ans11 4 0xFFFF 0 true []) { reading := true, mover := true } (by decide +kernel) (by decide +kernel) (by decide +kernel) (by decide +kernel) (by decide +kernel) (by decide +kernel) (by decide +kernel) (by decide +kernel) (by decide +kernel) (by decide +kernel)).1 0x0D (.inl ⟨rfl, rfl⟩) (by decide +kernel) (by decide +kernel) (by decide +kernel) (by decide +kernel)) ∧
    Shown ((h.2.2.1 (porter11 { reading := true, mover := true } (got11 (ans11 4 0xFFFF 0 false (wordsToBytes (desc11 0 128))) (ch 0x8000000C 0x81 0 65535 []))) 0xF2F (ans11 4 0xFFFF 0 false (wordsToBytes (desc11 0 128))) { reading := true, mover := true } (by decide +kernel) (by decide +kernel) (by decide +kernel) (by decide +kernel) (by decide +kernel) (by decide +kernel) (by decide +kernel) (by decide +kernel) (by decide +kernel) (by decide +kernel)).2 (desc11 0 128) (by decide +kernel) (by decide +kernel) (by decide +kernel) (by decide +kernel) (by decide +kernel) (by decide +kernel) (by decide +kernel) (by decide +kernel) (by decide +kernel) (by decide +kernel) (by decide +kernel) (by decide +kernel) (by decide +kernel) (by decide +kernel) (by decide +kernel) (by decide +kernel) (by decide +kernel) (by decide +kernel) (by decide +kernel) (by decide +kernel)) ∧
    Shown (((h.2.2.2.1 (porter11 (mid11 .reading) (got11 (ans11 4 0xFEFF 0 false data11) (ch 0x8000000C 0x81 0 65535 []))) 0xF2F (ans11 4 0xFEFF 0 false data11) (mid11 .reading) (beat11 .reading) (desc11 0 128) (by decide +kernel) (by decide +kernel) (by decide +kernel) (by decide +kernel) (by decide +kernel) (by decide +kernel) (by decide +kernel) (by decide +kernel) (by decide +kernel) (by decide +kernel) (by decide +kernel) (by decide +kernel)).1 (by decide +kernel) (by decide +kernel)).1 (by decide +kernel) (by decide +kernel) (by decide +kernel) (by decide +kernel) (by decide +kernel) (by decide +kernel) (by decide +kernel) (by decide +kernel) (by decide +kernel) (by decide +kernel) (by decide +kernel) (by decide +kernel) (by decide +kernel)) ∧
    Shown (((h.2.2.2.1 (porter11 (mid11 .reading) (got11 (ans11 4 0xFEFF 0 true data11) (ch 0x8000000C 0x81 0 65535 []))) 0xF2F (ans11 4 0xFEFF 0 true data11) (mid11 .reading) (beat11 .reading) (desc11 0 128) (by decide +kernel) (by decide +kernel) (by decide +kernel) (by decide +kernel) (by decide +kernel) (by decide +kernel) (by decide +kernel) (by decide +kernel) (by decide +kernel) (by decide +kernel) (by decide +kernel) (by decide +kernel)).1 (by decide +kernel) (by decide +kernel)).2 (by decide +kernel)) ∧
    Shown (((h.2.2.2.1 (porter11 (mid11 .writing) (got11 (ans11 5 0xFEFF 0 false []) (ch 0x8000000C 0x81 0 65535 []))) 0xF2F (ans11 5 0xFEFF 0 false []) (mid11 .writing) (beat11 .writing) (desc11 0 128) (by decide +kernel) (by decide +kernel) (by decide +kernel) (by decide +kernel) (by decide +kernel) (by decide +kernel) (by decide +kernel) (by decide +kernel) (by decide +kernel) (by decide +kernel) (by decide +kernel) (by decide +kernel)).2 (by decide +kernel) (by decide +kernel)).1 (by decide +kernel) (by decide +kernel)) ∧
    Shown (((h.2.2.2.1 (porter11 (mid11 .writing) (got11 (ans11 5 0xFEFF 0xE false []) (ch 0x8000000C 0x81 0 65535 []))) 0xF2F (ans11 5 0xFEFF 0xE false []) (mid11 .writing) (beat11 .writing) (desc11 0 128) (by decide +kernel) (by decide +kernel) (by decide +kernel) (by decide +kernel) (by decide +kernel) (by decide +kernel) (by decide +kernel) (by decide +kernel) (by decide +kernel) (by decide +kernel) (by decide +kernel) (by decide +kernel)).2 (by decide +kernel) (by decide +kernel)).2 (by decide +kernel) (by decide +kernel)) ∧
    Shown ((h.2.2.2.2.1 (porter11 done11 (ch 0x8000000C 0x81 0 65535 [])) 0xF2F done11 (desc11 0 128) (by decide +kernel) (by decide +kernel) (by decide +kernel) (by decide +kernel) (by decide +kernel) (by decide +kernel) (by decide +kernel) (by decide +kernel) (by decide +kernel)).1 (by decide +kernel) (by decide +kernel) (by decide +kernel) (by decide +kernel) (by decide +kernel)) ∧
    Shown ((h.2.2.2.2.1 (porter11 done11 (running11 (ch 0x8000070C 0x81 0 65535 [(ptrBlk 0xF2F + 0x18, 0xFFFFFFF0), (ptrBlk 0xF2F + 0x1C, 0x801001BF), (ptrBlk 0xF2F + 0x20, 0xFFFFFFFF)]))) 0xF2F done11 (desc11 0 128) (by decide +kernel) (by decide +kernel) (by decide +kernel) (by decide +kernel) (by decide +kernel) (by decide +kernel) (by decide +kernel) (by decide +kernel) (by decide +kernel)).2.1 (by decide +kernel) (by decide +kernel) (by decide +kernel) (by decide +kernel) (by decide +kernel) (by decide +kernel) (by decide +kernel) (by decide +kernel) (by decide +kernel) (by decide +kernel)) ∧
    Shown ((h.2.2.2.2.1 (all (porter11 { done11 with stop := some 0x20 } (ch 0x8000000C 0x81 0 65535 []))) 0xF2F { done11 with stop := some 0x20 } (desc11 0 128) (by decide +kernel) (by decide +kernel) (by decide +kernel) (by decide +kernel) (by decide +kernel) (by decide +kernel) (by decide +kernel) (by decide +kernel) (by decide +kernel)).2.2 0x20 (by decide +kernel) (.tail _ (.tail _ (.head _))) (by decide +kernel) (by decide +kernel) (by decide +kernel)) ∧
    Shown (h.2.2.2.2.2.1 (porter11 { recording := true, mover := true } (got11 (ans11 5 0xFFFE 0 false []) (ch 0x8000000C 0x81 0 65535 []))) 0xF2F (ans11 5 0xFFFE 0 false []) { recording := true, mover := true } (by decide +kernel) (by decide +kernel) (by decide +kernel) (by decide +kernel) (by decide +kernel) (by decide +kernel) (by decide +kernel) (by decide +kernel) (by decide +kernel) (by decide +kernel) (by decide +kernel) (by decide +kernel) (by decide +kernel)) ∧
    Shown ((h.2.2.2.2.2.2 (porter11 { done11 with stop := some 256, failAt := 4224, xfault := some (2, true, 0x7FFFFFFFFF) } (ch 0x8000000C 0x81 1 0 [])) 0xF2F { done11 with stop := some 256, failAt := 4224, xfault := some (2, true, 0x7FFFFFFFFF) } (by decide +kernel) (by decide +kernel) (by decide +kernel) (by decide +kernel) (by decide +kernel) (by decide +kernel)).1 2 0x7FFFFFFFFF true (by decide +kernel) (by decide +kernel) (by decide +kernel) (by decide +kernel)) ∧
    Shown ((h.2.2.2.2.2.2 (porter11 { done11 with stop := some 257 } (ch 0x8000000C 0x81 1 0 [])) 0xF2F { done11 with stop := some 257 } (by decide +kernel) (by decide +kernel) (by decide +kernel) (by decide +kernel) (by decide +kernel) (by decide +kernel)).2 (by decide +kernel)) :=
  ⟨shown _, shown _, shown _, shown _, shown _, shown _, shown _, shown _, shown _, shown _, shown _, shown _, shown _, shown _, shown _, shown _, shown _, shown _, shown _⟩

theorem test_meets_ChannelsStopUnitsCloseAndWalksEnd (h : Obligations.ChannelsStopUnitsCloseAndWalksEnd) :
    Shown (((h.1 (porter11 { done11 with mover := false } (ch 0x8000000C 0x83 1 0 [])) 0xF2F .warden (by decide +kernel) (by decide +kernel) (by decide +kernel) (by decide +kernel) (by decide +kernel) (by decide +kernel)).1 (by decide +kernel)).1) ∧
    Shown ((((h.1 (porter11 { done11 with mover := false } (ch 0x8000000C 0x83 0 65535 [])) 0xF2F .warden (by decide +kernel) (by decide +kernel) (by decide +kernel) (by decide +kernel) (by decide +kernel) (by decide +kernel)).1 (by decide +kernel)).2 (desc11 0 128) (by decide +kernel) (by decide +kernel) (by decide +kernel) (by decide +kernel) (by decide +kernel)).1) ∧
    Shown ((((h.1 (porter11 { done11 with mover := false } (ch 0x8000000C 0x83 1 65535 [])) 0xF2F .warden (by decide +kernel) (by decide +kernel) (by decide +kernel) (by decide +kernel) (by decide +kernel) (by decide +kernel)).1 (by decide +kernel)).2 (desc11 0 128) (by decide +kernel) (by decide +kernel) (by decide +kernel) (by decide +kernel) (by decide +kernel)).2) ∧
    Shown ((h.1 (porter11 (mid11 .reading) (ch 0x8000000C 0x81 1 0 [])) 0xF2F (.host 0) (by decide +kernel) (by decide +kernel) (by decide +kernel) (by decide +kernel) (by decide +kernel) (by decide +kernel)).2.1 (by decide +kernel) (by decide +kernel)) ∧
    Shown ((h.1 (ch 0x8000000C 0x84 1 0 []) 0xF2F (.host 0) (by decide +kernel) (by decide +kernel) (by decide +kernel) (by decide +kernel) (by decide +kernel) (by decide +kernel)).2.2.1 (by decide +kernel)) ∧
    Shown ((h.1 (ch 0x8000000C 0x80 0 0 []) 0xF2F (.host 0) (by decide +kernel) (by decide +kernel) (by decide +kernel) (by decide +kernel) (by decide +kernel) (by decide +kernel)).2.2.2 (by decide +kernel)) ∧
    Shown ((h.2.1 (ch 0 0x85 0 0 []) 0xF2F (.host 0) 0x83FF070C (by decide +kernel) (by decide +kernel) (by decide +kernel) (by decide +kernel) (by decide +kernel)).1 (by decide +kernel) (by decide +kernel) (by decide +kernel) (by decide +kernel) (by decide +kernel) (by decide +kernel) (by decide +kernel) (by decide +kernel)) ∧
    Shown ((h.2.1 (ch 0x8000000C 0x80 0 0 []) 0xF2F (.host 0) 0x8300000C (by decide +kernel) (by decide +kernel) (by decide +kernel) (by decide +kernel) (by decide +kernel)).2.1 (by decide +kernel) (by decide +kernel) (by decide +kernel)) ∧
    Shown ((h.2.1 (on ((upto 8).map (fun i => (ptrBlk (0xF10 + i), 0x40000000))) (ch 0 0x85 0 0 [])) 0xF2F (.host 0) 0x40000000 (by decide +kernel) (by decide +kernel) (by decide +kernel) (by decide +kernel) (by decide +kernel)).2.2.1 (by decide +kernel) (by decide +kernel) (by decide +kernel) (by decide +kernel) (by decide +kernel)) ∧
    Shown (((h.2.1 (ch 0x8000000C 0x83 0 0 []) 0xF2F (.host 0) 0xC (by decide +kernel) (by decide +kernel) (by decide +kernel) (by decide +kernel) (by decide +kernel)).2.2.2 (by decide +kernel) (by decide +kernel) (by decide +kernel) (by decide +kernel)).1 (.inr (.inl rfl))) ∧
    Shown (((h.2.1 (ch 0x8000000C 0x81 0 0 []) 0xF2F (.host 0) 0xC (by decide +kernel) (by decide +kernel) (by decide +kernel) (by decide +kernel) (by decide +kernel)).2.2.2 (by decide +kernel) (by decide +kernel) (by decide +kernel) (by decide +kernel)).2 (by decide +kernel)) ∧
    Shown (((h.2.2.1 (got11 (unit11 0x0FFF0 256) (ch recv11 0x80 0 0 [])) 0xF2F {} (by decide +kernel) (by decide +kernel) (by decide +kernel) (by decide +kernel)).1 (unit11 0x0FFF0 256) (by decide +kernel) (by decide +kernel) (by decide +kernel) (by decide +kernel) (by decide +kernel) (by decide +kernel) (by decide +kernel) (by decide +kernel) (by decide +kernel) (by decide +kernel) (by decide +kernel)).1 (by decide +kernel) (by decide +kernel)) ∧
    Shown (((h.2.2.1 (porter11 { desc := some (rdesc11 65536) } (got11 (unit11 0x1FF00 256) (ch recv11 0x80 1 0 []))) 0xF2F { desc := some (rdesc11 65536) } (by decide +kernel) (by decide +kernel) (by decide +kernel) (by decide +kernel)).1 (unit11 0x1FF00 256) (by decide +kernel) (by decide +kernel) (by decide +kernel) (by decide +kernel) (by decide +kernel) (by decide +kernel) (by decide +kernel) (by decide +kernel) (by decide +kernel) (by decide +kernel) (by decide +kernel)).2 (rdesc11 65536) (by decide +kernel) (by decide +kernel) (by decide +kernel) (by decide +kernel) (by decide +kernel) (by decide +kernel) (by decide +kernel) (by decide +kernel) (by decide +kernel) (by decide +kernel) (by decide +kernel) (by decide +kernel) (by decide +kernel) (by decide +kernel) (by decide +kernel)) ∧
    Shown (((h.2.2.1 (porter11 open11 (ch recv11 0x181 1 0 [])) 0xF2F open11 (by decide +kernel) (by decide +kernel) (by decide +kernel) (by decide +kernel)).2.1 (by decide +kernel) (by decide +kernel) (by decide +kernel) (by decide +kernel)).1 .warden (by decide +kernel) (by decide +kernel)) ∧
    Shown (((h.2.2.1 (porter11 open11 (on [(clkBlk 2, 0)] (ch recv11 0x181 1 0 []))) 0xF2F open11 (by decide +kernel) (by decide +kernel) (by decide +kernel) (by decide +kernel)).2.1 (by decide +kernel) (by decide +kernel) (by decide +kernel) (by decide +kernel)).2 0x21F (by decide +kernel) (by decide +kernel)) ∧
    Shown ((h.2.2.1 (porter11 { open11 with beats := [], last := true, stop := some unitClosed, failAt := 300 } (ch recv11 0x181 0 65535 [])) 0xF2F { open11 with beats := [], last := true, stop := some unitClosed, failAt := 300 } (by decide +kernel) (by decide +kernel) (by decide +kernel) (by decide +kernel)).2.2 (rdesc11 65536) (by decide +kernel) (by decide +kernel) (by decide +kernel) (by decide +kernel) (by decide +kernel) (by decide +kernel) (by decide +kernel) (by decide +kernel) (by decide +kernel) (by decide +kernel)) ∧
    Shown ((h.2.2.2.1 (walking (walk11 1 0 0x7FFFFFFF true) 0x1FFFFE0000D grid) 7 0x1FFFFE0000D { op := 4, vc := 1, dst := 0xF00, src := 0xF01, tag := 0, addr := 0, len := 8, data := toBytes 8 0x1FFFFE0000D } (walk11 1 0 0x7FFFFFFF true) (by decide +kernel) (by decide +kernel) (by decide +kernel) (by decide +kernel) (by decide +kernel) (by decide +kernel) (by decide +kernel) (by decide +kernel) (by decide +kernel) (by decide +kernel) (by decide +kernel) (by decide +kernel)).1 12 0x1FFFFE00000 0x1FFFFFFFFF8 (by decide +kernel) (by decide +kernel) (by decide +kernel) (by decide +kernel) (by decide +kernel) (by decide +kernel) (by decide +kernel) (by decide +kernel) (by decide +kernel)) ∧
    Shown ((h.2.2.2.1 (walking (walk11 2 21 0x7FFFFFFF true) 0x1FFFFE00003 grid) 7 0x1FFFFE00003 { op := 4, vc := 1, dst := 0xF00, src := 0xF01, tag := 0, addr := 0, len := 8, data := toBytes 8 0x1FFFFE00003 } (walk11 2 21 0x7FFFFFFF true) (by decide +kernel) (by decide +kernel) (by decide +kernel) (by decide +kernel) (by decide +kernel) (by decide +kernel) (by decide +kernel) (by decide +kernel) (by decide +kernel) (by decide +kernel) (by decide +kernel) (by decide +kernel)).2.1 21 0x1FFFFE00000 4095 true (by decide +kernel) (by decide +kernel) (by decide +kernel) (by decide +kernel) (by decide +kernel) (by decide +kernel) (by decide +kernel)) ∧
    Shown ((h.2.2.2.1 (walking (walk11 1 0 0x7FFFFFFF true) 0x1FFFFE0000C (on [(xltBlk 7 + 0xC, 65535)] grid)) 7 0x1FFFFE0000C { op := 4, vc := 1, dst := 0xF00, src := 0xF01, tag := 0, addr := 0, len := 8, data := toBytes 8 0x1FFFFE0000C } (walk11 1 0 0x7FFFFFFF true) (by decide +kernel) (by decide +kernel) (by decide +kernel) (by decide +kernel) (by decide +kernel) (by decide +kernel) (by decide +kernel) (by decide +kernel) (by decide +kernel) (by decide +kernel) (by decide +kernel) (by decide +kernel)).2.2 4095 (by decide +kernel) (by decide +kernel) (by decide +kernel) (by decide +kernel) (by decide +kernel)) ∧
    Shown (((h.2.2.2.2 (on [(xltBlk 7 + 8, 0x7FFFFFF)] grid) 7 (.host 0) 0x800000FF (by decide +kernel)).1 (by decide +kernel) (by decide +kernel)).1 (by decide +kernel) (by decide +kernel)) ∧
    Shown (((h.2.2.2.2 (on [(xltBlk 7, 1)] grid) 7 (.host 0) 0x400000FF (by decide +kernel)).1 (by decide +kernel) (by decide +kernel)).2 (.inl rfl)) ∧
    Shown (((h.2.2.2.2 { on [(xltBlk 7, 1)] grid with xlt := { tlb := [(7, [tlb11 5 0x200000 21, tlb11 6 0x200000 21, tlb11 5 0x3FF000 12])], inval := [(7, some (0, 5, 0x3FF000, [3]))] } } 7 .warden 0 (by decide +kernel)).2 0 5 0x3FF000 [3] (by decide +kernel)).1 (by decide +kernel)) ∧
    Shown (((h.2.2.2.2 { on [(xltBlk 7, 1)] grid with xlt := { walks := [walk11 1 0 5 false], inval := [(7, some (0, 5, 0x3FF000, [65536]))] } } 7 .warden 0 (by decide +kernel)).2 0 5 0x3FF000 [65536] (by decide +kernel)).2 (by decide +kernel)) :=
  ⟨shown _, shown _, shown _, shown _, shown _, shown _, shown _, shown _, shown _, shown _, shown _, shown _, shown _, shown _, shown _, shown _, shown _, shown _, shown _, shown _, shown _, shown _, shown _⟩

end C11

namespace C12

/-- G7 in RUN with C15 in a state, configured as two ranks of 16 Gb x4 devices with write CRC and parity, mapped at 64 GiB. -/
def chan12 (st : Nat) (s : State) : State :=
  on [(clkBlk 15 + 0x18, 0x30), (memBlk 15, word st), (memBlk 15 + 4, word (0xC0D40000 + 36)), (memBlk 14 + 8, word (36 * 256)), (memBlk 15 + 8, word (36 * 256))] s
def free12 (st : Nat) (s : State) : State := on [(memBlk 14 + 8, 0), (memBlk 15 + 8, 0)] (chan12 st s)
/-- C14 in READY, alone, mapped at 64 GiB. -/
def even12 (s : State) : State := on [(clkBlk 15 + 0x18, 0x30), (memBlk 14, 0x93), (memBlk 14 + 8, 36), (memBlk 15 + 8, 36)] s
def with12 (x : Channel) (s : State) : State := setChan 15 x s
def flow12 (c : Nat) (s : State) : State :=
  { s with bough := { s.bough with contracts := [(5, { state := .opened, terms := [word (0x427 + 65536 * chanStation c), 0, 0, 0, 0, 0, 0, 0, 0, 0, 0, 0] })] } }
/-- An SPD image: 16 Gb x4 devices, two ranks, RDIMM, 625 ps. -/
def spdBytes (a b c d : Nat) : List Nat :=
  [0x23, 0x11, 0x0C, 1, 6, 0x22, 0, 0, 0, 0, 0, 0, 8, 0, 0, 0, 0, 0, 5] ++ List.replicate 107 0 ++ [a, b] ++ List.replicate 126 0 ++ [c, d] ++ List.replicate 256 0
def spd12 : List Word := bytesToWords ((spdBytes 0xBE 0x6C 0 0).map (BitVec.ofNat 8 ·))
/-- The same with x16 devices, and with a stack of eight on each of two ranks. -/
def spdX16 : List Word := bytesToWords (((spdBytes 0 0 0 0).set 12 0x0A).map (BitVec.ofNat 8 ·))
def withCrc (l : List Word) : List Word := let c := spdCrc l 0 126; l.set 31 (word (fld (l.getD 31 0) 15 0 + c * 65536))
def line12 : Nat := 0x3FFFFFFF
def acc12 (op len : Nat) : Access := { id := 4, left := 1, pkt := { op := op, vc := 2, dst := 0xF02, src := 0xF4F, tag := 9, addr := 0x1FFFFFFFFC0, len := len } }
def ent12 (w : Bool) (off len : Nat) : DramEntry := { line := line12, acc := 4, off := off, len := len, write := w, data := if w then (upto len).map (fun i => BitVec.ofNat 8 (i + 1)) else [] }
def bytes12 : List Byte := (upto 64).map (fun i => BitVec.ofNat 8 (255 - i))
def cells12 (l : List (List Nat)) (s : State) : State :=
  { s with dram := { s.dram with cells := (upto 4).map (fun k => (cellKey 15 line12 k, l.getD k [])) } }
def good12 : List (List Nat) := (upto 4).map (fun k => encodeCw false ((bytes12.drop (16 * k)).take 16))
def served12 (w : Bool) (op off len : Nat) (l : List (List Nat)) : State :=
  let s := cells12 l (with12 { queue := [ent12 w off len] } (chan12 0x93 up))
  { s with dram := { s.dram with accesses := [acc12 op len] } }
def bank12 : Nat := bankKey (chan12 0x93 up) 15 line12
def zero12 : List Nat := encodeCw false (List.replicate 16 0)
def row12 (a : Nat) : DramEntry := { line := a, acc := 1, off := 0, len := 64, write := false }
def home12 : HomeReq := { home := 7, pkt := { op := 2, vc := 2, dst := 0xF02, src := 0xF4F, tag := 3, addr := 0x1C000000FC0, len := 64, data := bytes12 } }
def ask12 (x : Channel) (s : State) : State := { with12 x (chan12 0x93 s) with rmc := { s.rmc with homeReqs := [home12] } }
def rt12 : Packet := { op := 3, vc := 0, dst := 0xF02, src := 0x104, addr := 0x1C000000FC0, len := 64, data := bytes12 }
def drain12 : State :=
  let s := with12 { rt := [{ ent12 true 0 64 with data := bytes12 }] } (on [(memBlk 15 + 0xC, 0x1000001)] (chan12 0x93 up))
  { s with dram := { s.dram with accesses := [acc12 3 64] } }
def train12 (x : Channel) : State := with12 x (during 3 0x0703 (free12 0x92 (all up)))
def trained12 : Taken := { going 3 0x0703 with args := [15] }
def job12 (x : Channel) : State := { with12 x (free12 0x92 (all up)) with ward := { (all up).ward with taken := [trained12] } }

theorem test_meets_CodeCorrectsEverySingleSymbolError (h : Obligations.CodeCorrectsEverySingleSymbolError) :
    Shown (h.1 false (bytes12.take 16) (by decide +kernel)) ∧
    Shown ((h.1 true (bytes12.drop 48) (by decide +kernel)).2.2.2 17 255 (by decide +kernel) (by decide +kernel) (by decide +kernel)) ∧
    Shown ((h.1 false (bytes12.take 16) (by decide +kernel)).2.2.2 3 5 (by decide +kernel) (by decide +kernel) (by decide +kernel)) ∧
    Shown (h.2 true) :=
  ⟨shown _, shown _, shown _, shown _⟩

theorem test_meets_ChannelsAreConfiguredTrainedAndManaged (h : Obligations.ChannelsAreConfiguredTrainedAndManaged) :
    Shown ((h.1 (cmd 63 0x0701 [15] (chan12 0x95 up)) 63 15 [15] (by decide +kernel) (by decide +kernel) (by decide +kernel)).1 (by decide +kernel)) ∧
    Shown ((h.1 (cmd 63 0x0706 [15, 1] (on [(memBlk 15 + 0x18, 0x80000010), (memBlk 15 + 0x1FC, 7), (memBlk 15 + 0x100, 9)] (chan12 0x93 up))) 63 15 [15, 1] (by decide +kernel) (by decide +kernel) (by decide +kernel)).2.1 (by decide +kernel)) ∧
    Shown ((h.1 (cmd 63 0x0705 [15, 1, 168] (on [(memBlk 15 + 0x14, 7)] (chan12 0x94 up))) 63 15 [15, 1, 168] (by decide +kernel) (by decide +kernel) (by decide +kernel)).2.2.1 1 168 (by decide +kernel) (by decide +kernel) (by decide +kernel) (by decide +kernel) (by decide +kernel) (by decide +kernel) (.inr rfl)) ∧
    Shown (((h.1 (cmd 63 0x0703 [15, 0] (free12 0x95 up)) 63 15 [15, 0] (by decide +kernel) (by decide +kernel) (by decide +kernel)).2.2.2.1 (by decide +kernel) (.inr rfl)).1 (.inl (by decide +kernel))) ∧
    Shown (((h.1 (cmd 63 0x0703 [14, 0] (on [(memBlk 15, 0x93), (memBlk 14 + 4, 36), (memBlk 14, 0x91), (memBlk 14 + 8, 36 * 256)] (chan12 0x93 up))) 63 14 [14, 0] (by decide +kernel) (by decide +kernel) (by decide +kernel)).2.2.2.1 (by decide +kernel) (.inl rfl)).2 (by decide +kernel) (by decide +kernel)) ∧
    Shown (((h.1 (cmd 63 0x0707 [15] (cells12 good12 (chan12 0x93 up))) 63 15 [15] (by decide +kernel) (by decide +kernel) (by decide +kernel)).2.2.2.2 (by decide +kernel) (.inr (.inl rfl))).1 (by decide +kernel) (by decide +kernel)) ∧
    Shown (((h.1 (cmd 63 0x0707 [15] (flow12 15 (chan12 0x93 up))) 63 15 [15] (by decide +kernel) (by decide +kernel) (by decide +kernel)).2.2.2.2 (by decide +kernel) (.inr (.inl rfl))).2 (by decide +kernel)) ∧
    Shown ((h.2.1 (cmd 63 0x0702 ([0xF030F, 0, 0, 0] ++ spdX16) (free12 0x95 up)) 63 15 ([0xF030F, 0, 0, 0] ++ spdX16) (by decide +kernel) (by decide +kernel) (by decide +kernel) (by decide +kernel) (by decide +kernel) (by decide +kernel) (.tail _ (.tail _ (.head _)))).1 (by decide +kernel)) ∧
    Shown ((h.2.1 (cmd 63 0x0702 ([0xF030F, 0, 0, 0] ++ withCrc spdX16) (free12 0x95 up)) 63 15 ([0xF030F, 0, 0, 0] ++ withCrc spdX16) (by decide +kernel) (by decide +kernel) (by decide +kernel) (by decide +kernel) (by decide +kernel) (by decide +kernel) (.tail _ (.tail _ (.head _)))).2.1 (by decide +kernel) (by decide +kernel)) ∧
    Shown (((h.2.1 (cmd 63 0x0702 ([0xE030F, 0, 0, 0] ++ withCrc spd12) (free12 0x90 up)) 63 15 ([0xE030F, 0, 0, 0] ++ withCrc spd12) (by decide +kernel) (by decide +kernel) (by decide +kernel) (by decide +kernel) (by decide +kernel) (by decide +kernel) (.head _)).2.2 { x8 := false, type := 1, rows := 18, pranks := 2, lranks := 2, speed := 3 } (by decide +kernel) (by decide +kernel)).2 (by decide +kernel) (by decide +kernel)) ∧
    Shown ((h.2.2.1 (cmd 63 0x0704 [7, 0, 0xFFFFFFC0, 0x1CF, 64, 0, 5, 6] (even12 up)) 63 7 0xFFFFFFFC0 64 [7, 0, 0xFFFFFFC0, 0x1CF, 64, 0, 5, 6] (by decide +kernel) (by decide +kernel) (by decide +kernel) (by decide +kernel) (by decide +kernel) (by decide +kernel) (by decide +kernel) (by decide +kernel) (by decide +kernel)).1 (by decide +kernel) (by decide +kernel) (by decide +kernel) (by decide +kernel) |>.1 (by decide +kernel) (by decide +kernel)) ∧
    Shown (((h.2.2.1 (cmd 63 0x0704 [7, 0, 0xFFFFFFC0, 0x1CF, 64, 0, 5, 6] (setChan 14 { fill := some { next := 0, last := 9, pattern := 0 } } (even12 up))) 63 7 0xFFFFFFFC0 64 [7, 0, 0xFFFFFFC0, 0x1CF, 64, 0, 5, 6] (by decide +kernel) (by decide +kernel) (by decide +kernel) (by decide +kernel) (by decide +kernel) (by decide +kernel) (by decide +kernel) (by decide +kernel) (by decide +kernel)).1 (by decide +kernel) (by decide +kernel) (by decide +kernel) (by decide +kernel)).2.1 (by decide +kernel)) ∧
    Shown (((h.2.2.1 (cmd 63 0x0704 [7, 0, 0xFFFFFFC0, 0x1CF, 64, 0, 5, 6] (flow12 14 (even12 up))) 63 7 0xFFFFFFFC0 64 [7, 0, 0xFFFFFFC0, 0x1CF, 64, 0, 5, 6] (by decide +kernel) (by decide +kernel) (by decide +kernel) (by decide +kernel) (by decide +kernel) (by decide +kernel) (by decide +kernel) (by decide +kernel) (by decide +kernel)).1 (by decide +kernel) (by decide +kernel) (by decide +kernel) (by decide +kernel)).2.2 (by decide +kernel) (by decide +kernel)) ∧
    Shown ((h.2.2.1 (cmd 63 0x0704 [7, 0, 0, 0x1D0, 64, 0, 5, 6] (even12 up)) 63 7 0x1000000000 64 [7, 0, 0, 0x1D0, 64, 0, 5, 6] (by decide +kernel) (by decide +kernel) (by decide +kernel) (by decide +kernel) (by decide +kernel) (by decide +kernel) (by decide +kernel) (by decide +kernel) (by decide +kernel)).2 (by decide +kernel) (by decide +kernel) (by decide +kernel)) ∧
    Shown ((h.2.2.2.1 (job12 {}) 15 1 0 ((upto 18).map word) trained12 (by decide +kernel) (by decide +kernel) (by decide +kernel) (by decide +kernel) (by decide +kernel) (by decide +kernel) (by decide +kernel)).1 (by decide +kernel) |>.1 (by decide +kernel)) ∧
    Shown (((h.2.2.2.1 (job12 {}) 15 1 0 ((upto 18).map word) trained12 (by decide +kernel) (by decide +kernel) (by decide +kernel) (by decide +kernel) (by decide +kernel) (by decide +kernel) (by decide +kernel)).1 (by decide +kernel)).2) ∧
    Shown (((h.2.2.2.1 (job12 {}) 15 7 3 [] trained12 (by decide +kernel) (by decide +kernel) (by decide +kernel) (by decide +kernel) (by decide +kernel) (by decide +kernel) (by decide +kernel)).2 (.trainingDone 15 false 7 3 []) (.head _)).1 (by decide +kernel)) ∧
    Shown (((h.2.2.2.1 (job12 {}) 15 7 3 [] trained12 (by decide +kernel) (by decide +kernel) (by decide +kernel) (by decide +kernel) (by decide +kernel) (by decide +kernel) (by decide +kernel)).2 (.trainingPhaseTimeout 15 7 3) (.tail _ (.head _))).2) ∧
    Shown (h.2.2.2.2.1 (with12 { inService := true, alerts := [0, 0], alertKinds := 3 } (on [(memBlk 15 + 0x444, 0x12345678)] (chan12 0x92 (all up)))) 15 ((upto 18).map word) (by decide +kernel) (by decide +kernel) (by decide +kernel) (by decide +kernel) (by decide +kernel) (by decide +kernel)) ∧
    Shown ((h.2.2.2.2.2.1 (cells12 good12 (on [(clkBlk 15 + 0x10, 0)] (with12 { rows := [(5, some 4)] } (chan12 0x93 up)))) 15 0 [] (by decide +kernel)).1 (by decide +kernel) (by decide +kernel) (by decide +kernel) (by decide +kernel) (by decide +kernel) (by decide +kernel)) ∧
    Shown (((h.2.2.2.2.2.1 (on [(memBlk 15 + 0x444, 0x12345678)] (chan12 0x94 up)) 15 0 ((upto 18).map word) (by decide +kernel)).2 (by decide +kernel) (by decide +kernel) (by decide +kernel) (by decide +kernel)).1) ∧
    Shown (((h.2.2.2.2.2.1 (chan12 0x94 up) 15 3 [] (by decide +kernel)).2 (by decide +kernel) (by decide +kernel) (by decide +kernel) (by decide +kernel)).2 (by decide +kernel)) ∧
    Shown (h.2.2.2.2.2.2.1 (with12 { fill := some { next := 5, last := 9, pattern := 0, written := 5, aborted := true } } (on [(memBlk 15, 0x400093)] (all up))) 15 { next := 5, last := 9, pattern := 0, written := 5, aborted := true } (by decide +kernel) (by decide +kernel) (by decide +kernel) (.inl rfl)) ∧
    Shown ((h.2.2.2.2.2.2.2 (on [(memBlk 15 + 0x18, 0x80000010), (memBlk 15 + 0x1FC, 7), (memBlk 15 + 0x100, 9)] (chan12 0x93 up)) 15 (.host 0) (by decide +kernel) (by decide +kernel)).1 (.inr rfl)) ∧
    Shown ((h.2.2.2.2.2.2.2 (chan12 0x93 up) 15 (.station 0xF04) (by decide +kernel) (by decide +kernel)).2 (by decide +kernel) (by decide +kernel)) :=
  ⟨shown _, shown _, shown _, shown _, shown _, shown _, shown _, shown _, shown _, shown _, shown _, shown _, shown _, shown _, shown _, shown _, shown _, shown _, shown _, shown _, shown _, shown _, shown _, shown _, shown _⟩

theorem test_meets_DramServesItsQueueAndKeepsItsCode (h : Obligations.DramServesItsQueueAndKeepsItsCode) :
    Shown ((h.1 (ask12 { queue := List.replicate 127 (row12 5 ) ++ List.replicate 127 { row12 5 with write := true } } up) 15 home12 (by decide +kernel) (by decide +kernel) (by decide +kernel) (by decide +kernel) (by decide +kernel) (by decide +kernel) (by decide +kernel) (by decide +kernel)).1 (by decide +kernel)) ∧
    Shown ((h.1 (ask12 { queue := List.replicate 128 { row12 5 with write := true } } up) 15 home12 (by decide +kernel) (by decide +kernel) (by decide +kernel) (by decide +kernel) (by decide +kernel) (by decide +kernel) (by decide +kernel) (by decide +kernel)).2 (by decide +kernel)) ∧
    Shown ((h.2.1 (with12 { queue := [ent12 true 0 64] } (chan12 0x93 up)) 15 bank12 (ent12 true 0 64) (row12 0) (by decide +kernel) (by decide +kernel) (by decide +kernel) (by decide +kernel) (by decide +kernel) (by decide +kernel)).1 (by decide +kernel)) ∧
    Shown ((h.2.1 (with12 { queue := [row12 0, row12 line12], rows := [(bank12, some (rowOf (chan12 0x93 up) 15 line12))], hits := [(bank12, 15)] } (chan12 0x93 up)) 15 bank12 (row12 line12) (row12 (2 ^ 29 + 2 ^ 10 * 3)) (by decide +kernel) (by decide +kernel) (by decide +kernel) (by decide +kernel) (by decide +kernel) (by decide +kernel)).2) ∧
    Shown (((h.2.2.1 (served12 true 3 16 48 good12) 15 bank12 (ent12 true 16 48) (acc12 3 48) (by decide +kernel) (by decide +kernel) (by decide +kernel) (by decide +kernel) (by decide +kernel) (by decide +kernel) (by decide +kernel) (by decide +kernel) (by decide +kernel) (by decide +kernel) (by decide +kernel) (by decide +kernel) (by decide +kernel) (by decide +kernel)).1 (by decide +kernel) (by decide +kernel) (by decide +kernel)).1 (.inr (by decide +kernel))) ∧
    Shown (((h.2.2.1 (served12 true 3 60 4 good12) 15 bank12 (ent12 true 60 4) (acc12 3 4) (by decide +kernel) (by decide +kernel) (by decide +kernel) (by decide +kernel) (by decide +kernel) (by decide +kernel) (by decide +kernel) (by decide +kernel) (by decide +kernel) (by decide +kernel) (by decide +kernel) (by decide +kernel) (by decide +kernel) (by decide +kernel)).1 (by decide +kernel) (by decide +kernel) (by decide +kernel)).2.1 bytes12 3 (by decide +kernel) (by decide +kernel) (by decide +kernel) (by decide +kernel) (by decide +kernel) (by decide +kernel) (by decide +kernel)) ∧
    Shown (((h.2.2.1 (served12 true 3 60 4 [zero12, zero12, zero12, markerCw false]) 15 bank12 (ent12 true 60 4) (acc12 3 4) (by decide +kernel) (by decide +kernel) (by decide +kernel) (by decide +kernel) (by decide +kernel) (by decide +kernel) (by decide +kernel) (by decide +kernel) (by decide +kernel) (by decide +kernel) (by decide +kernel) (by decide +kernel) (by decide +kernel) (by decide +kernel)).1 (by decide +kernel) (by decide +kernel) (by decide +kernel)).2.2 3 (by decide +kernel) (by decide +kernel) (by decide +kernel) (by decide +kernel)) ∧
    Shown ((((h.2.2.1 (served12 false 1 60 4 good12) 15 bank12 (ent12 false 60 4) (acc12 1 4) (by decide +kernel) (by decide +kernel) (by decide +kernel) (by decide +kernel) (by decide +kernel) (by decide +kernel) (by decide +kernel) (by decide +kernel) (by decide +kernel) (by decide +kernel) (by decide +kernel) (by decide +kernel) (by decide +kernel) (by decide +kernel)).2 (by decide +kernel) (by decide +kernel) (by decide +kernel) (by decide +kernel) (by decide +kernel)).1 bytes12 (by decide +kernel)).1 (by decide +kernel)) ∧
    Shown ((((h.2.2.1 (served12 false 1 0 64 (good12.set 3 ((good12.getD 3 []).set 17 ((good12.getD 3 []).getD 17 0 ^^^ 0x85)))) 15 bank12 (ent12 false 0 64) (acc12 1 64) (by decide +kernel) (by decide +kernel) (by decide +kernel) (by decide +kernel) (by decide +kernel) (by decide +kernel) (by decide +kernel) (by decide +kernel) (by decide +kernel) (by decide +kernel) (by decide +kernel) (by decide +kernel) (by decide +kernel) (by decide +kernel)).2 (by decide +kernel) (by decide +kernel) (by decide +kernel) (by decide +kernel) (by decide +kernel)).1 bytes12 (by decide +kernel)).2 3 17 0x85 (by decide +kernel) (by decide +kernel) (by decide +kernel) (by decide +kernel) (by decide +kernel) (by decide +kernel)) ∧
    Shown (((h.2.2.1 (all (served12 false 1 0 4 [zero12, zero12, zero12, (zero12.set 0 1).set 1 1])) 15 bank12 (ent12 false 0 4) (acc12 1 4) (by decide +kernel) (by decide +kernel) (by decide +kernel) (by decide +kernel) (by decide +kernel) (by decide +kernel) (by decide +kernel) (by decide +kernel) (by decide +kernel) (by decide +kernel) (by decide +kernel) (by decide +kernel) (by decide +kernel) (by decide +kernel)).2 (by decide +kernel) (by decide +kernel) (by decide +kernel) (by decide +kernel) (by decide +kernel)).2 3 (by decide +kernel) (by decide +kernel) (by decide +kernel) (by decide +kernel) (by decide +kernel) (by decide +kernel)) ∧
    Shown (h.2.2.2.1 (cells12 good12 (with12 { writeBacks := [(line12, 3, zero12)] } (chan12 0x93 up))) 15 line12 3 zero12 [] (by decide +kernel) (by decide +kernel) (by decide +kernel) (by decide +kernel) (by decide +kernel) (by decide +kernel)) ∧
    Shown (h.2.2.2.1 (cells12 good12 (with12 { writeBacks := [(line12, 3, zero12)], queue := [ent12 true 63 1] } (chan12 0x93 up))) 15 line12 3 zero12 [] (by decide +kernel) (by decide +kernel) (by decide +kernel) (by decide +kernel) (by decide +kernel) (by decide +kernel)) ∧
    Shown ((h.2.2.2.2.1 (with12 { owed := [(1, 7)] } (on [(memBlk 15, 0x800093)] (chan12 0x93 up))) 15 1 (by decide +kernel) (by decide +kernel) (by decide +kernel)).1 (.inl rfl) (by decide +kernel)) ∧
    Shown ((h.2.2.2.2.1 (with12 { owed := [(1, -7)], rows := [(15, some 4), (16, some 5)] } (chan12 0x93 up)) 15 1 (by decide +kernel) (by decide +kernel) (by decide +kernel)).2.1 (by decide +kernel) (by decide +kernel) (by decide +kernel)) ∧
    Shown ((h.2.2.2.2.1 (with12 { owed := [(1, 8)], rows := [(15, some 4), (31, some 5)] } (chan12 0x93 up)) 15 1 (by decide +kernel) (by decide +kernel) (by decide +kernel)).2.2 (by decide +kernel)) ∧
    Shown ((h.2.2.2.2.2.1 (with12 { rt := List.replicate 255 (ent12 true 0 64), rtWait := [rt12] } (chan12 0x93 up)) 15 (by decide +kernel) (by decide +kernel)).1 rt12 (by decide +kernel) (by decide +kernel) (by decide +kernel) (by decide +kernel) (by decide +kernel) (by decide +kernel) (by decide +kernel) (by decide +kernel) (by decide +kernel)) ∧
    Shown ((h.2.2.2.2.2.1 drain12 15 (by decide +kernel) (by decide +kernel)).2 { ent12 true 0 64 with data := bytes12 } (acc12 3 64) (by decide +kernel) (by decide +kernel) (by decide +kernel) (by decide +kernel) (by decide +kernel) (by decide +kernel) (by decide +kernel) (by decide +kernel) (by decide +kernel) (by decide +kernel) (by decide +kernel) (by decide +kernel) (by decide +kernel)) ∧
    Shown (((h.2.2.2.2.2.2.1 (with12 { alerts := List.replicate 6 0 } (chan12 0x93 up)) 15 true (by decide +kernel) (by decide +kernel) (by decide +kernel)).1 (by decide +kernel)).1 (by decide +kernel)) ∧
    Shown (((h.2.2.2.2.2.2.1 (with12 { alerts := List.replicate 7 0 } (chan12 0x93 up)) 15 false (by decide +kernel) (by decide +kernel) (by decide +kernel)).1 (by decide +kernel)).2 (by decide +kernel)) ∧
    Shown ((h.2.2.2.2.2.2.1 (on [(memBlk 15 + 4, 0x40000000)] (chan12 0x93 up)) 15 false (by decide +kernel) (by decide +kernel) (by decide +kernel)).2 (by decide +kernel)) ∧
    Shown (h.2.2.2.2.2.2.2.1 (cells12 good12 (with12 { parityLow := true, rows := [(15, some 4)], queue := [row12 5] } (chan12 0x93 up))) 15 (by decide +kernel) (by decide +kernel)) ∧
    Shown (h.2.2.2.2.2.2.2.2.1 (cells12 good12 (with12 { fill := some { next := line12, last := line12, pattern := 0x123456789ABCDEF0 } } (chan12 0x93 up))) 15 { next := line12, last := line12, pattern := 0x123456789ABCDEF0 } (by decide +kernel) (by decide +kernel) (by decide +kernel) (by decide +kernel) (by decide +kernel) (by decide +kernel) (by decide +kernel) (by decide +kernel) (by decide +kernel) (by decide +kernel)) ∧
    Shown ((h.2.2.2.2.2.2.2.2.2 (cells12 good12 (on [(memBlk 15, 0x200093), (memBlk 15 + 0x14, 0x3FFFFFFF), (memBlk 15 + 8, 37 * 256), (memBlk 14 + 8, 37 * 256)] (chan12 0x93 up))) 15 line12 bytes12 (by decide +kernel) (by decide +kernel) (by decide +kernel) (by decide +kernel) (by decide +kernel) (by decide +kernel) (by decide +kernel) (by decide +kernel) (by decide +kernel)).1 (by decide +kernel)) ∧
    Shown ((h.2.2.2.2.2.2.2.2.2 (cells12 good12 (on [(memBlk 15, 0x200093), (memBlk 15 + 0x14, 0x3FFFFFFF)] (chan12 0x93 (all up)))) 15 line12 bytes12 (by decide +kernel) (by decide +kernel) (by decide +kernel) (by decide +kernel) (by decide +kernel) (by decide +kernel) (by decide +kernel) (by decide +kernel) (by decide +kernel)).2 (by decide +kernel) (by decide +kernel)) :=
  ⟨shown _, shown _, shown _, shown _, shown _, shown _, shown _, shown _, shown _, shown _, shown _, shown _, shown _, shown _, shown _, shown _, shown _, shown _, shown _, shown _, shown _, shown _, shown _, shown _⟩

end C12

namespace C13

/-- C15 in READY alone, mapped at 64 GiB; region 7 of G7 in a state over its last MiB, its metadata in the MiB before. -/
def enc13 (st : Nat) (s : State) : State :=
  on [(clkBlk 15 + 0x18, 0x30), (memBlk 15, 0x93), (memBlk 15 + 4, 0xC00024), (memBlk 14 + 8, word (36 * 256)), (memBlk 15 + 8, word (36 * 256)),
    (rgnReg 7 7 0, 65535), (rgnReg 7 7 1, 1), (rgnReg 7 7 2, 65534), (rgnReg 7 7 3, word (0x500000 + st))] s
/-- Its region free. -/
def free13 (s : State) : State := on [(rgnReg 7 7 0, 0), (rgnReg 7 7 1, 0), (rgnReg 7 7 2, 0), (rgnReg 7 7 3, 0xA0)] (enc13 0xA0 s)
def last13 : Nat := 0x3FFFFFFF
def leaf13 (ctr : Nat) : CounterLine := { bytes := overlay (List.replicate 64 7) 24 (toBytes 8 ctr) }
def tags13 : CounterLine := { bytes := List.replicate 64 9, used := 3 }
def ct13 : List Byte := (upto 64).map (fun i => BitVec.ofNat 8 (255 - i))
def acc13 (op len : Nat) : Access := { id := 4, left := 1, pkt := { op := op, vc := 2, dst := 0xF02, src := 0xF4F, tag := 9, addr := 0x1FFFFFFFFC0, len := len } }
def ent13 (line : Nat) (w : Bool) (off len : Nat) : DramEntry :=
  { line := line, acc := 4, off := off, len := len, write := w, data := if w then (upto len).map (fun i => BitVec.ofNat 8 (i + 1)) else [] }
/-- Region 7 served: one entry in the queue, the leaf and the tag line of the last line cached. -/
def serve13 (e : DramEntry) (op len ctr : Nat) : State :=
  let s := setRgn 7 7 { dataKey := List.replicate 8 1, tagKey := List.replicate 8 2, clock := 2 ^ 64 - 2, root := List.replicate 7 5 } (enc13 0xA2 (all up))
  let s1 := setCached 7 7 0 2047 (some tags13) (setCached 7 7 1 2340 (some (leaf13 ctr)) (setChan 15 { queue := [e] } s))
  { s1 with dram := { s1.dram with accesses := [acc13 op len], cells := (upto 4).map (fun k => (cellKey 15 last13 k, encodeCw false ((ct13.drop (16 * k)).take 16))) } }
def bank13 (line : Nat) : Nat := bankKey (enc13 0xA2 up) 15 line
def listed13 (s : State) : State := on [(brokenReg 7 63 0, 0x80000047), (brokenReg 7 63 1, 6), (encBlk 7, 0x10000)] s
/-- Sixteen clean tag lines of one set of the counter cache. -/
def full13 (s : State) : State := (upto 16).foldl (fun t i => setCached 7 7 0 (2048 * i + 5) (some { bytes := [], used := 20 - i }) t) s

theorem test_meets_RegionsAreBuiltServedAndRebuilt (h : Obligations.RegionsAreBuiltServedAndRebuilt) :
    Shown (h.1 (List.replicate 8 1) 7 64 ct13 (by decide +kernel)) ∧
    Shown (h.2.1 (cmd 63 0x0781 [7] (enc13 0xA2 up)) 63 7 [7] (by decide +kernel) (by decide +kernel) (by decide +kernel)) ∧
    Shown ((h.2.2.1 (cmd 63 0x0782 [0x77, 65535, 1, 65535] (free13 up)) 63 7 7 65535 1 65535 true [0x77, 65535, 1, 65535] (by decide +kernel) (by decide +kernel) (by decide +kernel) (by decide +kernel) (by decide +kernel) (by decide +kernel) (by decide +kernel) (by decide +kernel) (by decide +kernel) (by decide +kernel) (by decide +kernel) (by decide +kernel) (by decide +kernel)).1 (by decide +kernel)) ∧
    Shown ((h.2.2.1 (cmd 63 0x0782 [0x77, 65535, 1, 65536] (free13 up)) 63 7 7 65535 1 65536 true [0x77, 65535, 1, 65536] (by decide +kernel) (by decide +kernel) (by decide +kernel) (by decide +kernel) (by decide +kernel) (by decide +kernel) (by decide +kernel) (by decide +kernel) (by decide +kernel) (by decide +kernel) (by decide +kernel) (by decide +kernel) (by decide +kernel)).2.1 (by decide +kernel) (by decide +kernel)) ∧
    Shown ((h.2.2.1 (cmd 63 0x0782 [0x77, 65535, 1, 65534] (free13 up)) 63 7 7 65535 1 65534 false [0x77, 65535, 1, 65534] (by decide +kernel) (by decide +kernel) (by decide +kernel) (by decide +kernel) (by decide +kernel) (by decide +kernel) (by decide +kernel) (by decide +kernel) (by decide +kernel) (by decide +kernel) (by decide +kernel) (by decide +kernel) (by decide +kernel)).2.2.1 (by decide +kernel) (by decide +kernel) (by decide +kernel) (by decide +kernel)) ∧
    Shown ((h.2.2.1 (cmd 63 0x0782 [0x277, 65535, 1, 65534] (free13 up)) 63 7 7 65535 1 65534 false [0x277, 65535, 1, 65534] (by decide +kernel) (by decide +kernel) (by decide +kernel) (by decide +kernel) (by decide +kernel) (by decide +kernel) (by decide +kernel) (by decide +kernel) (by decide +kernel) (by decide +kernel) (by decide +kernel) (by decide +kernel) (by decide +kernel)).2.2.2.1 (by decide +kernel) (by decide +kernel) (by decide +kernel)) ∧
    Shown ((h.2.2.1 (cmd 63 0x0782 [0x177, 65535, 1, 65534] (free13 up)) 63 7 7 65535 1 65534 true [0x177, 65535, 1, 65534] (by decide +kernel) (by decide +kernel) (by decide +kernel) (by decide +kernel) (by decide +kernel) (by decide +kernel) (by decide +kernel) (by decide +kernel) (by decide +kernel) (by decide +kernel) (by decide +kernel) (by decide +kernel) (by decide +kernel)).2.2.2.2 (by decide +kernel) (by decide +kernel) (by decide +kernel) (by decide +kernel)) ∧
    Shown (h.2.2.2.1 (on [(encBlk 7, 0x80)] (enc13 0xA1 (all up))) 7 7 (by decide +kernel) (by decide +kernel) (by decide +kernel) (by decide +kernel) (by decide +kernel)) ∧
    Shown ((h.2.2.2.2.1 (cmd 63 0x0783 [0x77] (full13 (listed13 (enc13 0xA3 up)))) 63 7 7 [0x77] (by decide +kernel) (by decide +kernel) (by decide +kernel) (by decide +kernel)).1 (by decide +kernel) (.tail _ (.tail _ (.head _)))) ∧
    Shown (((h.2.2.2.2.1 (cmd 63 0x0784 [0x77, 4, 6] (listed13 (enc13 0xA2 up))) 63 7 7 [0x77, 4, 6] (by decide +kernel) (by decide +kernel) (by decide +kernel) (by decide +kernel)).2 (by decide +kernel) 4 6 (by decide +kernel) (by decide +kernel) (by decide +kernel) (by decide +kernel) (by decide +kernel)).1 (.inr (by decide +kernel))) ∧
    Shown (((h.2.2.2.2.1 (cmd 63 0x0784 [0x77, 5, 0] (enc13 0xA3 up)) 63 7 7 [0x77, 5, 0] (by decide +kernel) (by decide +kernel) (by decide +kernel) (by decide +kernel)).2 (by decide +kernel) 5 0 (by decide +kernel) (by decide +kernel) (by decide +kernel) (by decide +kernel) (by decide +kernel)).1 (.inl (by decide +kernel))) ∧
    Shown (((h.2.2.2.2.1 (cmd 63 0x0784 [0x77, 4, 5] (listed13 (enc13 0xA2 up))) 63 7 7 [0x77, 4, 5] (by decide +kernel) (by decide +kernel) (by decide +kernel) (by decide +kernel)).2 (by decide +kernel) 4 5 (by decide +kernel) (by decide +kernel) (by decide +kernel) (by decide +kernel) (by decide +kernel)).2 (by decide +kernel) (by decide +kernel)) ∧
    Shown (h.2.2.2.2.2.1 (setRgn 7 7 { jobs := [(5, 0)], clock := 9 } (listed13 (enc13 0xA3 (all up)))) 7 7 (by decide +kernel) (by decide +kernel) (by decide +kernel) (by decide +kernel) (by decide +kernel) (by decide +kernel) (by decide +kernel)) ∧
    Shown ((h.2.2.2.2.2.2.1 (cmd 63 0x0785 [15, 1, 2, 3, 4, 5, 6, 7, 8, 9, 10, 11, 12] up) 63 15 [15, 1, 2, 3, 4, 5, 6, 7, 8, 9, 10, 11, 12] (by decide +kernel) (by decide +kernel) (by decide +kernel)).1 (by decide +kernel) (by decide +kernel) (by decide +kernel)) ∧
    Shown ((h.2.2.2.2.2.2.1 (let s := cmd 63 0x0785 [15, 1] up; { s with ward := { s.ward with keyHashes := [(15, [5])] } }) 63 15 [15, 1] (by decide +kernel) (by decide +kernel) (by decide +kernel)).2.1 (by decide +kernel)) ∧
    Shown ((h.2.2.2.2.2.2.1 (let s := cmd 63 0x0785 [14, 1] up; { s with ward := { s.ward with setVal := s.ward.setVal.set 1 15 } }) 63 14 [14, 1] (by decide +kernel) (by decide +kernel) (by decide +kernel)).2.2 (by decide +kernel) (by decide +kernel)) ∧
    Shown ((h.2.2.2.2.2.2.2.1 (serve13 (ent13 last13 false 60 4) 1 4 5) 15 (bank13 last13) 7 (ent13 last13 false 60 4) (acc13 1 4) (leaf13 5) tags13 ct13 (by decide +kernel) (by decide +kernel) (by decide +kernel) (by decide +kernel) (by decide +kernel) (by decide +kernel) (by decide +kernel) (by decide +kernel) (by decide +kernel) (by decide +kernel) (by decide +kernel) (by decide +kernel) (by decide +kernel) (by decide +kernel) (by decide +kernel) (by decide +kernel) (by decide +kernel) (by decide +kernel) (by decide +kernel) (by decide +kernel) (by decide +kernel) (by decide +kernel) (by decide +kernel) (by decide +kernel) (by decide +kernel) (by decide +kernel) (by decide +kernel) (by decide +kernel) (by decide +kernel) ).1 (by decide +kernel) (by decide +kernel) (by decide +kernel) (by decide +kernel) |>.1 (by decide +kernel) (by decide +kernel) (by decide +kernel)) ∧
    Shown ((h.2.2.2.2.2.2.2.1 (serve13 (ent13 last13 false 60 4) 1 4 0) 15 (bank13 last13) 7 (ent13 last13 false 60 4) (acc13 1 4) (leaf13 0) tags13 ct13 (by decide +kernel) (by decide +kernel) (by decide +kernel) (by decide +kernel) (by decide +kernel) (by decide +kernel) (by decide +kernel) (by decide +kernel) (by decide +kernel) (by decide +kernel) (by decide +kernel) (by decide +kernel) (by decide +kernel) (by decide +kernel) (by decide +kernel) (by decide +kernel) (by decide +kernel) (by decide +kernel) (by decide +kernel) (by decide +kernel) (by decide +kernel) (by decide +kernel) (by decide +kernel) (by decide +kernel) (by decide +kernel) (by decide +kernel) (by decide +kernel) (by decide +kernel) (by decide +kernel) ).1 (by decide +kernel) (by decide +kernel) (by decide +kernel) (by decide +kernel) |>.2 (by decide +kernel)) ∧
    Shown ((h.2.2.2.2.2.2.2.1 (serve13 (ent13 last13 true 0 64) 3 64 5) 15 (bank13 last13) 7 (ent13 last13 true 0 64) (acc13 3 64) (leaf13 5) tags13 ct13 (by decide +kernel) (by decide +kernel) (by decide +kernel) (by decide +kernel) (by decide +kernel) (by decide +kernel) (by decide +kernel) (by decide +kernel) (by decide +kernel) (by decide +kernel) (by decide +kernel) (by decide +kernel) (by decide +kernel) (by decide +kernel) (by decide +kernel) (by decide +kernel) (by decide +kernel) (by decide +kernel) (by decide +kernel) (by decide +kernel) (by decide +kernel) (by decide +kernel) (by decide +kernel) (by decide +kernel) (by decide +kernel) (by decide +kernel) (by decide +kernel) (by decide +kernel) (by decide +kernel) ).2 (by decide +kernel) (by decide +kernel) |>.1 (by decide +kernel) (by decide +kernel) (by decide +kernel)) ∧
    Shown ((h.2.2.2.2.2.2.2.1 (serve13 (ent13 last13 true 63 1) 3 1 0) 15 (bank13 last13) 7 (ent13 last13 true 63 1) (acc13 3 1) (leaf13 0) tags13 ct13 (by decide +kernel) (by decide +kernel) (by decide +kernel) (by decide +kernel) (by decide +kernel) (by decide +kernel) (by decide +kernel) (by decide +kernel) (by decide +kernel) (by decide +kernel) (by decide +kernel) (by decide +kernel) (by decide +kernel) (by decide +kernel) (by decide +kernel) (by decide +kernel) (by decide +kernel) (by decide +kernel) (by decide +kernel) (by decide +kernel) (by decide +kernel) (by decide +kernel) (by decide +kernel) (by decide +kernel) (by decide +kernel) (by decide +kernel) (by decide +kernel) (by decide +kernel) (by decide +kernel) ).2 (by decide +kernel) (by decide +kernel) |>.2 (by decide +kernel) (by decide +kernel) (by decide +kernel) (by decide +kernel) |>.1 (by decide +kernel)) ∧
    Shown ((h.2.2.2.2.2.2.2.1 (serve13 (ent13 last13 true 63 1) 3 1 5) 15 (bank13 last13) 7 (ent13 last13 true 63 1) (acc13 3 1) (leaf13 5) tags13 ct13 (by decide +kernel) (by decide +kernel) (by decide +kernel) (by decide +kernel) (by decide +kernel) (by decide +kernel) (by decide +kernel) (by decide +kernel) (by decide +kernel) (by decide +kernel) (by decide +kernel) (by decide +kernel) (by decide +kernel) (by decide +kernel) (by decide +kernel) (by decide +kernel) (by decide +kernel) (by decide +kernel) (by decide +kernel) (by decide +kernel) (by decide +kernel) (by decide +kernel) (by decide +kernel) (by decide +kernel) (by decide +kernel) (by decide +kernel) (by decide +kernel) (by decide +kernel) (by decide +kernel) ).2 (by decide +kernel) (by decide +kernel) |>.2 (by decide +kernel) (by decide +kernel) (by decide +kernel) (by decide +kernel) |>.2 (by decide +kernel)) ∧
    Shown (h.2.2.2.2.2.2.2.2.1 (serve13 (ent13 0x3FFFBFFF false 60 4) 1 4 5) 15 (bank13 0x3FFFBFFF) (ent13 0x3FFFBFFF false 60 4) (acc13 1 4) (by decide +kernel) (by decide +kernel) (by decide +kernel) (by decide +kernel) (by decide +kernel) (by decide +kernel) (by decide +kernel) (by decide +kernel) (by decide +kernel) (by decide +kernel) (by decide +kernel) (by decide +kernel) (by decide +kernel) (by decide +kernel) (by decide +kernel) (by decide +kernel) (.inl rfl)) ∧
    Shown (h.2.2.2.2.2.2.2.2.1 (serve13 (ent13 0x3FFF8000 true 0 64) 2 64 5) 15 (bank13 0x3FFF8000) (ent13 0x3FFF8000 true 0 64) (acc13 2 64) (by decide +kernel) (by decide +kernel) (by decide +kernel) (by decide +kernel) (by decide +kernel) (by decide +kernel) (by decide +kernel) (by decide +kernel) (by decide +kernel) (by decide +kernel) (by decide +kernel) (by decide +kernel) (by decide +kernel) (by decide +kernel) (by decide +kernel) (by decide +kernel) (.inr rfl)) ∧
    Shown ((h.2.2.2.2.2.2.2.2.2 (enc13 0xA2 up) 7 5 (by decide +kernel)).1 (by decide +kernel)) ∧
    Shown ((h.2.2.2.2.2.2.2.2.2 (full13 (enc13 0xA2 up)) 7 (cacheSet (enc13 0xA2 up) 7 7 0 5) (by decide +kernel)).2 (by decide +kernel) (by decide +kernel)) :=
  ⟨shown _, shown _, shown _, shown _, shown _, shown _, shown _, shown _, shown _, shown _, shown _, shown _, shown _, shown _, shown _, shown _, shown _, shown _, shown _, shown _, shown _, shown _, shown _, shown _, shown _⟩

theorem test_meets_LinesAreEncryptedByCounterBlocks (h : Obligations.LinesAreEncryptedByCounterBlocks) :
    Shown (h [1, 2, 3, 4, 5, 6, 7, 8] 0xFFFFFFFFFFFFFFFF 0xFFFFFFFFFFC0 (List.replicate 64 0xA5) (by decide +kernel) (by decide +kernel) (by decide +kernel)) :=
  shown _

end C13

namespace C14

/-- Lane die L3 in a state, its LRL locked. -/
def die14 (st : Nat) (s : State) : State := on [(clkBlk 4, word (0x80000010 + st * 65536))] s
/-- The last lanes of L3 in a state and mode, and a port configuration on the last engine. -/
def lane14 (n st mode flags : Nat) (s : State) : State := on [(lanBlk n + 0xC, word (st * 65536 + mode * 256 + flags))] s
def both14 (st mode : Nat) (s : State) : State := lane14 511 st mode 0 (lane14 510 st mode 0 s)
/-- Port 7 of PE63 at 100 Gb/s on lane LN511. -/
def port14 (state : Nat) (s : State) : State :=
  on [(penCfg 63 7, word (0x5C000000 + state * 16384 + 1518 + 2 ^ 19))] (lane14 511 0xB1 5 0 (die14 0x30 s))
def raw14 (s : State) : State := on [(penCfg 63 7, word (0x92000000 + 3 * 16384 + 2 ^ 19))] (lane14 511 0xB1 2 0 (die14 0x30 s))
def eyes14 : List (List Nat) := [(upto 32), (upto 32).map (fun i => 40 - i)]
/-- Time base 7 runs. -/
def tb14 (s : State) : State := setTb s 7 { tbAt s 7 with core := { (tbAt s 7).core with run := true } }
def gateArgs14 (base : Nat) : List Word := [63, 0xFF07, word base, 0, 1000, 2, 0x80000001, 0x01FFFFFF]
def key14 : List Word := [word (5 + 15 * 16 + 7 * 256), 0x03020100, word (0x0504 + 0x0008 * 65536), 0]
def entry14 (a b : Nat) : List Word := key14 ++ [word a, word b, 9, 0]
def put14 (e : List Word) (w : Nat) (s : State) : State :=
  { s with lan := { s.lan with cls := sset [] s.lan.cls (3 * 65536 + clsBucket e * 4 + w) e } }
def fill14 (s : State) : State :=
  (upto 4).foldl (fun t w => put14 (key14 ++ [0, 0, 0, 0]) 0 { t with lan := { t.lan with cls := sset [] t.lan.cls (3 * 65536 + clsBucket key14 * 4 + w) [word w] } }) s
/-- The bucket of the key full of others. -/
def full14 (s : State) : State :=
  { s with lan := { s.lan with cls := (upto 4).map (fun w => (3 * 65536 + clsBucket key14 * 4 + w, [word w, 1, 1, 1, 0, 0, 0, 0])) } }
def kept14 (s : State) : State := { s with lan := { s.lan with clsKept := [(3 * 65536 + 65535, entry14 5 0xFFF)], trial := [(3, some 0x1234)] } }
/-- A frame without FCS of kind 5, and one with its FCS. -/
def body14 (n : Nat) : List Byte := (upto n).map (fun i => BitVec.ofNat 8 i)
def frame14 (n : Nat) : List Byte := body14 n ++ toBytes 4 (crc32 (body14 n))
def other14 : List Byte := [0, 1, 2, 3, 4, 5, 6, 7, 8, 9, 10, 11, 8, 6] ++ body14 46
def ecpri14 : List Byte := [0, 1, 2, 3, 4, 5, 6, 7, 8, 9, 10, 11, 0xAE, 0xFE, 0x10, 0, 0, 4, 0x12, 0x34, 0x56, 0x78] ++ body14 38
def arp14 : List Byte := other14 ++ toBytes 4 (crc32 other14)
def arpKey14 : List Word := frameKeyWords (parseFrame other14 0) 63 7 true
def steer14 (s : State) : State :=
  let t := put14 (arpKey14 ++ [0xF4F, 0x3B0FFF, 9, 0xFFFFFFFF]) 3 s
  { t with bough := { t.bough with blocks := sset false t.bough.blocks (4 * 16 + 15) true } }
def unit14 (w0 : Nat) : Packet :=
  { op := 3, vc := 2, dst := 0x41F, src := 0xF03, addr := 65536, len := 80, data := toBytes 4 w0 ++ List.replicate 12 0 ++ body14 64 }
def came14 (q : Packet) (s : State) : State := { s with bough := { s.bough with inbox := [q] } }
def tx14 (c n : Nat) : TxFrame := { pe := 63, port := 7, cls := c, tsReq := false, oneStep := false, tag := 0, data := body14 n }
def queued14 (s : State) : State := { s with lan := { s.lan with txq := [tx14 0 20, tx14 7 59] } }
def gates14 : GateList := { tb := 7, dflt := 0, base := 5, cycle := 1000, entries := [0x80000001, 0x01FFFFFF] }
def shadow14 (now : Nat) (s : State) : State :=
  { s with lan := { s.lan with shadow := [(63, some gates14)] },
           tu := { s.tu with replicas := [(4, { loaded := true, cores := [(7, { run := true, cnt := now * 2 ^ 40 })] })] } }
def routed14 (s : State) : State := { s with bough := { s.bough with blocks := sset false s.bough.blocks (4 * 16 + 15) true } }

theorem test_meets_LaneCommandsChangeWhatTheyName (h : Obligations.LaneCommandsChangeWhatTheyName) :
    Shown ((h.1 (cmd 63 0x0C01 [3] (both14 0xB1 5 (die14 0x30 up))) 63 3 [3] (by decide +kernel) (by decide +kernel)).1 (by decide +kernel)) ∧
    Shown (((h.1 (cmd 63 0x0C02 [3, 1] (die14 0x34 up)) 63 3 [3, 1] (by decide +kernel) (by decide +kernel)).2.1 1 (by decide +kernel) (.inr rfl) (by decide +kernel) (by decide +kernel)).1 (by decide +kernel)) ∧
    Shown (((h.1 (cmd 63 0x0C02 [3, 1] (both14 0xB1 5 (die14 0x30 up))) 63 3 [3, 1] (by decide +kernel) (by decide +kernel)).2.1 1 (by decide +kernel) (.inl rfl) (by decide +kernel) (by decide +kernel)).2 (by decide +kernel)) ∧
    Shown (((h.1 (cmd 63 0x0C0E [3, 65535] (die14 0x34 up)) 63 3 [3, 65535] (by decide +kernel) (by decide +kernel)).2.2 65535 (by decide +kernel) (.inr rfl) (by decide +kernel) (by decide +kernel)).1 (by decide +kernel)) ∧
    Shown (((h.1 (cmd 63 0x0C0E [3, 65535] (both14 0xB2 5 (die14 0x34 up))) 63 3 [3, 65535] (by decide +kernel) (by decide +kernel)).2.2 65535 (by decide +kernel) (.inr rfl) (by decide +kernel) (by decide +kernel)).2 (by decide +kernel)) ∧
    Shown (((h.2.1 (cmd 63 0x0C03 [0x201FE, 0x1C6F, 0x1F1F] (die14 0x30 up)) 63 510 2 [0x201FE, 0x1C6F, 0x1F1F] (by decide +kernel) (by decide +kernel) (by decide +kernel) (by decide +kernel)).1 0x1C6F 0x1F1F (by decide +kernel) (by decide +kernel) (by decide +kernel) (by decide +kernel) (by decide +kernel) (by decide +kernel) (by decide +kernel) (by decide +kernel)).1 (by decide +kernel)) ∧
    Shown (((h.2.1 (cmd 63 0x0C03 [0x201FE, 0x1DFF, 0x1F1F] (die14 0x30 up)) 63 510 2 [0x201FE, 0x1DFF, 0x1F1F] (by decide +kernel) (by decide +kernel) (by decide +kernel) (by decide +kernel)).1 0x1DFF 0x1F1F (by decide +kernel) (by decide +kernel) (by decide +kernel) (by decide +kernel) (by decide +kernel) (by decide +kernel) (by decide +kernel) (by decide +kernel)).2 (by decide +kernel)) ∧
    Shown (((h.2.1 (cmd 63 0x0C04 [0x201FE] (both14 0xB2 5 (die14 0x30 up))) 63 510 2 [0x201FE] (by decide +kernel) (by decide +kernel) (by decide +kernel) (by decide +kernel)).2.1 eyes14 (by decide +kernel) (by decide +kernel)).1 (by decide +kernel)) ∧
    Shown (((h.2.1 (cmd 63 0x0C04 [0x101FF] (port14 2 up)) 63 511 1 [0x101FF] (by decide +kernel) (by decide +kernel) (by decide +kernel) (by decide +kernel)).2.1 eyes14 (by decide +kernel) (by decide +kernel)).2 (by decide +kernel)) ∧
    Shown (((h.2.1 (cmd 63 0x0C05 [0x201FE, 0x305, 0x77] (die14 0x30 up)) 63 510 2 [0x201FE, 0x305, 0x77] (by decide +kernel) (by decide +kernel) (by decide +kernel) (by decide +kernel)).2.2 5 3 7 7 (by decide +kernel) (by decide +kernel) (by decide +kernel) (by decide +kernel) (by decide +kernel) (by decide +kernel) (by decide +kernel) (by decide +kernel)).1 (by decide +kernel) (by decide +kernel) (.inl (by decide +kernel))) ∧
    Shown (((h.2.1 (cmd 63 0x0C05 [0x201FE, 0x300, 0x77] (both14 0xB2 5 (die14 0x30 up))) 63 510 2 [0x201FE, 0x300, 0x77] (by decide +kernel) (by decide +kernel) (by decide +kernel) (by decide +kernel)).2.2 0 3 7 7 (by decide +kernel) (by decide +kernel) (by decide +kernel) (by decide +kernel) (by decide +kernel) (by decide +kernel) (by decide +kernel) (by decide +kernel)).2.1 (by decide +kernel)) ∧
    Shown (((h.2.1 (cmd 63 0x0C05 [0x201FE, 0x303, 0x76] (both14 0xB2 5 (die14 0x30 up))) 63 510 2 [0x201FE, 0x303, 0x76] (by decide +kernel) (by decide +kernel) (by decide +kernel) (by decide +kernel)).2.2 3 3 6 7 (by decide +kernel) (by decide +kernel) (by decide +kernel) (by decide +kernel) (by decide +kernel) (by decide +kernel) (by decide +kernel) (by decide +kernel)).2.2 (.inr (by decide +kernel))) ∧
    Shown (h.2.2.1 (cmd 63 0x0C06 [511, 1] (on [(lanBlk 511 + 0x18, 0xFFFFFFF0)] (lane14 511 0xB2 5 4 (die14 0x30 up)))) 63 511 1 [511, 1] (by decide +kernel) (by decide +kernel) (by decide +kernel) (by decide +kernel) (by decide +kernel) (by decide +kernel) (by decide +kernel) (by decide +kernel) 100 (by decide +kernel)) ∧
    Shown ((h.2.2.2.1 (cmd 63 0x0C07 [0x73F, 0x5C0005EE, 0x60000427, 7] (die14 0x30 up)) 63 63 7 0x5C0005EE 0x60000427 7 [0x73F, 0x5C0005EE, 0x60000427, 7] (by decide +kernel) (by decide +kernel) (by decide +kernel) (by decide +kernel) (by decide +kernel) (by decide +kernel) (by decide +kernel)).1 (by decide +kernel) (by decide +kernel) (by decide +kernel)) ∧
    Shown ((h.2.2.2.1 (cmd 63 0x0C07 [0x73F, 0x0, 0x60000427, 7] (port14 2 up)) 63 63 7 0x0 0x60000427 7 [0x73F, 0x0, 0x60000427, 7] (by decide +kernel) (by decide +kernel) (by decide +kernel) (by decide +kernel) (by decide +kernel) (by decide +kernel) (by decide +kernel)).1 (by decide +kernel) (by decide +kernel) (by decide +kernel)) ∧
    Shown ((h.2.2.2.1 (cmd 63 0x0C07 [0x73F, 0x4C0005EE, 0, 0] (port14 2 up)) 63 63 7 0x4C0005EE 0 0 [0x73F, 0x4C0005EE, 0, 0] (by decide +kernel) (by decide +kernel) (by decide +kernel) (by decide +kernel) (by decide +kernel) (by decide +kernel) (by decide +kernel)).2.1 (4, 0x0C03) (by decide +kernel)) ∧
    Shown (((h.2.2.2.1 (cmd 63 0x0C07 [0x73F, 0x5C0005EE, 0, 0] (port14 2 up)) 63 63 7 0x5C0005EE 0 0 [0x73F, 0x5C0005EE, 0, 0] (by decide +kernel) (by decide +kernel) (by decide +kernel) (by decide +kernel) (by decide +kernel) (by decide +kernel) (by decide +kernel)).2.2 (by decide +kernel) (by decide +kernel) (by decide +kernel) (by decide +kernel) (by decide +kernel) (by decide +kernel)).2 (by decide +kernel) (by decide +kernel) (by decide +kernel)) ∧
    Shown ((h.2.2.2.2.1 (cmd 63 0x0C08 [63, 0x2007_FFFF, 0xFFFFFFF0, 0x801001BF] (die14 0x31 up)) 63 63 [63, 0x2007_FFFF, 0xFFFFFFF0, 0x801001BF] (by decide +kernel) (by decide +kernel)).1 (by decide +kernel) (.tail _ (.head _)) (by decide +kernel) (by decide +kernel) (by decide +kernel) (by decide +kernel) (by decide +kernel)) ∧
    Shown ((h.2.2.2.2.1 (cmd 63 0x0C0F [63] (die14 0x30 up)) 63 63 [63] (by decide +kernel) (by decide +kernel)).2.1 (by decide +kernel)) ∧
    Shown (((h.2.2.2.2.1 (tb14 (cmd 63 0x0C0D (gateArgs14 10000) (die14 0x31 up))) 63 63 (gateArgs14 10000) (by decide +kernel) (by decide +kernel)).2.2 (by decide +kernel) (.tail _ (.head _)) (by decide +kernel) (by decide +kernel) (by decide +kernel) (by decide +kernel) (by decide +kernel) (by decide +kernel) (by decide +kernel) (by decide +kernel)).1 (by decide +kernel) (by decide +kernel) (by decide +kernel)) ∧
    Shown (((h.2.2.2.2.1 (tb14 (cmd 63 0x0C0D (gateArgs14 9999) (die14 0x31 up))) 63 63 (gateArgs14 9999) (by decide +kernel) (by decide +kernel)).2.2 (by decide +kernel) (.tail _ (.head _)) (by decide +kernel) (by decide +kernel) (by decide +kernel) (by decide +kernel) (by decide +kernel) (by decide +kernel) (by decide +kernel) (by decide +kernel)).2.1 (by decide +kernel) (.inl (by decide +kernel))) ∧
    Shown (((h.2.2.2.2.1 (cmd 63 0x0C0D (gateArgs14 9999) (die14 0x31 up)) 63 63 (gateArgs14 9999) (by decide +kernel) (by decide +kernel)).2.2 (by decide +kernel) (.tail _ (.head _)) (by decide +kernel) (by decide +kernel) (by decide +kernel) (by decide +kernel) (by decide +kernel) (by decide +kernel) (by decide +kernel) (by decide +kernel)).2.2 (by decide +kernel)) ∧
    Shown (((h.2.2.2.2.2.1 (cmd 63 0x0C09 (3 :: entry14 0x6427 0xFF0FFF) (put14 (entry14 1 2) 3 (die14 0x34 up))) 63 3 (3 :: entry14 0x6427 0xFF0FFF) (by decide +kernel) (by decide +kernel) (.tail _ (.tail _ (.head _)))).1 (by decide +kernel) (by decide +kernel) (by decide +kernel) (by decide +kernel) (by decide +kernel) (by decide +kernel) (by decide +kernel) (by decide +kernel) (by decide +kernel)).1 (3 * 65536 + clsBucket key14 * 4 + 3) (.inl (by decide +kernel))) ∧
    Shown (((h.2.2.2.2.2.1 (cmd 63 0x0C09 (3 :: entry14 0x6427 0xFF0FFF) (full14 (die14 0x34 up))) 63 3 (3 :: entry14 0x6427 0xFF0FFF) (by decide +kernel) (by decide +kernel) (.tail _ (.tail _ (.head _)))).1 (by decide +kernel) (by decide +kernel) (by decide +kernel) (by decide +kernel) (by decide +kernel) (by decide +kernel) (by decide +kernel) (by decide +kernel) (by decide +kernel)).2 (by decide +kernel) (by decide +kernel)) ∧
    Shown (((h.2.2.2.2.2.1 (cmd 63 0x0C0A (3 :: key14) (put14 (entry14 1 2) 3 (die14 0x34 up))) 63 3 (3 :: key14) (by decide +kernel) (by decide +kernel) (.tail _ (.tail _ (.head _)))).2.1 (by decide +kernel)).1 (3 * 65536 + clsBucket key14 * 4 + 3) (by decide +kernel)) ∧
    Shown (((h.2.2.2.2.2.1 (cmd 63 0x0C0A (3 :: key14) (die14 0x34 up)) 63 3 (3 :: key14) (by decide +kernel) (by decide +kernel) (.tail _ (.tail _ (.head _)))).2.1 (by decide +kernel)).2 (by decide +kernel)) ∧
    Shown ((h.2.2.2.2.2.1 (cmd 63 0x0C0B (3 :: key14) (put14 (entry14 1 2) 3 (die14 0x34 up))) 63 3 (3 :: key14) (by decide +kernel) (by decide +kernel) (.tail _ (.tail _ (.head _)))).2.2.1 (by decide +kernel) (3 * 65536 + clsBucket key14 * 4 + 3) (by decide +kernel)) ∧
    Shown ((h.2.2.2.2.2.1 (cmd 63 0x0C0C [3, 4094, 800000, 9000, 900000, 18000] (die14 0x34 up)) 63 3 [3, 4094, 800000, 9000, 900000, 18000] (by decide +kernel) (by decide +kernel) (.tail _ (.tail _ (.head _)))).2.2.2 (by decide +kernel) 4094 (by decide +kernel) (by decide +kernel)) ∧
    Shown ((h.2.2.2.2.2.2 (kept14 (die14 0x34 up)) 3 (by decide +kernel)).1 (by decide +kernel) (by decide +kernel) (by decide +kernel) (by decide +kernel)) ∧
    Shown (((h.2.2.2.2.2.2 (port14 1 (all up)) 3 (by decide +kernel)).2 (by decide +kernel) (by decide +kernel)).1 (by decide +kernel) (by decide +kernel) (by decide +kernel)) ∧
    Shown (((h.2.2.2.2.2.2 (raw14 up) 3 (by decide +kernel)).2 (by decide +kernel) (by decide +kernel)).2) :=
  ⟨shown _, shown _, shown _, shown _, shown _, shown _, shown _, shown _, shown _, shown _, shown _, shown _, shown _, shown _, shown _, shown _, shown _, shown _, shown _, shown _, shown _, shown _, shown _, shown _, shown _, shown _, shown _, shown _, shown _, shown _, shown _⟩

theorem test_meets_FramesPassTheirStagesAndSignalsShow (h : Obligations.FramesPassTheirStagesAndSignalsShow) :
    Shown (((h.1 (port14 2 (all up)) 511 (by decide +kernel) (by decide +kernel)).1 (by decide +kernel) (by decide +kernel)).1) ∧
    Shown (((h.1 (port14 2 (all up)) 511 (by decide +kernel) (by decide +kernel)).1 (by decide +kernel) (by decide +kernel)).2) ∧
    Shown ((h.1 (lane14 511 0xB2 5 3 (all up)) 511 (by decide +kernel) (by decide +kernel)).2.1 (by decide +kernel) (by decide +kernel) (by decide +kernel)) ∧
    Shown ((h.1 (let s := lane14 511 0xB2 5 3 (all up); { s with lan := { s.lan with sigLast := [(511, some 0)] } }) 511 (by decide +kernel) (by decide +kernel)).2.2.1 0 (by decide +kernel) (by decide +kernel) (by decide +kernel)) ∧
    Shown (((h.1 (lane14 511 0xB2 5 3 (die14 0x30 up)) 511 (by decide +kernel) (by decide +kernel)).2.2.2 (by decide +kernel)).1 (by decide +kernel)) ∧
    Shown (((h.1 (lane14 511 0xB2 5 2 (die14 0x30 up)) 511 (by decide +kernel) (by decide +kernel)).2.2.2 (by decide +kernel)).2 (by decide +kernel) (by decide +kernel)) ∧
    Shown ((h.2.1 (on [(lanBlk 511, 0x700)] (lane14 511 0xB2 5 0 up)) 511 0 (by decide +kernel)).1 (by decide +kernel) (by decide +kernel)) ∧
    Shown ((h.2.1 (on [(lanBlk 511 + 0x18, 0xFFFFFFF0)] (lane14 511 0xB2 5 4 up)) 511 100 (by decide +kernel)).2 (by decide +kernel) (by decide +kernel) (by decide +kernel)) ∧
    Shown ((h.2.2.1 (port14 1 (all up)) 63 7 (by decide +kernel) (by decide +kernel)).1 (by decide +kernel) (by decide +kernel) (by decide +kernel) (by decide +kernel)) ∧
    Shown ((h.2.2.1 (lane14 511 0xB1 5 2 (port14 1 up)) 63 7 (by decide +kernel) (by decide +kernel)).2.1 (by decide +kernel)) ∧
    Shown (((h.2.2.1 (port14 2 up) 63 7 (by decide +kernel) (by decide +kernel)).2.2 (by decide +kernel)).1) ∧
    Shown ((((h.2.2.1 (port14 2 up) 63 7 (by decide +kernel) (by decide +kernel)).2.2 (by decide +kernel)).2.1 15 (by decide +kernel) (by decide +kernel)).1 (by decide +kernel) (by decide +kernel)) ∧
    Shown ((((h.2.2.1 (port14 2 (all up)) 63 7 (by decide +kernel) (by decide +kernel)).2.2 (by decide +kernel)).2.1 16 (by decide +kernel) (by decide +kernel)).2 (by decide +kernel) (by decide +kernel) (by decide +kernel)) ∧
    Shown ((((h.2.2.1 (port14 2 up) 63 7 (by decide +kernel) (by decide +kernel)).2.2 (by decide +kernel)).2.2 (frame14 59) (by decide +kernel)).1 (.inl (by decide +kernel))) ∧
    Shown ((((h.2.2.1 (port14 2 up) 63 7 (by decide +kernel) (by decide +kernel)).2.2 (by decide +kernel)).2.2 arp14 (by decide +kernel)).2.1) ∧
    Shown (((((h.2.2.1 (port14 2 up) 63 7 (by decide +kernel) (by decide +kernel)).2.2 (by decide +kernel)).2.2 arp14 (by decide +kernel)).2.2 (by decide +kernel) (by decide +kernel) (by decide +kernel)).1 (by decide +kernel) (by decide +kernel)) ∧
    Shown (((((h.2.2.1 (steer14 (port14 2 up)) 63 7 (by decide +kernel) (by decide +kernel)).2.2 (by decide +kernel)).2.2 arp14 (by decide +kernel)).2.2 (by decide +kernel) (by decide +kernel) (by decide +kernel)).2 (3 * 65536 + clsBucket arpKey14 * 4 + 3) 0xF4F 59 (arpKey14 ++ [0xF4F, 0x3B0FFF, 9, 0xFFFFFFFF]) (by decide +kernel) (by decide +kernel) (by decide +kernel) (by decide +kernel) (by decide +kernel) (by decide +kernel) (by decide +kernel) (by decide +kernel) (by decide +kernel) (by decide +kernel) (by decide +kernel) (by decide +kernel) (by decide +kernel) (by decide +kernel)) ∧
    Shown (h.2.2.2.1 ecpri14 0 (by decide +kernel) (by decide +kernel) (by decide +kernel) (by decide +kernel) (by decide +kernel)) ∧
    Shown ((h.2.2.2.2.1 (came14 (unit14 0xFFFF00FF) (port14 2 up)) 63 0xF03 7 (unit14 0xFFFF00FF) (by decide +kernel) (by decide +kernel) (by decide +kernel) (by decide +kernel) (by decide +kernel) (by decide +kernel) (by decide +kernel) (by decide +kernel) (by decide +kernel) (by decide +kernel) (by decide +kernel) (by decide +kernel)).1 (by decide +kernel)) ∧
    Shown ((h.2.2.2.2.1 (came14 (unit14 0xFFFF01FF) (port14 2 up)) 63 0xF03 7 (unit14 0xFFFF01FF) (by decide +kernel) (by decide +kernel) (by decide +kernel) (by decide +kernel) (by decide +kernel) (by decide +kernel) (by decide +kernel) (by decide +kernel) (by decide +kernel) (by decide +kernel) (by decide +kernel) (by decide +kernel)).2 (by decide +kernel) (by decide +kernel)) ∧
    Shown ((h.2.2.2.2.2.1 (queued14 (port14 2 up)) 63 7 (tx14 7 59) (tx14 0 20) (by decide +kernel) (by decide +kernel) (by decide +kernel) (by decide +kernel) (by decide +kernel) (by decide +kernel) (by decide +kernel)).1 (by decide +kernel) (by decide +kernel) (by decide +kernel) (by decide +kernel) (by decide +kernel) (by decide +kernel) (by decide +kernel)) ∧
    Shown ((h.2.2.2.2.2.1 (on [(penCfg 63 7, 0x5C188000), (penBlk 63 + 0x64, 0x00000001)] (queued14 (port14 2 up))) 63 7 (tx14 7 59) (tx14 0 20) (by decide +kernel) (by decide +kernel) (by decide +kernel) (by decide +kernel) (by decide +kernel) (by decide +kernel) (by decide +kernel)).2.1 (by decide +kernel) (by decide +kernel) (by decide +kernel) (by decide +kernel)) ∧
    Shown ((h.2.2.2.2.2.1 (queued14 (port14 1 up)) 63 7 (tx14 7 59) (tx14 0 20) (by decide +kernel) (by decide +kernel) (by decide +kernel) (by decide +kernel) (by decide +kernel) (by decide +kernel) (by decide +kernel)).2.2 (by decide +kernel)) ∧
    Shown ((h.2.2.2.2.2.2.1 (port14 2 up) 63 (by decide +kernel)).1) ∧
    Shown (((h.2.2.2.2.2.2.1 (shadow14 5 (port14 2 (all up))) 63 (by decide +kernel)).2 gates14 (by decide +kernel) (by decide +kernel) (by decide +kernel)).1 (by decide +kernel) (by decide +kernel)) ∧
    Shown (((h.2.2.2.2.2.2.1 (shadow14 4 (port14 2 (all up))) 63 (by decide +kernel)).2 gates14 (by decide +kernel) (by decide +kernel) (by decide +kernel)).2 (by decide +kernel)) ∧
    Shown ((h.2.2.2.2.2.2.2 (let s := on [(penDef 63 7, 0xF4F)] (routed14 (raw14 up)); { s with lan := { s.lan with blocks := [(511, 255)] } }) 63 7 255 0xF4F (body14 256) (by decide +kernel) (by decide +kernel) (by decide +kernel)).1 (by decide +kernel) (by decide +kernel) (by decide +kernel) (by decide +kernel) (by decide +kernel) (by decide +kernel) (by decide +kernel)) ∧
    Shown ((h.2.2.2.2.2.2.2 (raw14 up) 63 7 0 0 [] (by decide +kernel) (by decide +kernel) (by decide +kernel)).2 (by decide +kernel)) :=
  ⟨shown _, shown _, shown _, shown _, shown _, shown _, shown _, shown _, shown _, shown _, shown _, shown _, shown _, shown _, shown _, shown _, shown _, shown _, shown _, shown _, shown _, shown _, shown _, shown _, shown _, shown _, shown _, shown _⟩

end C14

namespace C15

/-- Time base 7 runs in a state. -/
def tb15 (st : Nat) (f : TimeBase → TimeBase) (s : State) : State :=
  setTb s 7 (f { tbAt s 7 with core := { run := true, cnt := 5 * 2 ^ 40 + 3, rate := -7, origin := 1000 }, state := st })
def same15 (t : TimeBase) : TimeBase := t
/-- Every source of a time base named, the twin's count ahead. -/
def srcs15 (t : TimeBase) : TimeBase :=
  { t with priKind := 2, priCh := 31, twinKind := 1, priValid := true, twinValid := true, twinLocked := true, everLocked := true, filt := 3,
           twin := { t.core with cnt := 9 * 2 ^ 40, rate := 12 } }
def src15 : List Word := [7, word (2 + 31 * 256), 1, word (1000 + 65535 * 65536), 100000, 1, 77]
def out15 (x : TimeOut) (s : State) : State := setOut 15 x s
/-- A TIME_SET of booth 3 that waits for channel 31. -/
def wait15 (s : State) : State := { s with tu := { s.tu with atEdge := [EdgeSet.mk 3 7 31 (2 ^ 60) 5 (-9)] } }
def key15 (f : State → State) (s : State) : State := (syncKeys (timeKeys s) (f s)).getD s
def ptp15 (p : PtpPort) (s : State) : State := { s with tu := { s.tu with ptp := [(31, some p)] } }
def port15 : PtpPort := { pe := 63, port := 7, tb := 7, domain := 24, clockId := 5, twoStep := true }
/-- Every PTP port enabled, the last one last. -/
def ports15 (s : State) : State :=
  { s with tu := { s.tu with ptp := (upto 32).map (fun i => (i, some { port15 with pe := i, port := 3 })) } }
/-- Every way of every bucket of L3 taken. -/
def ether15 (s : State) : State := on [(penBlk 63 + 0x74, 0x80000000)] s
def ens15 (e : Ensemble) (s : State) : State := { s with tu := { s.tu with ens := e } }
/-- The node ID given. -/
def node15 (v : Nat) (s : State) : State := { s with ward := { s.ward with setVal := [0, 0, v] } }
def peers15 (l : List Peer) (s : State) : State := { s with tu := { s.tu with peers := l } }
def change15 (die tick : Nat) (h : TimeChange) (s : State) : State :=
  { s with tu := { s.tu with tick := 5000, changes := [PendingChange.mk die tick 7 h] } }
/-- A replica that counts. -/
def held15 (s : State) : State :=
  { s with tu := { s.tu with replicas := [(4, { loaded := true, cores := [(7, { run := true, cnt := 2 ^ 45, rate := 3 })] })] } }
def caps15 (n : Nat) (s : State) : State :=
  { s with tu := { s.tu with tick := 100, caps := [(31, { records := List.replicate n (CapRecord.mk 1 2 3 false), last := some 90 })] } }
/-- Pin 95 feeds channel 31. -/
def fed15 (s : State) : State := on [(svpPin 95, 0x00101F00)] s
def sync15 (e : SyncE) (s : State) : State := { s with tu := { s.tu with synce := e } }
def eight15 : List SyncSrc := (upto 8).map (fun i => { lane := 511 - i, prio := i })
def report15 (node seq uncert : Nat) : List Word := [word (1 + 0 * 256 + 0 * 65536 + 0xC3 * 2 ^ 24), word node, word seq, 0, 0, word uncert, 0] ++ List.replicate 9 0
def lane14 (n st mode flags : Nat) (s : State) : State := on [(lanBlk n + 0xC, word (st * 65536 + mode * 256 + flags))] s

theorem test_meets_TimeCommandsChangeWhatTheyName (h : Obligations.TimeCommandsChangeWhatTheyName) :
    Shown ((h.1 (cmd 63 0x0501 [7] (tb15 0xC3 srcs15 up)) 63 7 [7] (by decide +kernel)).1 (by decide +kernel) (by decide +kernel)) ∧
    Shown (((h.1 (cmd 63 0x0502 [7, 9, 255, 1, 2, 0xFFFFFFFF] up) 63 7 [7, 9, 255, 1, 2, 0xFFFFFFFF] (by decide +kernel)).2.1 (by decide +kernel) (.head _) (by decide +kernel)).1 (by decide +kernel)) ∧
    Shown (((h.1 (cmd 63 0x0502 [0x1F0107, 9, 255, 1, 2, 0xFFFFFFFF] (tb15 0xC1 same15 up)) 63 7 [0x1F0107, 9, 255, 1, 2, 0xFFFFFFFF] (by decide +kernel)).2.1 (by decide +kernel) (.tail _ (.head _)) (by decide +kernel)).2 31 (by decide +kernel) (by decide +kernel)) ∧
    Shown (((h.1 (cmd 63 0x0503 [7, 0xC4653600, 100000] (tb15 0xC1 same15 up)) 63 7 [7, 0xC4653600, 100000] (by decide +kernel)).2.2.1 0 (by decide +kernel) (.head _) (by decide +kernel) (by decide +kernel) (by decide +kernel)).1 (.inl (by decide +kernel)) (.inr (by decide +kernel))) ∧
    Shown (((h.1 (cmd 63 0x0503 [7, 0xC46535FF, 100000] (tb15 0xC1 same15 up)) 63 7 [7, 0xC46535FF, 100000] (by decide +kernel)).2.2.1 0 (by decide +kernel) (.head _) (by decide +kernel) (by decide +kernel) (by decide +kernel)).2.1 (.inl (by decide +kernel)) (by decide +kernel) (by decide +kernel)) ∧
    Shown (((h.1 (cmd 16 0x0503 [0x207, 0xC46535FF, 100000] (tb15 0xC6 same15 up)) 16 7 [0x207, 0xC46535FF, 100000] (by decide +kernel)).2.2.1 2 (by decide +kernel) (.tail _ (.head _)) (by decide +kernel) (by decide +kernel) (by decide +kernel)).2.2 (by decide +kernel)) ∧
    Shown (((h.1 (cmd 63 0x0504 src15 (setTb (tb15 0xC2 same15 up) 0 { priKind := 2, priCh := 31 })) 63 7 src15 (by decide +kernel)).2.2.2.1 2 31 1 0 1000 65535 (by decide +kernel) (.tail _ (.head _)) (by decide +kernel) (by decide +kernel) (by decide +kernel) (by decide +kernel) (by decide +kernel) (by decide +kernel) (by decide +kernel) (by decide +kernel) (by decide +kernel) (by decide +kernel) (by decide +kernel) (by decide +kernel) (by decide +kernel) (by decide +kernel)).1 (.inl (by decide +kernel))) ∧
    Shown (((h.1 (cmd 63 0x0504 src15 (tb15 0xC5 same15 up)) 63 7 src15 (by decide +kernel)).2.2.2.1 2 31 1 0 1000 65535 (by decide +kernel) (.tail _ (.tail _ (.tail _ (.tail _ (.head _))))) (by decide +kernel) (by decide +kernel) (by decide +kernel) (by decide +kernel) (by decide +kernel) (by decide +kernel) (by decide +kernel) (by decide +kernel) (by decide +kernel) (by decide +kernel) (by decide +kernel) (by decide +kernel) (by decide +kernel) (by decide +kernel)).2.1 (by decide +kernel) (by decide +kernel) (by decide +kernel)) ∧
    Shown (((h.1 (cmd 63 0x0504 src15 (tb15 0xC6 same15 up)) 63 7 src15 (by decide +kernel)).2.2.2.1 2 31 1 0 1000 65535 (by decide +kernel) (.tail _ (.tail _ (.tail _ (.tail _ (.tail _ (.head _)))))) (by decide +kernel) (by decide +kernel) (by decide +kernel) (by decide +kernel) (by decide +kernel) (by decide +kernel) (by decide +kernel) (by decide +kernel) (by decide +kernel) (by decide +kernel) (by decide +kernel) (by decide +kernel) (by decide +kernel) (by decide +kernel)).2.2 (by decide +kernel) (.inl (by decide +kernel)) (by decide +kernel) (by decide +kernel)) ∧
    Shown (((h.1 (cmd 63 0x0505 [7] (tb15 0xC3 same15 up)) 63 7 [7] (by decide +kernel)).2.2.2.2.1 (by decide +kernel) (by decide +kernel) (by decide +kernel)).1 (by decide +kernel)) ∧
    Shown (((h.1 (cmd 63 0x0505 [7] (tb15 0xC3 (fun t => { srcs15 t with twinSlew := true }) up)) 63 7 [7] (by decide +kernel)).2.2.2.2.1 (by decide +kernel) (by decide +kernel) (by decide +kernel)).2.1 (by decide +kernel) (.inr (by decide +kernel))) ∧
    Shown (((h.1 (cmd 63 0x0505 [7] (tb15 0xC3 srcs15 (all up))) 63 7 [7] (by decide +kernel)).2.2.2.2.1 (by decide +kernel) (by decide +kernel) (by decide +kernel)).2.2 (by decide +kernel) (by decide +kernel) (by decide +kernel) (by decide +kernel)) ∧
    Shown ((h.1 (cmd 63 0x0506 [0x107] (tb15 0xC5 same15 up)) 63 7 [0x107] (by decide +kernel)).2.2.2.2.2.1 1 (by decide +kernel) (.tail _ (.tail _ (.tail _ (.tail _ (.head _))))) (by decide +kernel) (by decide +kernel)) ∧
    Shown (((h.1 (cmd 63 0x0507 [7] (tb15 0xC6 same15 (ptp15 port15 up))) 63 7 [7] (by decide +kernel)).2.2.2.2.2.2.1 (by decide +kernel) (.tail _ (.tail _ (.tail _ (.tail _ (.tail _ (.head _)))))) (by decide +kernel)).1 (by decide +kernel)) ∧
    Shown (((h.1 (cmd 63 0x0507 [7] (tb15 0xC6 same15 up)) 63 7 [7] (by decide +kernel)).2.2.2.2.2.2.1 (by decide +kernel) (.tail _ (.tail _ (.tail _ (.tail _ (.tail _ (.head _)))))) (by decide +kernel)).2 (by decide +kernel)) ∧
    Shown (((h.1 (cmd 63 0x050D [0x490107, 1, 2, 3, 0xF0000004, 5, 6, 7, 8, 0x80000000] (tb15 0xC1 same15 up)) 63 7 [0x490107, 1, 2, 3, 0xF0000004, 5, 6, 7, 8, 0x80000000] (by decide +kernel)).2.2.2.2.2.2.2 73 (by decide +kernel) (.head _) (by decide +kernel)).1 (by decide +kernel)) ∧
    Shown (((h.1 (cmd 63 0x050D [7] (tb15 0xC1 same15 up)) 63 7 [7] (by decide +kernel)).2.2.2.2.2.2.2 73 (by decide +kernel) (.head _) (by decide +kernel)).2 (by decide +kernel)) ∧
    Shown ((h.2.1 (wait15 (during 3 0x0502 up)) 7 (EdgeSet.mk 3 7 31 (2 ^ 60) 5 (-9)) (by decide +kernel) (by decide +kernel)).1 (by decide +kernel)) ∧
    Shown ((h.2.1 (fed15 (wait15 (during 3 0x0502 up))) 31 (EdgeSet.mk 3 7 31 (2 ^ 60) 5 (-9)) (by decide +kernel) (by decide +kernel)).2 (by decide +kernel) (by decide +kernel) (by decide +kernel) (by decide +kernel) (by decide +kernel)) ∧
    Shown ((h.2.2.1 (cmd 63 0x0510 [0x73F, 0xFFF00000, 0x100000] up) 63 63 7 [0x73F, 0xFFF00000, 0x100000] (by decide +kernel) (by decide +kernel)).1 (by decide +kernel) (by decide +kernel) (by decide +kernel) (by decide +kernel)) ∧
    Shown (((h.2.2.1 (cmd 63 0x0508 [0x7073F] (tb15 0xC1 same15 up)) 63 63 7 [0x7073F] (by decide +kernel) (by decide +kernel)).2 7 24 (by decide +kernel) (by decide +kernel) (.head _) (by decide +kernel)).1 (by decide +kernel) (by decide +kernel)) ∧
    Shown (((h.2.2.1 (cmd 63 0x0508 [0x7073F] (tb15 0xC1 same15 (ptp15 port15 up))) 63 63 7 [0x7073F] (by decide +kernel) (by decide +kernel)).2 7 24 (by decide +kernel) (by decide +kernel) (.head _) (by decide +kernel)).2.1 31 (by decide +kernel) (by decide +kernel) _ (Option.some_get (by decide +kernel)).symm) ∧
    Shown ((((h.2.2.1 (cmd 63 0x0508 [0x107073F, 0xFF05FF, 5] (tb15 0xC1 same15 up)) 63 63 7 [0x107073F, 0xFF05FF, 5] (by decide +kernel) (by decide +kernel)).2 7 255 (by decide +kernel) (by decide +kernel) (.head _) (by decide +kernel)).2.2 0xFF05FF (by decide +kernel) (by decide +kernel) (by decide +kernel) (by decide +kernel) (by decide +kernel)).1 (.inr (by decide +kernel))) ∧
    Shown ((((h.2.2.1 (cmd 63 0x0508 [0x107073F, 0xFF0518, 6] (tb15 0xC1 same15 (ports15 up))) 63 63 7 [0x107073F, 0xFF0518, 6] (by decide +kernel) (by decide +kernel)).2 7 24 (by decide +kernel) (by decide +kernel) (.head _) (by decide +kernel)).2.2 0xFF0518 (by decide +kernel) (by decide +kernel) (by decide +kernel) (by decide +kernel) (by decide +kernel)).2.1 (by decide +kernel) (by decide +kernel) (by decide +kernel)) ∧
    Shown ((((h.2.2.1 (cmd 63 0x0508 [0x107073F, 0xFF0718, 5] (tb15 0xC1 same15 up)) 63 63 7 [0x107073F, 0xFF0718, 5] (by decide +kernel) (by decide +kernel)).2 7 24 (by decide +kernel) (by decide +kernel) (.head _) (by decide +kernel)).2.2 0xFF0718 (by decide +kernel) (by decide +kernel) (by decide +kernel) (by decide +kernel) (by decide +kernel)).2.2.1 (by decide +kernel) (by decide +kernel) (by decide +kernel) (by decide +kernel) (by decide +kernel)) ∧
    Shown (((((h.2.2.1 (cmd 63 0x0508 [0x107073F, 0xFF0518, 5] (tb15 0xC1 same15 (ports15 up))) 63 63 7 [0x107073F, 0xFF0518, 5] (by decide +kernel) (by decide +kernel)).2 7 24 (by decide +kernel) (by decide +kernel) (.head _) (by decide +kernel)).2.2 0xFF0518 (by decide +kernel) (by decide +kernel) (by decide +kernel) (by decide +kernel) (by decide +kernel)).2.2.2 (by decide +kernel) (by decide +kernel) (by decide +kernel) (.inl (by decide +kernel))).1 (by decide +kernel) (by decide +kernel)) ∧
    Shown ((((((h.2.2.1 (cmd 63 0x0508 [0x107073F, 0xFF072B, 5] (ether15 (tb15 0xC1 same15 up))) 63 63 7 [0x107073F, 0xFF072B, 5] (by decide +kernel) (by decide +kernel)).2 7 43 (by decide +kernel) (by decide +kernel) (.head _) (by decide +kernel)).2.2 0xFF072B (by decide +kernel) (by decide +kernel) (by decide +kernel) (by decide +kernel) (by decide +kernel)).2.2.2 (by decide +kernel) (by decide +kernel) (by decide +kernel) (.inr (by decide +kernel))).2 0 (.inr ⟨by decide, by decide⟩)).1 _ (Option.some_get (by decide +kernel)).symm) ∧
    Shown ((h.2.2.2 (cmd 63 0x0509 [31] (ptp15 port15 up)) 63 [31]).1 31 port15 (by decide +kernel) (by decide +kernel) (by decide +kernel) (by decide +kernel)) ∧
    Shown (((h.2.2.2 (cmd 63 0x050A [3, 0xF1FF, 0, 0, 0, 0, 0, 0, 0x1000, 720, 1800] up) 63 [3, 0xF1FF, 0, 0, 0, 0, 0, 0, 0x1000, 720, 1800]).2.1 (by decide +kernel) (by decide +kernel) (by decide +kernel) (by decide +kernel) (by decide +kernel) (by decide +kernel)).1 _ (Option.some_get (by decide +kernel)).symm) ∧
    Shown (((h.2.2.2 (cmd 63 0x050E [0x107, 0xFFFF, 1, 0xFF0002, 0xFF07, 100000, 1, 2, 16] (node15 0x3FFFF (tb15 0xC1 same15 up))) 63 [0x107, 0xFFFF, 1, 0xFF0002, 0xFF07, 100000, 1, 2, 16]).2.2.1 7 1 0 0 (by decide +kernel) (by decide +kernel) (by decide +kernel) (by decide +kernel) (.head _) (by decide +kernel) (by decide +kernel) (by decide +kernel) (by decide +kernel) (by decide +kernel) (by decide +kernel) (by decide +kernel) (by decide +kernel) (by decide +kernel) (by decide +kernel)).1 (by decide +kernel) (by decide +kernel)) ∧
    Shown (((h.2.2.2 (cmd 63 0x050E [0x107, 0xFFFF, 1, 0xFF0002, 0xFF07, 100000, 1, 2, 16, 1] (node15 5 (tb15 0xC1 same15 up))) 63 [0x107, 0xFFFF, 1, 0xFF0002, 0xFF07, 100000, 1, 2, 16, 1]).2.2.1 7 1 0 1 (by decide +kernel) (by decide +kernel) (by decide +kernel) (by decide +kernel) (.head _) (by decide +kernel) (by decide +kernel) (by decide +kernel) (by decide +kernel) (by decide +kernel) (by decide +kernel) (by decide +kernel) (by decide +kernel) (by decide +kernel) (by decide +kernel)).2.1 (by decide +kernel) (by decide +kernel) (0, 0) (by decide +kernel) (by decide +kernel)) ∧
    Shown ((((h.2.2.2 (cmd 63 0x050E [0x307, 0xFFFF, 1, 0xFF0002, 0xFF07, 100000, 1, 2, 16] (node15 5 (tb15 0xC1 same15 up))) 63 [0x307, 0xFFFF, 1, 0xFF0002, 0xFF07, 100000, 1, 2, 16]).2.2.1 7 1 1 0 (by decide +kernel) (by decide +kernel) (by decide +kernel) (by decide +kernel) (.head _) (by decide +kernel) (by decide +kernel) (by decide +kernel) (by decide +kernel) (by decide +kernel) (by decide +kernel) (by decide +kernel) (by decide +kernel) (by decide +kernel) (by decide +kernel)).2.2 (.inr ⟨by decide, by decide⟩)).1 _ (Option.some_get (by decide +kernel)).symm) ∧
    Shown (((h.2.2.2 (cmd 63 0x050F [1, 0x3FFFF, 0x80000000] up) 63 [1, 0x3FFFF, 0x80000000]).2.2.2.1 0x3FFFF (by decide +kernel) (by decide +kernel) (by decide +kernel)).1 (by decide +kernel) (by decide +kernel) (by decide +kernel)) ∧
    Shown (((h.2.2.2 (cmd 63 0x050F [1, 0x3FFFF, 0x80000000] (peers15 (List.replicate 64 { node := 1, added := true }) up)) 63 [1, 0x3FFFF, 0x80000000]).2.2.2.1 0x3FFFF (by decide +kernel) (by decide +kernel) (by decide +kernel)).2.1 (by decide +kernel) (by decide +kernel) (by decide +kernel)) ∧
    Shown (((h.2.2.2 (cmd 63 0x050F [1, 1, 0x80000000] (peers15 [{ node := 1, added := false }] up)) 63 [1, 1, 0x80000000]).2.2.2.1 1 (by decide +kernel) (by decide +kernel) (by decide +kernel)).2.2.1 (by decide +kernel) (by decide +kernel)) ∧
    Shown (((h.2.2.2 (cmd 63 0x050F [0, 1] (peers15 [{ node := 1, added := false }] up)) 63 [0, 1]).2.2.2.1 1 (by decide +kernel) (by decide +kernel) (by decide +kernel)).2.2.2.1 (by decide +kernel)) ∧
    Shown (((h.2.2.2 (cmd 63 0x050F [2, 1] (peers15 [{ node := 1, added := false }] up)) 63 [2, 1]).2.2.2.1 1 (by decide +kernel) (by decide +kernel) (by decide +kernel)).2.2.2.2.1 (by decide +kernel) (by decide +kernel)) ∧
    Shown (((h.2.2.2 (cmd 63 0x050F [2, 0] (peers15 [{ node := 1, added := false }] up)) 63 [2, 0]).2.2.2.1 0 (by decide +kernel) (by decide +kernel) (by decide +kernel)).2.2.2.2.2 (by decide +kernel) (by decide +kernel)) ∧
    Shown (((h.2.2.2 (cmd 63 0x050B [0x1371F] (setTb up 0 { priKind := 2, priCh := 31 })) 63 [0x1371F]).2.2.2.2.1 31 7 3 1 (by decide +kernel) (by decide +kernel) (by decide +kernel) (by decide +kernel) (by decide +kernel) (by decide +kernel)).1 (by decide +kernel)) ∧
    Shown (((h.2.2.2 (cmd 63 0x050B [0x1371F] up) 63 [0x1371F]).2.2.2.2.1 31 7 3 1 (by decide +kernel) (by decide +kernel) (by decide +kernel) (by decide +kernel) (by decide +kernel) (by decide +kernel)).2 (by decide +kernel)) ∧
    Shown (((h.2.2.2 (cmd 63 0x050C [0x470F, 1, 2, 0xFFFFFFFB, 9, 255, 8, 0xFFFF, 3] (out15 { next := some 5 } up)) 63 [0x470F, 1, 2, 0xFFFFFFFB, 9, 255, 8, 0xFFFF, 3]).2.2.2.2.2 15 7 4 (by decide +kernel) (by decide +kernel) (by decide +kernel) (by decide +kernel) (by decide +kernel) (by decide +kernel) (by decide +kernel) (by decide +kernel)).1 (by decide +kernel)) ∧
    Shown (((h.2.2.2 (cmd 63 0x050C [0x070F, 1, 2, 0xFFFFFFFB, 9, 255, 8, 0xFFFF, 3] (tb15 0xC1 same15 up)) 63 [0x070F, 1, 2, 0xFFFFFFFB, 9, 255, 8, 0xFFFF, 3]).2.2.2.2.2 15 7 0 (by decide +kernel) (by decide +kernel) (by decide +kernel) (by decide +kernel) (by decide +kernel) (by decide +kernel) (by decide +kernel) (by decide +kernel)).2.1 (by decide +kernel) (.inl (by decide +kernel))) ∧
    Shown (((h.2.2.2 (cmd 63 0x050C [0x270F, 8, 2, 0xFFFFFFFB, 9, 255, 8, 0xFFFF, 3] (tb15 0xC1 same15 up)) 63 [0x270F, 8, 2, 0xFFFFFFFB, 9, 255, 8, 0xFFFF, 3]).2.2.2.2.2 15 7 2 (by decide +kernel) (by decide +kernel) (by decide +kernel) (by decide +kernel) (by decide +kernel) (by decide +kernel) (by decide +kernel) (by decide +kernel)).2.2.1 (by decide +kernel) (by decide +kernel) (.inr (by decide +kernel))) ∧
    Shown ((((h.2.2.2 (cmd 63 0x050C [0x370F, 1, 2, 0xFFFFFFFB, 5, 0, 8, 0xFFFF, 3] (tb15 0xC1 same15 up)) 63 [0x370F, 1, 2, 0xFFFFFFFB, 5, 0, 8, 0xFFFF, 3]).2.2.2.2.2 15 7 3 (by decide +kernel) (by decide +kernel) (by decide +kernel) (by decide +kernel) (by decide +kernel) (by decide +kernel) (by decide +kernel) (by decide +kernel)).2.2.2 (by decide +kernel) (by decide +kernel) (.inl (by decide +kernel))).1 (by decide +kernel)) ∧
    Shown ((((h.2.2.2 (cmd 63 0x050C [0x470F, 1, 2, 0xFFFFFFFB, 4, 0, 8, 0xFFFF, 3] (tb15 0xC1 same15 up)) 63 [0x470F, 1, 2, 0xFFFFFFFB, 4, 0, 8, 0xFFFF, 3]).2.2.2.2.2 15 7 4 (by decide +kernel) (by decide +kernel) (by decide +kernel) (by decide +kernel) (by decide +kernel) (by decide +kernel) (by decide +kernel) (by decide +kernel)).2.2.2 (by decide +kernel) (by decide +kernel) (.inr (by decide +kernel))).2 (by decide +kernel)) :=
  ⟨shown _, shown _, shown _, shown _, shown _, shown _, shown _, shown _, shown _, shown _, shown _, shown _, shown _, shown _, shown _, shown _, shown _, shown _, shown _, shown _, shown _, shown _, shown _, shown _, shown _, shown _, shown _, shown _, shown _, shown _, shown _, shown _, shown _, shown _, shown _, shown _, shown _, shown _, shown _, shown _, shown _, shown _, shown _, shown _, shown _⟩

theorem test_meets_TimeEventsFollowTheRules (h : Obligations.TimeEventsFollowTheRules) :
    Shown ((h.1 { run := true, cnt := 2 ^ 80 - 1, rate := -5, slewRem := 5000, slewPpb := 1 } 3 4).1) ∧
    Shown ((h.1 { run := true, cnt := 2 ^ 80 - 1, rate := 5 } 0 1000).2.1 (by decide +kernel) (by decide +kernel)) ∧
    Shown ((h.1 { run := true, cnt := 2 ^ 80 - 1, rate := 5, slewRem := 2198, slewPpb := 1 } 0 1).2.2 (by decide +kernel) (by decide +kernel) (by decide +kernel)) ∧
    Shown ((h.2.1 (setTb up 7 { core := { run := true, cnt := 2 ^ 80 - 1, origin := 2 ^ 64 - 1, rate := 9 } }) 7 (by decide +kernel) (by decide +kernel)).1 (by decide +kernel) (by decide +kernel) (by decide +kernel) (by decide +kernel) (by decide +kernel) (by decide +kernel)) ∧
    Shown ((h.2.1 (setTb up 7 { core := { run := true, slewRem := -2198, slewPpb := 1 } }) 7 (by decide +kernel) (by decide +kernel)).2 (by decide +kernel) (by decide +kernel)) ∧
    Shown (h.2.2.1 (tb15 0xC1 same15 up) 0xF4F 7 (by decide +kernel) (by decide +kernel)) ∧
    Shown ((h.2.2.2.1 (change15 4 5001 (.rate 9) up) 4 (PendingChange.mk 4 5001 7 (.rate 9)) (by decide +kernel)).1 (by decide +kernel)) ∧
    Shown ((h.2.2.2.1 (change15 4 4999 (.rate 9) (held15 (on [(clkBlk 4, 0x300000)] up))) 4 (PendingChange.mk 4 4999 7 (.rate 9)) (by decide +kernel)).2.1 (by decide +kernel) (by decide +kernel) (by decide +kernel)) ∧
    Shown (((h.2.2.2.1 (change15 0 5000 (.load 7 8 9) (all up)) 0 (PendingChange.mk 0 5000 7 (.load 7 8 9)) (by decide +kernel)).2.2 (by decide +kernel) (by decide +kernel) (by decide +kernel)).1 7 8 9 (by decide +kernel) (by decide +kernel) (by decide +kernel) (by decide +kernel)) ∧
    Shown (((h.2.2.2.1 (change15 0 5000 (.step 7) (tb15 0xC1 same15 (all up))) 0 (PendingChange.mk 0 5000 7 (.step 7)) (by decide +kernel)).2.2 (by decide +kernel) (by decide +kernel) (by decide +kernel)).2.1 7 (by decide +kernel) (by decide +kernel) (by decide +kernel) (by decide +kernel) (by decide +kernel)) ∧
    Shown (((h.2.2.2.1 (change15 0 5000 (.slew (-7) 8) (tb15 0xC1 same15 up)) 0 (PendingChange.mk 0 5000 7 (.slew (-7) 8)) (by decide +kernel)).2.2 (by decide +kernel) (by decide +kernel) (by decide +kernel)).2.2.1 (-7) 8 (by decide +kernel) (by decide +kernel)) ∧
    Shown (((h.2.2.2.1 (change15 0 5000 .stop (tb15 0xC6 same15 (all up))) 0 (PendingChange.mk 0 5000 7 .stop) (by decide +kernel)).2.2 (by decide +kernel) (by decide +kernel) (by decide +kernel)).2.2.2 (by decide +kernel) (by decide +kernel)) ∧
    Shown ((h.2.2.2.2.1 (on [(clkBlk 4, 0x300000)] up) 4 0 (by decide +kernel) (by decide +kernel) (by decide +kernel) (by decide +kernel) (by decide +kernel)).1 (by decide +kernel)) ∧
    Shown ((h.2.2.2.2.1 (tb15 0xC3 same15 (all (on [(clkBlk 4, 0x300000)] up))) 4 (-3) (by decide +kernel) (by decide +kernel) (by decide +kernel) (by decide +kernel) (by decide +kernel)).2 (by decide +kernel) (by decide +kernel)) ∧
    Shown ((h.2.2.2.2.2.1 (caps15 15 (on [(capReg 31 0, 0x701)] (fed15 (tb15 0xC3 same15 up)))) 31 7 false (by decide +kernel) (by decide +kernel) (by decide +kernel) (by decide +kernel) (by decide +kernel) (by decide +kernel) (by decide +kernel) (by decide +kernel)).1 (by decide +kernel)) ∧
    Shown ((h.2.2.2.2.2.1 (caps15 16 (on [(capReg 31 0, 0x702)] (fed15 (tb15 0xC3 same15 (all up))))) 31 7 true (by decide +kernel) (by decide +kernel) (by decide +kernel) (by decide +kernel) (by decide +kernel) (by decide +kernel) (by decide +kernel) (by decide +kernel)).2.1 (by decide +kernel) (by decide +kernel)) ∧
    Shown ((h.2.2.2.2.2.1 (caps15 16 (on [(capReg 31 0, 0x702)] (fed15 (tb15 0xC3 same15 (all up))))) 31 7 true (by decide +kernel) (by decide +kernel) (by decide +kernel) (by decide +kernel) (by decide +kernel) (by decide +kernel) (by decide +kernel) (by decide +kernel)).2.2) ∧
    Shown ((h.2.2.2.2.2.2.1 (out15 { cfg := { tb := 7, mode := 1, period := 9, width := 3, addr := 0x1234, data := 5 }, next := some 1006, high := false, armed := true } (tb15 0xC3 same15 up)) 15 7 1006 (by decide +kernel) (by decide +kernel) (by decide +kernel) (by decide +kernel) (by decide +kernel)).1 (by decide +kernel)) ∧
    Shown ((h.2.2.2.2.2.2.1 (out15 { cfg := { tb := 7, mode := 4, period := 9, width := 3, addr := 0x1234, data := 5 }, next := some 1005, high := false, armed := true } (tb15 0xC3 same15 up)) 15 7 1005 (by decide +kernel) (by decide +kernel) (by decide +kernel) (by decide +kernel) (by decide +kernel)).2.1 (by decide +kernel) (by decide +kernel)) ∧
    Shown ((h.2.2.2.2.2.2.1 (out15 { cfg := { tb := 7, mode := 2, period := 9, width := 3, addr := 0x1234, data := 5 }, next := some 1005, high := false, armed := true } (tb15 0xC3 same15 up)) 15 7 1005 (by decide +kernel) (by decide +kernel) (by decide +kernel) (by decide +kernel) (by decide +kernel)).2.2.1 (by decide +kernel) (.tail _ (.head _)) (by decide +kernel)) ∧
    Shown ((h.2.2.2.2.2.2.1 (out15 { cfg := { tb := 7, mode := 3, period := 9, width := 3, addr := 0x1234, data := 5 }, next := some 1005, high := true, armed := true } (tb15 0xC3 same15 up)) 15 7 1005 (by decide +kernel) (by decide +kernel) (by decide +kernel) (by decide +kernel) (by decide +kernel)).2.2.2 (by decide +kernel) (by decide +kernel) (by decide +kernel)) ∧
    Shown ((h.2.2.2.2.2.2.2.1 (tb15 0xC1 (srcs15) (all up)) 7 5 (-999999999) (-3) 2 (by decide +kernel) (by decide +kernel) (by decide +kernel) (by decide +kernel)).1 (by decide +kernel) (by decide +kernel) (by decide +kernel)) ∧
    Shown ((h.2.2.2.2.2.2.2.1 (tb15 0xC5 (srcs15) (all up)) 7 5 (-999999999) (-3) 2 (by decide +kernel) (by decide +kernel) (by decide +kernel) (by decide +kernel)).2.1 (.inr (by decide +kernel)) (by decide +kernel)) ∧
    Shown ((h.2.2.2.2.2.2.2.1 (tb15 0xC3 (fun t => { srcs15 t with outCount := 15 }) (all up)) 7 5 (-999999999) (-3) 2 (by decide +kernel) (by decide +kernel) (by decide +kernel) (by decide +kernel)).2.2.1 (.inr (by decide +kernel))) ∧
    Shown ((h.2.2.2.2.2.2.2.1 (tb15 0xC3 (srcs15) (all up)) 7 5 (-999999999) (-3) 2 (by decide +kernel) (by decide +kernel) (by decide +kernel) (by decide +kernel)).2.2.2.1 (by decide +kernel) (by decide +kernel)) ∧
    Shown ((h.2.2.2.2.2.2.2.1 (tb15 0xC2 (fun t => { srcs15 t with inside := true }) (all up)) 7 5 (-999999999) (-3) 2 (by decide +kernel) (by decide +kernel) (by decide +kernel) (by decide +kernel)).2.2.2.2.1 (by decide +kernel) (by decide +kernel) (by decide +kernel)) ∧
    Shown ((h.2.2.2.2.2.2.2.1 (tb15 0xC2 (fun t => { srcs15 t with twinInside := true }) (all up)) 7 5 (-999999999) (-3) 2 (by decide +kernel) (by decide +kernel) (by decide +kernel) (by decide +kernel)).2.2.2.2.2.1 (by decide +kernel) (by decide +kernel) (by decide +kernel)) ∧
    Shown (((h.2.2.2.2.2.2.2.1 (tb15 0xC3 (fun t => { srcs15 t with everLocked := false }) (all up)) 7 5 (-999999999) (-3) 2 (by decide +kernel) (by decide +kernel) (by decide +kernel) (by decide +kernel)).2.2.2.2.2.2 9 (by decide +kernel) (by decide +kernel) (by decide +kernel) (by decide +kernel) (by decide +kernel)).1 (by decide +kernel)) ∧
    Shown (((h.2.2.2.2.2.2.2.1 (tb15 0xC3 (fun t => { srcs15 t with twinLocked := false }) (all up)) 7 5 (-999999999) (-3) 2 (by decide +kernel) (by decide +kernel) (by decide +kernel) (by decide +kernel)).2.2.2.2.2.2 9 (by decide +kernel) (by decide +kernel) (by decide +kernel) (by decide +kernel) (by decide +kernel)).2.1 (by decide +kernel) (by decide +kernel)) ∧
    Shown (((h.2.2.2.2.2.2.2.1 (tb15 0xC3 (srcs15) (all up)) 7 5 (-999999999) (-3) 2 (by decide +kernel) (by decide +kernel) (by decide +kernel) (by decide +kernel)).2.2.2.2.2.2 9 (by decide +kernel) (by decide +kernel) (by decide +kernel) (by decide +kernel) (by decide +kernel)).2.2 (by decide +kernel) (by decide +kernel)) ∧
    Shown ((h.2.2.2.2.2.2.2.2.1 (tb15 0xC3 (fun t => { t with model := { lockedSecs := 14400 } }) up) 7 (by decide +kernel) (by decide +kernel)).1 1 2 3 4 5 6 7 (by decide +kernel) (by decide +kernel)) ∧
    Shown (((h.2.2.2.2.2.2.2.2.1 (tb15 0xC4 (fun t => { t with u0 := 3, lostSecs := 9, limitRaised := true }) up) 7 (by decide +kernel) (by decide +kernel)).2 (by decide +kernel) (by decide +kernel) (by decide +kernel)).1 (by decide +kernel)) ∧
    Shown (((h.2.2.2.2.2.2.2.2.1 (tb15 0xC4 (fun t => { t with u0 := 3, lostSecs := 9, limitRaised := true, rateL := 77, yL := 5, model := { valid := true, y0 := 10 ^ 9, a := 4, c1 := 5, t0 := 6, sigmaY := 7, sigmaA := 8, age := 9 } }) up) 7 (by decide +kernel) (by decide +kernel)).2 (by decide +kernel) (by decide +kernel) (by decide +kernel)).2 (by decide +kernel) (by decide +kernel)) ∧
    Shown ((h.2.2.2.2.2.2.2.2.2.1 (ptp15 port15 up) 31 port15 (by decide +kernel) (by decide +kernel)).1 5 6 7 (.tail _ (.tail _ (.head _)))) ∧
    Shown ((h.2.2.2.2.2.2.2.2.2.1 (ptp15 port15 up) 31 port15 (by decide +kernel) (by decide +kernel)).2.1 5 6 (by decide +kernel)) ∧
    Shown ((h.2.2.2.2.2.2.2.2.2.1 (ptp15 { port15 with portState := 9 } up) 31 { port15 with portState := 9 } (by decide +kernel) (by decide +kernel)).2.2.1 (-6) (by decide +kernel)) ∧
    Shown ((h.2.2.2.2.2.2.2.2.2.1 (ptp15 { port15 with portState := 6 } up) 31 { port15 with portState := 6 } (by decide +kernel) (by decide +kernel)).2.2.2 (by decide +kernel)) ∧
    Shown ((h.2.2.2.2.2.2.2.2.2.2.1 (sync15 { enable := true, srcs := eight15, sel := 6 } up) (by decide +kernel) (by decide +kernel)).1 7 255 (by decide +kernel) (by decide +kernel) (by decide +kernel) (by decide +kernel)) ∧
    Shown ((h.2.2.2.2.2.2.2.2.2.2.1 (sync15 { enable := true, srcs := eight15, sel := 7, qlOn := true, ports := 1 } (all up)) (by decide +kernel) (by decide +kernel)).2.1 7 255 (by decide +kernel) (by decide +kernel) (by decide +kernel) (by decide +kernel) (by decide +kernel) (by decide +kernel)) ∧
    Shown ((h.2.2.2.2.2.2.2.2.2.2.1 (sync15 { enable := true, srcs := eight15, sel := 7 } up) (by decide +kernel) (by decide +kernel)).2.2.1 7 (by decide +kernel) (by decide +kernel)) ∧
    Shown ((h.2.2.2.2.2.2.2.2.2.2.1 (sync15 { enable := true, srcs := eight15, ports := 2 ^ 511 } up) (by decide +kernel) (by decide +kernel)).2.2.2.1 (by decide +kernel)) ∧
    Shown ((h.2.2.2.2.2.2.2.2.2.2.1 (sync15 { enable := true, srcs := eight15, sel := 0xF } (lane14 510 0xB1 5 0 (on [(clkBlk 4, word (0x80000010 + 0x30 * 65536))] up))) (by decide +kernel) (by decide +kernel)).2.2.2.2.1 1 (by decide +kernel) (by decide +kernel) (by decide +kernel) (by decide +kernel) (by decide +kernel) (by decide +kernel)) ∧
    Shown ((h.2.2.2.2.2.2.2.2.2.2.1 (sync15 { enable := true, srcs := eight15, sel := 7 } up) (by decide +kernel) (by decide +kernel)).2.2.2.2.2 (by decide +kernel) (by decide +kernel) (by decide +kernel)) ∧
    Shown ((h.2.2.2.2.2.2.2.2.2.2.2 (ens15 { enable := true, seq := 65535, ports := 2 ^ 511 + 1 } (node15 5 up)) (by decide +kernel)).1 [(511, 77)] (by decide +kernel) (by decide +kernel)) ∧
    Shown (((h.2.2.2.2.2.2.2.2.2.2.2 (ens15 { enable := true } (node15 5 up)) (by decide +kernel)).2.1 63 7 1 2 [2] (by decide +kernel) (by decide +kernel)).1 (by decide +kernel)) ∧
    Shown (((h.2.2.2.2.2.2.2.2.2.2.2 (ens15 { enable := true } (node15 5 (all up))) (by decide +kernel)).2.1 63 7 1 2 (report15 5 1 7) (by decide +kernel) (by decide +kernel)).2.1 (by decide +kernel) (by decide +kernel) (by decide +kernel)) ∧
    Shown (((h.2.2.2.2.2.2.2.2.2.2.2 (peers15 [{ node := 6, added := false, st := 1 }] (ens15 { enable := true } (node15 5 up))) (by decide +kernel)).2.1 63 7 1 2 (report15 6 1 7) (by decide +kernel) (by decide +kernel)).2.2.1 { node := 6, added := false, st := 1 } (by decide +kernel) (by decide +kernel) (by decide +kernel) (by decide +kernel)) ∧
    Shown (((h.2.2.2.2.2.2.2.2.2.2.2 (ens15 { enable := true, learn := true } (node15 5 up)) (by decide +kernel)).2.1 63 7 1 2 (report15 6 1 7) (by decide +kernel) (by decide +kernel)).2.2.2 (by decide +kernel) (by decide +kernel) (by decide +kernel) (by decide +kernel)) ∧
    Shown ((h.2.2.2.2.2.2.2.2.2.2.2 (peers15 [{ node := 6, added := false, st := 3 }] (ens15 { enable := true } up)) (by decide +kernel)).2.2.1 { node := 6, added := false, st := 3 } (by decide +kernel)) ∧
    Shown (((h.2.2.2.2.2.2.2.2.2.2.2 (tb15 0xC4 (fun t => { t with u0 := 100, errEst := 3, enSecs := 60, rateL := 5, slewPpb := 9  }) (peers15 [{ node := 6, added := false, st := 2, uncert := 40, x := 512 * 30 }] (ens15 { enable := true, tb := 7, minPeers := 1, delay := 60 } (all up)))) (by decide +kernel)).2.2.2 (by decide +kernel)).1 (by decide +kernel) (by decide +kernel) (by decide +kernel)) ∧
    Shown (((h.2.2.2.2.2.2.2.2.2.2.2 (tb15 0xC5 (fun t => { t with u0 := 100, errEst := 3, enSecs := 60, rateL := 5, slewPpb := 9  }) (peers15 [] (ens15 { enable := true, tb := 7, minPeers := 1, delay := 60 } (all up)))) (by decide +kernel)).2.2.2 (by decide +kernel)).2.1 (by decide +kernel) (by decide +kernel)) ∧
    Shown (((h.2.2.2.2.2.2.2.2.2.2.2 (tb15 0xC5 (fun t => { t with u0 := 100, errEst := 3, enSecs := 60, rateL := 5, slewPpb := 9  }) (peers15 [{ node := 6, added := false, st := 2, uncert := 40, x := 512 * 30 }] (ens15 { enable := true, tb := 7, minPeers := 1, delay := 60 } (all up)))) (by decide +kernel)).2.2.2 (by decide +kernel)).2.2 { node := 6, added := false, st := 2, uncert := 40, x := 512 * 30 } (by decide +kernel) (by decide +kernel) (by decide +kernel) (by decide +kernel) (by decide +kernel) (by decide +kernel) (by decide +kernel) (by decide +kernel)) :=
  ⟨shown _, shown _, shown _, shown _, shown _, shown _, shown _, shown _, shown _, shown _, shown _, shown _, shown _, shown _, shown _, shown _, shown _, shown _, shown _, shown _, shown _, shown _, shown _, shown _, shown _, shown _, shown _, shown _, shown _, shown _, shown _, shown _, shown _, shown _, shown _, shown _, shown _, shown _, shown _, shown _, shown _, shown _, shown _, shown _, shown _, shown _, shown _, shown _, shown _, shown _, shown _, shown _⟩

end C15

namespace C16

/-- An epoch of 1 ms with a package energy in microjoules, and a rung in force. -/
def epoch16 (uj rung : Nat) (f : Tally → Tally) (s : State) : State :=
  tal16 f (setEnergy 57 uj (on [(talStatus, word rung)] s))
def reg16 (x : RegEntry) (s : State) : State := tal16 (fun t => { t with regs := [(31, x)] }) s
def fan16 (x : Fan) (s : State) : State := tal16 (fun t => { t with fans := [(3, { enable := true }), (7, x)] }) s
def plan16 (tb : Word) : List Word := [720000, 200000, 60000, tb, 100000, word (2 + 98 * 256 + 65535 * 65536), 512, 0xFFFFFF, 0, 0, 0, 0, 0, 0, 0, 0xFFF, 0xFFFF, 1, 0x73F, 5]
/-- Time base 7 runs. -/
def tb16 (s : State) : State := setTb s 7 { core := { run := true }, state := 0xC1 }

theorem test_meets_TallyMeasuresPlansAndLimits (h : Obligations.TallyMeasuresPlansAndLimits) :
    Shown (h.1 (on [(clkBlk 4, 0x330000), (memBlk 15, 0x93)] up) [0, 0, 0, 0, 0, 0, 0, 800] [1, 1, 1, 1, 1, 1, 1, 9999] (List.replicate 41 (some 719) ++ [none, none, some 700] ++ List.replicate 14 (some 681)) (by decide +kernel) (by decide +kernel) (by decide +kernel)) ∧
    Shown (h.2.1 (epoch16 720000 0 (fun t => { t with allow := [0, 1, 0, 0, 0, 0, 0, 1], fabClass := [(3, 7)] }) (on [(eReg 7, 500)] (all up))) [] (by decide +kernel) (by decide +kernel) (by decide +kernel) (by decide +kernel) (by decide +kernel) (by decide +kernel) (by decide +kernel) (by decide +kernel) (by decide +kernel) (by decide +kernel) (by decide +kernel) (by decide +kernel)) ∧
    Shown (h.2.1 (epoch16 720000 6 (fun t => t) (on [(talBase + 0x18, 0x80101234), (talBase + 0x1C, 0xFFFFFFFF)] (all up))) [] (by decide +kernel) (by decide +kernel) (by decide +kernel) (by decide +kernel) (by decide +kernel) (by decide +kernel) (by decide +kernel) (by decide +kernel) (by decide +kernel) (by decide +kernel) (by decide +kernel) (by decide +kernel)) ∧
    Shown (h.2.1 (epoch16 5 2 (fun t => { t with undoCount := 99, heldLadder := 0xFE }) up) [] (by decide +kernel) (by decide +kernel) (by decide +kernel) (by decide +kernel) (by decide +kernel) (by decide +kernel) (by decide +kernel) (by decide +kernel) (by decide +kernel) (by decide +kernel) (by decide +kernel) (by decide +kernel)) ∧
    Shown (h.2.1 (epoch16 700000 2 (fun t => { t with undoCount := 99, heldLadder := 0xFE }) up) [] (by decide +kernel) (by decide +kernel) (by decide +kernel) (by decide +kernel) (by decide +kernel) (by decide +kernel) (by decide +kernel) (by decide +kernel) (by decide +kernel) (by decide +kernel) (by decide +kernel) (by decide +kernel)) ∧
    Shown ((h.2.2.1 (reg16 { valid := true, rail := 47, fails := 2 } (all up)) 31 1000 2000 65535 (-5) (by decide +kernel) (by decide +kernel) (by decide +kernel) (by decide +kernel) (by decide +kernel)).1 (by decide +kernel)) ∧
    Shown ((h.2.2.1 (reg16 { valid := true, rail := 47, fails := 1 } (all up)) 31 1000 2000 65535 (-5) (by decide +kernel) (by decide +kernel) (by decide +kernel) (by decide +kernel) (by decide +kernel)).2.1 (by decide +kernel)) ∧
    Shown ((h.2.2.1 (reg16 { valid := true, rail := 47, fails := 2 } (all up)) 31 1000 2000 65535 (-5) (by decide +kernel) (by decide +kernel) (by decide +kernel) (by decide +kernel) (by decide +kernel)).2.2 (by decide +kernel) (by decide +kernel)) ∧
    Shown ((h.2.2.2.1 (fan16 { enable := true } (all up)) 7 100 (by decide +kernel) (by decide +kernel) (by decide +kernel)).1 (by decide +kernel) (by decide +kernel)) ∧
    Shown ((h.2.2.2.1 (fan16 { enable := true, fault := true } (all up)) 7 100 (by decide +kernel) (by decide +kernel) (by decide +kernel)).2) ∧
    Shown (h.2.2.2.2.1 (-5, 20) (30, 90) [] (-40) (by decide +kernel)) ∧
    Shown (h.2.2.2.2.2.1 (-5, 20) (30, 90) 239 (by decide +kernel) (by decide +kernel) (by decide +kernel) (by decide +kernel)) ∧
    Shown (h.2.2.2.2.2.2.1 (tal16 (fun t => { t with supply := 2, tEl := 600000000, eRem := 5, tOut := 600 }) (all up)) (by decide +kernel) (by decide +kernel) (by decide +kernel) (by decide +kernel)) ∧
    Shown ((h.2.2.2.2.2.2.2 (cmd 63 0x0601 [] (tal16 (fun t => { t with lastRecord := List.replicate 16 7 }) up)) 63 []).1 (by decide +kernel) (by decide +kernel)) ∧
    Shown (((h.2.2.2.2.2.2.2 (cmd 63 0x0602 [0] up) 63 [0]).2.1 (by decide +kernel)).1 0 (by decide +kernel)) ∧
    Shown (((h.2.2.2.2.2.2.2 (cmd 63 0x0602 [720001] up) 63 [720001]).2.1 (by decide +kernel)).2.1 (.inr (by decide +kernel))) ∧
    Shown (((h.2.2.2.2.2.2.2 (cmd 63 0x0602 [720000, 0, 0, 7, 100001] up) 63 [720000, 0, 0, 7, 100001]).2.1 (by decide +kernel)).2.2.1 (by decide +kernel) (by decide +kernel) (by decide +kernel) (.inr (by decide +kernel))) ∧
    Shown (((h.2.2.2.2.2.2.2 (cmd 63 0x0602 (plan16 7) up) 63 (plan16 7)).2.1 (by decide +kernel)).2.2.2.1 (by decide +kernel) (by decide +kernel)) ∧
    Shown (((h.2.2.2.2.2.2.2 (tb16 (cmd 63 0x0602 (plan16 7) up)) 63 (plan16 7)).2.1 (by decide +kernel)).2.2.2.2 (by decide +kernel) (by decide +kernel) (by decide +kernel) (by decide +kernel)) ∧
    Shown (((h.2.2.2.2.2.2.2 (cmd 63 0x0603 [0xFFFFFFFF, 720000, 1, 2, 3, 4, 5, 720000] up) 63 [0xFFFFFFFF, 720000, 1, 2, 3, 4, 5, 720000]).2.2.1 (by decide +kernel)).1 (by decide +kernel)) ∧
    Shown (((h.2.2.2.2.2.2.2 (cmd 63 0x0603 [0xFFFFFFFF, 720001] up) 63 [0xFFFFFFFF, 720001]).2.2.1 (by decide +kernel)).2 (by decide +kernel)) ∧
    Shown (((h.2.2.2.2.2.2.2 (cmd 63 0x0604 [2, 0, 2376000, 7200, 600] (tal16 (fun t => { t with threat := true, plan := { t.plan with base := 330000 } }) (all up))) 63 [2, 0, 2376000, 7200, 600]).2.2.2.1 (by decide +kernel) (by decide +kernel) (by decide +kernel) (by decide +kernel)).1 (by decide +kernel)) ∧
    Shown (((h.2.2.2.2.2.2.2 (cmd 63 0x0604 [2, 0, 2191000, 14400, 1] (tal16 (fun t => { t with plan := { t.plan with base := 152153 } }) (on [(talStatus, 6)] (all up)))) 63 [2, 0, 2191000, 14400, 1]).2.2.2.1 (by decide +kernel) (by decide +kernel) (by decide +kernel) (by decide +kernel)).2 (by decide +kernel) (by decide +kernel)) ∧
    Shown (((h.2.2.2.2.2.2.2 (cmd 63 0x0605 ([0xF7654321, 0x87654321] ++ List.replicate 8 0x12345678 ++ List.replicate 16 720000) up) 63 ([0xF7654321, 0x87654321] ++ List.replicate 8 0x12345678 ++ List.replicate 16 720000)).2.2.2.2.1 (by decide +kernel)).1 (by decide +kernel)) ∧
    Shown (((h.2.2.2.2.2.2.2 (cmd 63 0x0605 (List.replicate 10 0 ++ [720001]) up) 63 (List.replicate 10 0 ++ [720001])).2.2.2.2.1 (by decide +kernel)).2 (by decide +kernel)) ∧
    Shown (((h.2.2.2.2.2.2.2 (cmd 63 0x0606 [0x11F, 0xFF7F03, 47, 1000] up) 63 [0x11F, 0xFF7F03, 47, 1000]).2.2.2.2.2.1 31 1 3 127 255 47 (by decide +kernel) (by decide +kernel) (by decide +kernel) (by decide +kernel) (by decide +kernel) (by decide +kernel) (by decide +kernel) (by decide +kernel) (by decide +kernel) (by decide +kernel)).1 (.inl (by decide +kernel)) (by decide +kernel) (by decide +kernel)) ∧
    Shown (((h.2.2.2.2.2.2.2 (cmd 63 0x0606 [0x11F, 0xFF7F03, 48, 1000] up) 63 [0x11F, 0xFF7F03, 48, 1000]).2.2.2.2.2.1 31 1 3 127 255 48 (by decide +kernel) (by decide +kernel) (by decide +kernel) (by decide +kernel) (by decide +kernel) (by decide +kernel) (by decide +kernel) (by decide +kernel) (by decide +kernel) (by decide +kernel)).2 (.inr (by decide +kernel))) ∧
    Shown (((h.2.2.2.2.2.2.2 (cmd 63 0x0607 [31, 0x101, 5] up) 63 [31, 0x101, 5]).2.2.2.2.2.2.1 31 1 5 true true true (by decide +kernel) (by decide +kernel) (by decide +kernel) (by decide +kernel) (by decide +kernel)).1 (by decide +kernel)) ∧
    Shown (((h.2.2.2.2.2.2.2 (cmd 63 0x0607 [31, 0x103, 5] (reg16 { valid := true } up)) 63 [31, 0x103, 5]).2.2.2.2.2.2.1 31 3 5 true true true (by decide +kernel) (by decide +kernel) (by decide +kernel) (by decide +kernel) (by decide +kernel)).2.1 (by decide +kernel) (.inr (.inl (by decide +kernel)))) ∧
    Shown (((h.2.2.2.2.2.2.2 (cmd 63 0x0607 [31, 0x21, 5] (reg16 { valid := true, rail := 40 } up)) 63 [31, 0x21, 5]).2.2.2.2.2.2.1 31 0x21 5 false true false (by decide +kernel) (by decide +kernel) (by decide +kernel) (by decide +kernel) (by decide +kernel)).2.2.1 (by decide +kernel) (by decide +kernel) (by decide +kernel) (by decide +kernel)) ∧
    Shown ((((h.2.2.2.2.2.2.2 (cmd 63 0x0607 [31, 0x21, 5] (reg16 { valid := true, rail := 40 } up)) 63 [31, 0x21, 5]).2.2.2.2.2.2.1 31 0x21 65536 false true true (by decide +kernel) (by decide +kernel) (by decide +kernel) (by decide +kernel) (by decide +kernel)).2.2.2 (by decide +kernel) (.inr (.inr ⟨by decide, by decide, by decide, by decide⟩))).1 (by decide +kernel)) ∧
    Shown ((((h.2.2.2.2.2.2.2 (cmd 63 0x0607 [31, 0x18D, 5] (reg16 { valid := true, rail := 40 } up)) 63 [31, 0x18D, 5]).2.2.2.2.2.2.1 31 0x8D 65536 true false true (by decide +kernel) (by decide +kernel) (by decide +kernel) (by decide +kernel) (by decide +kernel)).2.2.2 (by decide +kernel) (.inl ⟨by decide, by decide⟩)).2 (by decide +kernel)) ∧
    Shown (((h.2.2.2.2.2.2.2 (cmd 63 0x0608 [0x107, 1, 2, 0x3FF, 0x64FFFE, 0x64FFFF, 0, 0x647FFF] up) 63 [0x107, 1, 2, 0x3FF, 0x64FFFE, 0x64FFFF, 0, 0x647FFF]).2.2.2.2.2.2.2.1 7 1 (by decide +kernel) (by decide +kernel) (by decide +kernel) (by decide +kernel) (by decide +kernel) (by decide +kernel)).1 (by decide +kernel) (by decide +kernel) (by decide +kernel)) ∧
    Shown (((h.2.2.2.2.2.2.2 (cmd 63 0x0608 [0x107, 1, 2, 0x3FF, 0x64FFFE, 0x64FFFE, 0, 0x647FFF] up) 63 [0x107, 1, 2, 0x3FF, 0x64FFFE, 0x64FFFE, 0, 0x647FFF]).2.2.2.2.2.2.2.1 7 1 (by decide +kernel) (by decide +kernel) (by decide +kernel) (by decide +kernel) (by decide +kernel) (by decide +kernel)).2 (by decide +kernel)) ∧
    Shown (((h.2.2.2.2.2.2.2 (setEnergy 47 (2 ^ 40 + 5) (cmd 63 0x0609 [0] up)) 63 [0]).2.2.2.2.2.2.2.2 (by decide +kernel)).1 (by decide +kernel)) ∧
    Shown (((h.2.2.2.2.2.2.2 (setEnergy 57 (2 ^ 40 + 5) (cmd 63 0x0609 [1] up)) 63 [1]).2.2.2.2.2.2.2.2 (by decide +kernel)).2.1 (by decide +kernel)) ∧
    Shown (((h.2.2.2.2.2.2.2 (cmd 63 0x0609 [2] up) 63 [2]).2.2.2.2.2.2.2.2 (by decide +kernel)).2.2.1 (by decide +kernel)) ∧
    Shown (((h.2.2.2.2.2.2.2 (fan16 { enable := true, rpm := 65535, duty := 100, fault := true } (cmd 63 0x0609 [3] up)) 63 [3]).2.2.2.2.2.2.2.2 (by decide +kernel)).2.2.2.1 (by decide +kernel)) ∧
    Shown (((h.2.2.2.2.2.2.2 (cmd 63 0x0609 [4] up) 63 [4]).2.2.2.2.2.2.2.2 (by decide +kernel)).2.2.2.2 (by decide +kernel)) :=
  ⟨shown _, shown _, shown _, shown _, shown _, shown _, shown _, shown _, shown _, shown _, shown _, shown _, shown _, shown _, shown _, shown _, shown _, shown _, shown _, shown _, shown _, shown _, shown _, shown _, shown _, shown _, shown _, shown _, shown _, shown _, shown _, shown _, shown _, shown _, shown _, shown _, shown _, shown _, shown _⟩

end C16

namespace C17

/-- Pins with a function and index, and the pads of SP95 driven. -/
def pins17 (l : List (Nat × Nat)) (s : State) : State := on (l.map (fun e => (svpPin e.1, word e.2))) s
def uart17 (u : Uart) (s : State) : State := setUart 1 u s
/-- The serial ports run. -/
def clocked17 (s : State) : State := on [(clkBlk 0 + 0x10, 0xFFFFFFFF)] s
def stopped17 (s : State) : State := on [(clkBlk 0 + 0x10, 0)] s
def tw17 (s : State) : State := pins17 [(94, 0x20508), (95, 0x30508)] s
def spi17 (s : State) : State := pins17 [(4, 0x50109), (5, 0x60109), (6, 0x70109), (7, 0x80709)] s
def ser17 (s : State) : State := pins17 [(94, 0x90108), (95, 0xA0108)] s
def twArgs17 : List Word := [0x10205, 0x50, 0x1000003, 0x00FF0201]
def twArgs17u : List Word := [0x10203, 0x50, 0x1000003, 0x00FF0201]
/-- A regulator entry uses TW3. -/
def tal17 (s : State) : State := { s with tal := { s.tal with regs := [(0, { valid := true, master := 3 })] } }

theorem test_meets_PinsSwitchFeedAndDrive (h : Obligations.PinsSwitchFeedAndDrive) :
    Shown (h.1 (pins17 [(95, 0x40000009)] up) (.host 1) true 5 0xFFFFFFFF (by decide +kernel) (by decide +kernel)) ∧
    Shown (h.1 (pins17 [(95, 0x40000009)] up) .warden false 5 0x8000FFFF (by decide +kernel) (by decide +kernel)) ∧
    Shown ((h.2.1 (cmd 63 0x0B02 [1, 3, 0x9] (up)) 63 3 0x9 [1, 3, 0x9] (by decide +kernel) (by decide +kernel) (by decide +kernel) (by decide +kernel) (by decide +kernel) (by decide +kernel) (by decide +kernel)).1 (by decide +kernel)) ∧
    Shown ((h.2.1 (cmd 63 0x0B02 [1, 4, 0xD0009] (up)) 63 4 0xD0009 [1, 4, 0xD0009] (by decide +kernel) (by decide +kernel) (by decide +kernel) (by decide +kernel) (by decide +kernel) (by decide +kernel) (by decide +kernel)).2.1 (.inl (by decide +kernel))) ∧
    Shown (((h.2.1 (cmd 63 0x0B02 [1, 95, 0x20609] (up)) 63 95 0x20609 [1, 95, 0x20609] (by decide +kernel) (by decide +kernel) (by decide +kernel) (by decide +kernel) (by decide +kernel) (by decide +kernel) (by decide +kernel)).2.2 6 (by decide +kernel) ((.tail _ (.head _)))).1 (by decide +kernel)) ∧
    Shown (((h.2.1 (cmd 63 0x0B02 [1, 63, 0x101F09] (up)) 63 63 0x101F09 [1, 63, 0x101F09] (by decide +kernel) (by decide +kernel) (by decide +kernel) (by decide +kernel) (by decide +kernel) (by decide +kernel) (by decide +kernel)).2.2 32 (by decide +kernel) ((.tail _ (.tail _ (.tail _ (.tail _ (.tail _ (.tail _ (.tail _ (.tail _ (.tail _ (.tail _ (.tail _ (.head _)))))))))))))).2.1 (by decide +kernel) (by decide +kernel) (by decide +kernel)) ∧
    Shown ((((h.2.1 (cmd 16 0x0B02 [1, 64, 0x40101F09] (up)) 16 64 0x40101F09 [1, 64, 0x40101F09] (by decide +kernel) (by decide +kernel) (by decide +kernel) (by decide +kernel) (by decide +kernel) (by decide +kernel) (by decide +kernel)).2.2 32 (by decide +kernel) ((.tail _ (.tail _ (.tail _ (.tail _ (.tail _ (.tail _ (.tail _ (.tail _ (.tail _ (.tail _ (.tail _ (.head _)))))))))))))).2.2 (by decide +kernel) (.inr (by decide +kernel))).1 (.inl (by decide +kernel)) (.inl (by decide +kernel))) ∧
    Shown ((((h.2.1 (cmd 63 0x0B02 [1, 95, 0x9] (pins17 [(95, 0x20309)] (tal17 up))) 63 95 0x9 [1, 95, 0x9] (by decide +kernel) (by decide +kernel) (by decide +kernel) (by decide +kernel) (by decide +kernel) (by decide +kernel) (by decide +kernel)).2.2 1 (by decide +kernel) ((.head _))).2.2 (by decide +kernel) (.inl (by decide +kernel))).2 (.inl (by decide +kernel)) |>.1 (by decide +kernel) (.inl (by decide +kernel))) ∧
    Shown ((((h.2.1 (cmd 63 0x0B02 [1, 95, 0x3B] (pins17 [(95, 0x9), (94, 0x120000)] up)) 63 95 0x3B [1, 95, 0x3B] (by decide +kernel) (by decide +kernel) (by decide +kernel) (by decide +kernel) (by decide +kernel) (by decide +kernel) (by decide +kernel)).2.2 1 (by decide +kernel) ((.head _))).2.2 (by decide +kernel) (.inl (by decide +kernel))).2 (.inl (by decide +kernel)) |>.2.1 (by decide +kernel) (by decide +kernel) (by decide +kernel) (by decide +kernel)) ∧
    Shown ((((h.2.1 (cmd 63 0x0B02 [1, 95, 0x101F09] (on [(svpOe 5, 0x8000), (svpOut 5, 0x8000), (svpBase + 0x6C, 0xFFFFFFFF)] up)) 63 95 0x101F09 [1, 95, 0x101F09] (by decide +kernel) (by decide +kernel) (by decide +kernel) (by decide +kernel) (by decide +kernel) (by decide +kernel) (by decide +kernel)).2.2 32 (by decide +kernel) ((.tail _ (.tail _ (.tail _ (.tail _ (.tail _ (.tail _ (.tail _ (.tail _ (.tail _ (.tail _ (.tail _ (.head _)))))))))))))).2.2 (by decide +kernel) (.inr (by decide +kernel))).2 (.inl (by decide +kernel)) |>.2.2.1 (by decide +kernel) (by decide +kernel) (by decide +kernel) (by decide +kernel) (by decide +kernel)) ∧
    Shown ((((h.2.1 (cmd 63 0x0B02 [1, 95, 0x101F09] (pins17 [(95, 0x80000009), (94, 0x120000)] up)) 63 95 0x101F09 [1, 95, 0x101F09] (by decide +kernel) (by decide +kernel) (by decide +kernel) (by decide +kernel) (by decide +kernel) (by decide +kernel) (by decide +kernel)).2.2 32 (by decide +kernel) ((.tail _ (.tail _ (.tail _ (.tail _ (.tail _ (.tail _ (.tail _ (.tail _ (.tail _ (.tail _ (.tail _ (.head _)))))))))))))).2.2 (by decide +kernel) (.inr (by decide +kernel))).2 (.inl (by decide +kernel)) |>.2.2.2 (by decide +kernel) (by decide +kernel) (by decide +kernel) (by decide +kernel)) ∧
    Shown ((h.2.2.1 (pins17 [(95, 0x80101F09), (94, 0x120000)] up) 95 (by decide +kernel) (by decide +kernel)).1 (by decide +kernel) (by decide +kernel) (by decide +kernel) (by decide +kernel)) ∧
    Shown ((h.2.2.1 (pins17 [(94, 0x80070009), (95, 0x70009)] (all up)) 94 (by decide +kernel) (by decide +kernel)).2 95 (by decide +kernel) (by decide +kernel) (by decide +kernel) (by decide +kernel) (by decide +kernel) (by decide +kernel) (by decide +kernel) (by decide +kernel) (by decide +kernel) (by decide +kernel) (by decide +kernel) (by decide +kernel) (by decide +kernel)) ∧
    Shown (h.2.2.2.1 (on [(svpStatus, 3)] (all up)) true true (.inl (by decide +kernel)) (by decide +kernel) (by decide +kernel)) ∧
    Shown ((h.2.2.2.2.1 (uart17 { cfg := 8, rx := List.replicate 1023 1 } (clocked17 (ser17 (all up)))) 1 0xFF (by decide +kernel) (by decide +kernel) (by decide +kernel)).1 (by decide +kernel)) ∧
    Shown ((h.2.2.2.2.1 (uart17 { cfg := 1, rx := List.replicate 1024 1 } (clocked17 (ser17 (all up)))) 1 0xFF (by decide +kernel) (by decide +kernel) (by decide +kernel)).2.1 (by decide +kernel) (by decide +kernel) (by decide +kernel)) ∧
    Shown ((h.2.2.2.2.1 (uart17 { cfg := 1, rx := List.replicate 1024 1, lost := 1 } (clocked17 (ser17 (all up)))) 1 0xFF (by decide +kernel) (by decide +kernel) (by decide +kernel)).2.2 (by decide +kernel) (by decide +kernel)) ∧
    Shown ((h.2.2.2.2.2 (cmd 63 0x0B01 [] (on [(svpOe 5, 0x8000), (svpOut 5, 0x8000)] up)) 63 []).1 (by decide +kernel)) ∧
    Shown (((h.2.2.2.2.2 (cmd 63 0x0B03 [100000000] (up)) 63 [100000000]).2.1 (by decide +kernel)).1 (by decide +kernel) (by decide +kernel)) ∧
    Shown (((h.2.2.2.2.2 (cmd 63 0x0B03 [100000001] (up)) 63 [100000001]).2.1 (by decide +kernel)).2 (.inr (by decide +kernel))) ∧
    Shown (((h.2.2.2.2.2 (cmd 16 0x0B04 twArgs17u (up)) 16 twArgs17u).2.2.1 3 2 1 3 256 0 [5, 6] (by decide +kernel) (by decide +kernel) (by decide +kernel) (by decide +kernel) (by decide +kernel) (by decide +kernel) (by decide +kernel) (by decide +kernel)).1 (by decide +kernel) (.inl (by decide +kernel))) ∧
    Shown ((((h.2.2.2.2.2 (cmd 63 0x0B04 twArgs17 (stopped17 up)) 63 twArgs17).2.2.1 5 2 1 3 256 0 [5, 6] (by decide +kernel) (by decide +kernel) (by decide +kernel) (by decide +kernel) (by decide +kernel) (by decide +kernel) (by decide +kernel) (by decide +kernel)).2 (.inl (by decide +kernel))).1 (by decide +kernel)) ∧
    Shown ((((h.2.2.2.2.2 (cmd 63 0x0B04 twArgs17 (clocked17 up)) 63 twArgs17).2.2.1 5 2 1 3 256 0 [5, 6] (by decide +kernel) (by decide +kernel) (by decide +kernel) (by decide +kernel) (by decide +kernel) (by decide +kernel) (by decide +kernel) (by decide +kernel)).2 (.inl (by decide +kernel))).2.1 (by decide +kernel) (.inl (by decide +kernel))) ∧
    Shown ((((h.2.2.2.2.2 (cmd 63 0x0B04 twArgs17 (tw17 (clocked17 up))) 63 twArgs17).2.2.1 5 2 1 3 256 0 [5, 6] (by decide +kernel) (by decide +kernel) (by decide +kernel) (by decide +kernel) (by decide +kernel) (by decide +kernel) (by decide +kernel) (by decide +kernel)).2 (.inl (by decide +kernel))).2.2 (by decide +kernel) (by decide +kernel) (by decide +kernel)) ∧
    Shown (((h.2.2.2.2.2 (cmd 63 0x0B05 [0x331, 65535, 1024, 7] (stopped17 up)) 63 [0x331, 65535, 1024, 7]).2.2.2.1 1 3 3 1024 [9] (by decide +kernel) (by decide +kernel) (by decide +kernel) (by decide +kernel) (by decide +kernel) (by decide +kernel) (by decide +kernel) (by decide +kernel) (by decide +kernel) (by decide +kernel)).1 (by decide +kernel)) ∧
    Shown (((h.2.2.2.2.2 (cmd 63 0x0B05 [0x331, 65535, 1024, 7] (clocked17 up)) 63 [0x331, 65535, 1024, 7]).2.2.2.1 1 3 3 1024 [9] (by decide +kernel) (by decide +kernel) (by decide +kernel) (by decide +kernel) (by decide +kernel) (by decide +kernel) (by decide +kernel) (by decide +kernel) (by decide +kernel) (by decide +kernel)).2.1 (by decide +kernel) (by decide +kernel)) ∧
    Shown (((h.2.2.2.2.2 (cmd 63 0x0B05 [0x331, 65535, 1024, 7] (spi17 (clocked17 up))) 63 [0x331, 65535, 1024, 7]).2.2.2.1 1 3 3 1024 [9] (by decide +kernel) (by decide +kernel) (by decide +kernel) (by decide +kernel) (by decide +kernel) (by decide +kernel) (by decide +kernel) (by decide +kernel) (by decide +kernel) (by decide +kernel)).2.2 (by decide +kernel) (by decide +kernel) (by decide +kernel) (by decide +kernel) (by decide +kernel)) ∧
    Shown (((h.2.2.2.2.2 (cmd 63 0x0B06 [0xD01, 65535] (uart17 { rx := [1], tx := [2] } (clocked17 up))) 63 [0xD01, 65535]).2.2.2.2.1 1 13 (by decide +kernel) (by decide +kernel) (by decide +kernel) (by decide +kernel) (by decide +kernel)).1 (by decide +kernel) (by decide +kernel) (by decide +kernel)) ∧
    Shown (((h.2.2.2.2.2 (cmd 63 0x0B06 [0xD01, 65536] (clocked17 up)) 63 [0xD01, 65536]).2.2.2.2.1 1 13 (by decide +kernel) (by decide +kernel) (by decide +kernel) (by decide +kernel) (by decide +kernel)).2 (.inr (by decide +kernel))) ∧
    Shown (((h.2.2.2.2.2 (cmd 63 0x0B07 [1, 4, 0x04030201] (uart17 { rx := [1, 2, 3, 4, 5], lost := 9, tx := List.replicate 1021 0 } (ser17 (clocked17 up)))) 63 [1, 4, 0x04030201]).2.2.2.2.2 1 4 (by decide +kernel) (by decide +kernel) (by decide +kernel) (by decide +kernel) (by decide +kernel) (by decide +kernel)).1 (by decide +kernel) (by decide +kernel)) ∧
    Shown (((h.2.2.2.2.2 (cmd 63 0x0B07 [1, 1024, 0x04030201] (clocked17 up)) 63 [1, 1024, 0x04030201]).2.2.2.2.2 1 1024 (by decide +kernel) (by decide +kernel) (by decide +kernel) (by decide +kernel) (by decide +kernel) (by decide +kernel)).2 (by decide +kernel)) :=
  ⟨shown _, shown _, shown _, shown _, shown _, shown _, shown _, shown _, shown _, shown _, shown _, shown _, shown _, shown _, shown _, shown _, shown _, shown _, shown _, shown _, shown _, shown _, shown _, shown _, shown _, shown _, shown _, shown _, shown _, shown _, shown _⟩

end C17

namespace C18

/-- The debug station's authority and owner. -/
def dbg18 (auth owner : Nat) (s : State) : State := on [(dbgBase, word (auth * 65536 + owner * 256))] s
def ir18 (n : Nat) (s : State) : State := { s with dbg := { s.dbg with ir := n } }
def chal18 (level : Nat) (s : State) : State := { s with dbg := { s.dbg with challenge := some (level, [1, 2, 3, 4, 5, 6, 7, 8]) } }
/-- Every grove and lane die in RUN. -/
def run18 (s : State) : State := on ((upto 8).map (fun g => (clkBlk (8 + g) + 0x18, 0x30)) ++ (upto 4).map (fun l => (clkBlk (1 + l), 0x80300000))) s
/-- Tile 511 of G7 in a state. -/
def tile18 (f : Tile → Tile) (s : State) : State := setTile 4095 (f {}) s
def item18 : Tile → Tile := fun x => { x with state := 0x75, halted := 0x72, item := some {}, wdLoad := 5, wd := 3, pc := 77 }
def req18 (s : State) : State := on [(dbgBlk 7 + 0x23C, 0x80000000)] s
def stop18 (l : List Nat) (s : State) : State := { s with dbg := { s.dbg with stoppedDies := l } }
def halt18 (s : State) : State := { on [(dbgBase + 0x14, 0x80000005)] s with dbg := { s.dbg with wardenHalted := true } }
def routes18 (d : Nat) (s : State) : State := setRoute 6 d 0x80008100 s
def pulse18 (s : State) : State := { s with dbg := { s.dbg with pulses := [(0, 7)] } }
def read18 (a : Nat) (n side : Word) : List Word := [lo32 a, hi32 a, n, side]
def tick18 (n : Nat) (s : State) : State := { s with tu := { s.tu with tick := n } }

theorem test_meets_DebuggersClaimUnlockAndRunTiles (h : Obligations.DebuggersClaimUnlockAndRunTiles) :
    Shown ((h.1 (dbg18 0xD0 0 up) (by decide +kernel)).1 (by decide +kernel)) ∧
    Shown ((h.1 (dbg18 0xD0 1 up) (by decide +kernel)).2.1 (by decide +kernel)) ∧
    Shown ((h.1 (dbg18 0xD0 2 up) (by decide +kernel)).2.2.1 (by decide +kernel)) ∧
    Shown ((h.1 (dbg18 0xD0 1 up) (by decide +kernel)).2.2.2.1 (by decide +kernel)) ∧
    Shown (((h.1 (ir18 0x10 (dbg18 0xD2 0 up)) (by decide +kernel)).2.2.2.2.1 (by decide +kernel) (.inl (by decide +kernel))).1 (by decide +kernel)) ∧
    Shown ((h.1 (ir18 0x10 (dbg18 0xD0 0 up)) (by decide +kernel)).2.2.2.2.2.1 1 2 3 (.inl (by decide +kernel))) ∧
    Shown ((h.1 (ir18 3 up) (by decide +kernel)).2.2.2.2.2.2.1) ∧
    Shown (((h.1 (dbg18 0xD0 0 up) (by decide +kernel)).2.2.2.2.2.2.2.1 0x11 [] (by decide +kernel)).1) ∧
    Shown (((h.1 (dbg18 0xD3 0 up) (by decide +kernel)).2.2.2.2.2.2.2.1 0x03 [] (by decide +kernel)).1) ∧
    Shown (((h.1 (ir18 1 (dbg18 0xD3 0 up)) (by decide +kernel)).2.2.2.2.2.2.2.1 0x11 [true, false] (by decide +kernel)).2 (.inr (by decide +kernel))) ∧
    Shown (((h.1 (ir18 0x11 (dbg18 0xD3 2 up)) (by decide +kernel)).2.2.2.2.2.2.2.2 1 0x40 5 (by decide +kernel) (.inr (by decide +kernel)) (by decide +kernel) (by decide +kernel)).1 (by decide +kernel) (.inl (by decide +kernel))) ∧
    Shown (((h.1 (ir18 0x11 (dbg18 0xD3 1 up)) (by decide +kernel)).2.2.2.2.2.2.2.2 1 0x40 5 (by decide +kernel) (.inr (by decide +kernel)) (by decide +kernel) (by decide +kernel)).2.1 (by decide +kernel) (by decide +kernel)) ∧
    Shown (((h.1 (ir18 0x11 (dbg18 0xD3 1 up)) (by decide +kernel)).2.2.2.2.2.2.2.2 2 0x40 5 (by decide +kernel) (.inr (by decide +kernel)) (by decide +kernel) (by decide +kernel)).2.2 (by decide +kernel) (by decide +kernel)) ∧
    Shown ((h.2.1 (cmd 62 0x0A01 [] (dbg18 212 1 (up))) 62 [] (.tail _ (.tail _ (.tail _ (.head _))))).1 (by decide +kernel)) ∧
    Shown (((h.2.1 (cmd 62 0x0A02 [0xD3] (dbg18 208 1 (up))) 62 [0xD3] (.head _)).2.1 (by decide +kernel) (by decide +kernel)).1 (.inr (by decide +kernel))) ∧
    Shown (((h.2.1 (cmd 62 0x0A02 [0xD4] (dbg18 208 1 (up))) 62 [0xD4] (.head _)).2.1 (by decide +kernel) (by decide +kernel)).2 (by decide +kernel) (by decide +kernel)) ∧
    Shown (((h.2.1 (cmd 62 0x0A03 (List.replicate 24 7) (dbg18 208 1 (up))) 62 (List.replicate 24 7) (.head _)).2.2.1 (by decide +kernel) (by decide +kernel)).1 (by decide +kernel)) ∧
    Shown (((h.2.1 (cmd 62 0x0A03 (List.replicate 24 7) (dbg18 210 1 (chal18 0xD3 (all up)))) 62 (List.replicate 24 7) (.tail _ (.head _))).2.2.1 (by decide +kernel) (by decide +kernel)).2 0xD3 [1, 2, 3, 4, 5, 6, 7, 8] (by decide +kernel) (.inr (by decide +kernel)) (by decide +kernel) (by decide +kernel)) ∧
    Shown (((h.2.1 (cmd 62 0x0A03 (List.replicate 24 7) (dbg18 211 1 (chal18 0xD2 (all up)))) 62 (List.replicate 24 7) (.tail _ (.tail _ (.head _)))).2.2.1 (by decide +kernel) (by decide +kernel)).2 0xD2 [1, 2, 3, 4, 5, 6, 7, 8] (by decide +kernel) (.inl (by decide +kernel)) (by decide +kernel) (by decide +kernel)) ∧
    Shown ((h.2.1 (cmd 62 0x0A04 [] (dbg18 210 1 (halt18 (stop18 [4, 15] (req18 (tile18 item18 (run18 (all up)))))))) 62 [] (.tail _ (.head _))).2.2.2.1 (by decide +kernel) (by decide +kernel) (.inl (by decide +kernel)) (by decide +kernel)) ∧
    Shown ((((h.2.1 (cmd 62 0x0A05 (read18 0x030000F00000 4096 1) (dbg18 210 1 (up))) 62 (read18 0x030000F00000 4096 1) (.tail _ (.head _))).2.2.2.2.1 0x030000F00000 4096 (.inl (by decide +kernel)) (by decide +kernel) (by decide +kernel) (by decide +kernel) (by decide +kernel) (by decide +kernel) (by decide +kernel) (by decide +kernel) (by decide +kernel) (by decide +kernel) (by decide +kernel) (by decide +kernel) (by decide +kernel) (by decide +kernel) (by decide +kernel)).1 (by decide +kernel)).1 (by decide +kernel) (by decide +kernel)) ∧
    Shown ((((h.2.1 (cmd 62 0x0A05 (read18 0x030000F00000 4096 0) (dbg18 210 1 (up))) 62 (read18 0x030000F00000 4096 0) (.tail _ (.head _))).2.2.2.2.1 0x030000F00000 4096 (.inl (by decide +kernel)) (by decide +kernel) (by decide +kernel) (by decide +kernel) (by decide +kernel) (by decide +kernel) (by decide +kernel) (by decide +kernel) (by decide +kernel) (by decide +kernel) (by decide +kernel) (by decide +kernel) (by decide +kernel) (by decide +kernel) (by decide +kernel)).1 (by decide +kernel)).2.1 (by decide +kernel) (by decide +kernel)) ∧
    Shown (((((h.2.1 (cmd 62 0x0A05 (read18 0x030023000004 4096 0) (dbg18 211 1 (routes18 0x400 (run18 up)))) 62 (read18 0x030023000004 4096 0) (.tail _ (.tail _ (.head _)))).2.2.2.2.1 0x030023000004 4096 (.inr (by decide +kernel)) (by decide +kernel) (by decide +kernel) (by decide +kernel) (by decide +kernel) (by decide +kernel) (by decide +kernel) (by decide +kernel) (by decide +kernel) (by decide +kernel) (by decide +kernel) (by decide +kernel) (by decide +kernel) (by decide +kernel) (by decide +kernel)).1 (by decide +kernel)).2.2 (.inl (by decide +kernel)) (.inl (by decide +kernel)) (by decide +kernel)).1 (by decide +kernel)) ∧
    Shown (((((h.2.1 (cmd 62 0x0A05 (read18 0x030023000004 4 1) (dbg18 211 1 (run18 up))) 62 (read18 0x030023000004 4 1) (.tail _ (.tail _ (.head _)))).2.2.2.2.1 0x030023000004 4 (.inr (by decide +kernel)) (by decide +kernel) (by decide +kernel) (by decide +kernel) (by decide +kernel) (by decide +kernel) (by decide +kernel) (by decide +kernel) (by decide +kernel) (by decide +kernel) (by decide +kernel) (by decide +kernel) (by decide +kernel) (by decide +kernel) (by decide +kernel)).1 (by decide +kernel)).2.2 (.inl (by decide +kernel)) (.inr (by decide +kernel)) (by decide +kernel)).2 (by decide +kernel)) ∧
    Shown ((((h.2.1 (cmd 62 0x0A06 (read18 0x030000F00000 4 9) (dbg18 210 1 (up))) 62 (read18 0x030000F00000 4 9) (.tail _ (.head _))).2.2.2.2.1 0x030000F00000 4 (.inl (by decide +kernel)) (by decide +kernel) (by decide +kernel) (by decide +kernel) (by decide +kernel) (by decide +kernel) (by decide +kernel) (by decide +kernel) (by decide +kernel) (by decide +kernel) (by decide +kernel) (by decide +kernel) (by decide +kernel) (by decide +kernel) (by decide +kernel)).2 (by decide +kernel)).1 (by decide +kernel)) ∧
    Shown ((((h.2.1 (cmd 62 0x0A06 (read18 0x030023000004 4 9) (dbg18 211 1 (routes18 0x400 (run18 up)))) 62 (read18 0x030023000004 4 9) (.tail _ (.tail _ (.head _)))).2.2.2.2.1 0x030023000004 4 (.inr (by decide +kernel)) (by decide +kernel) (by decide +kernel) (by decide +kernel) (by decide +kernel) (by decide +kernel) (by decide +kernel) (by decide +kernel) (by decide +kernel) (by decide +kernel) (by decide +kernel) (by decide +kernel) (by decide +kernel) (by decide +kernel) (by decide +kernel)).2 (by decide +kernel)).2 (.inl (by decide +kernel)) (by decide +kernel) (by decide +kernel)) ∧
    Shown (((h.2.1 (cmd 62 0x0A08 [7, 0x3FFFF, 1] (dbg18 211 1 (run18 (all up)))) 62 [7, 0x3FFFF, 1] (.tail _ (.tail _ (.head _)))).2.2.2.2.2 7 0x3FFFF 1 (by decide +kernel) (by decide +kernel) (by decide +kernel)).1 (by decide +kernel) (.inr (by decide +kernel)) (by decide +kernel) (by decide +kernel) (by decide +kernel) (by decide +kernel) (by decide +kernel) (by decide +kernel) (by decide +kernel)) ∧
    Shown (((h.2.1 (cmd 62 0x0A08 [7, 1, 0] (dbg18 210 1 (on [(dbgFreeze 7, 0x20001)] (run18 (all up))))) 62 [7, 1, 0] (.tail _ (.head _))).2.2.2.2.2 7 1 0 (by decide +kernel) (by decide +kernel) (by decide +kernel)).1 (by decide +kernel) (.inl (by decide +kernel)) (by decide +kernel) (by decide +kernel) (by decide +kernel) (by decide +kernel) (by decide +kernel) (by decide +kernel) (by decide +kernel)) ∧
    Shown (((h.2.1 (cmd 62 0x0A09 [0x85, 1] (dbg18 211 1 (run18 (all up)))) 62 [0x85, 1] (.tail _ (.tail _ (.head _)))).2.2.2.2.2 0 0x85 1 (by decide +kernel) (by decide +kernel) (by decide +kernel)).2.1 (by decide +kernel) (.inr (by decide +kernel)) (by decide +kernel) (by decide +kernel) (by decide +kernel)) ∧
    Shown (((h.2.1 (cmd 62 0x0A09 [0x85, 0] (dbg18 211 1 (run18 (all up)))) 62 [0x85, 0] (.tail _ (.tail _ (.head _)))).2.2.2.2.2 0 0x85 0 (by decide +kernel) (by decide +kernel) (by decide +kernel)).2.1 (by decide +kernel) (.inr (by decide +kernel)) (by decide +kernel) (by decide +kernel) (by decide +kernel)) ∧
    Shown ((((h.2.1 (cmd 62 0x0A0A [6, 1] (dbg18 211 1 (run18 (all up)))) 62 [6, 1] (.tail _ (.tail _ (.head _)))).2.2.2.2.2 0 0 1 (by decide +kernel) (by decide +kernel) (by decide +kernel)).2.2.1 6 (by decide +kernel) (by decide +kernel) (by decide +kernel) (by decide +kernel)).1 (.inr (by decide +kernel))) ∧
    Shown ((((h.2.1 (cmd 62 0x0A0A [4, 1] (dbg18 211 1 (up))) 62 [4, 1] (.tail _ (.tail _ (.head _)))).2.2.2.2.2 0 0 1 (by decide +kernel) (by decide +kernel) (by decide +kernel)).2.2.1 4 (by decide +kernel) (by decide +kernel) (by decide +kernel) (by decide +kernel)).2.1 (by decide +kernel) (by decide +kernel) (by decide +kernel)) ∧
    Shown ((((h.2.1 (cmd 62 0x0A0A [4, 1] (dbg18 211 1 (run18 (all up)))) 62 [4, 1] (.tail _ (.tail _ (.head _)))).2.2.2.2.2 0 0 1 (by decide +kernel) (by decide +kernel) (by decide +kernel)).2.2.1 4 (by decide +kernel) (by decide +kernel) (by decide +kernel) (by decide +kernel)).2.2.1 (by decide +kernel) (by decide +kernel) (by decide +kernel)) ∧
    Shown ((((h.2.1 (cmd 62 0x0A0A [4, 0] (dbg18 211 1 (stop18 [4] (run18 (all up))))) 62 [4, 0] (.tail _ (.tail _ (.head _)))).2.2.2.2.2 0 0 0 (by decide +kernel) (by decide +kernel) (by decide +kernel)).2.2.1 4 (by decide +kernel) (by decide +kernel) (by decide +kernel) (by decide +kernel)).2.2.1 (by decide +kernel) (by decide +kernel) (by decide +kernel)) ∧
    Shown ((((h.2.1 (cmd 62 0x0A0A [15, 1] (dbg18 211 1 (on [(memBlk 15, 0x93)] (run18 (all up))))) 62 [15, 1] (.tail _ (.tail _ (.head _)))).2.2.2.2.2 0 0 1 (by decide +kernel) (by decide +kernel) (by decide +kernel)).2.2.1 15 (by decide +kernel) (by decide +kernel) (by decide +kernel) (by decide +kernel)).2.2.2 15 (by decide +kernel) (by decide +kernel) (by decide +kernel) (by decide +kernel) (by decide +kernel) (by decide +kernel) (by decide +kernel) (by decide +kernel)) ∧
    Shown ((((h.2.1 (cmd 62 0x0A0B [1] (dbg18 211 1 (run18 (all up)))) 62 [1] (.tail _ (.tail _ (.head _)))).2.2.2.2.2 0 0 1 (by decide +kernel) (by decide +kernel) (by decide +kernel)).2.2.2 (by decide +kernel) (by decide +kernel) (by decide +kernel)).1 (by decide +kernel) (by decide +kernel)) ∧
    Shown ((((h.2.1 (cmd 62 0x0A0B [1] (dbg18 211 1 (halt18 up))) 62 [1] (.tail _ (.tail _ (.head _)))).2.2.2.2.2 0 0 1 (by decide +kernel) (by decide +kernel) (by decide +kernel)).2.2.2 (by decide +kernel) (by decide +kernel) (by decide +kernel)).2.1 (by decide +kernel) (by decide +kernel)) ∧
    Shown ((((h.2.1 (cmd 62 0x0A0B [0] (dbg18 211 1 (halt18 up))) 62 [0] (.tail _ (.tail _ (.head _)))).2.2.2.2.2 0 0 0 (by decide +kernel) (by decide +kernel) (by decide +kernel)).2.2.2 (by decide +kernel) (by decide +kernel) (by decide +kernel)).2.2 (by decide +kernel) (by decide +kernel)) ∧
    Shown (h.2.2.1 (chal18 0xD2 up) (by decide +kernel)) ∧
    Shown ((h.2.2.2.1 (req18 (tile18 (fun x => { x with state := 0x71, item := some {}, pc := 9 }) (run18 (all up)))) 4095 (by decide +kernel) (by decide +kernel) (by decide +kernel)).1 (by decide +kernel) (by decide +kernel) (by decide +kernel)) ∧
    Shown ((h.2.2.2.1 (req18 (tile18 (fun x => { x with state := 0x71, item := some {}, force := true, locked := true, lock := 2, lockPc := 0x1A4, pc := 0x1A6, begun := true }) (run18 (all up)))) 4095 (by decide +kernel) (by decide +kernel) (by decide +kernel)).1 (by decide +kernel) (by decide +kernel) (by decide +kernel)) ∧
    Shown ((h.2.2.2.1 (run18 up) 4095 (by decide +kernel) (by decide +kernel) (by decide +kernel)).2.1 (by decide +kernel)) ∧
    Shown (((h.2.2.2.1 (cmd 62 0x0A07 [4095, 0] (dbg18 0xD2 1 (tile18 (fun x => x) (run18 (all up))))) 4095 (by decide +kernel) (by decide +kernel) (by decide +kernel)).2.2.1 62 0 [4095, 0] (by decide +kernel) (.inl (by decide +kernel)) (by decide +kernel) (by decide +kernel) (by decide +kernel) (by decide +kernel)).1 (by decide +kernel) (by decide +kernel) (by decide +kernel) (by decide +kernel) (by decide +kernel)) ∧
    Shown (((h.2.2.2.1 (cmd 62 0x0A07 [4095, 0] (dbg18 0xD2 1 (tile18 (fun x => { x with state := 0x74, item := some {} }) (run18 (all up))))) 4095 (by decide +kernel) (by decide +kernel) (by decide +kernel)).2.2.1 62 0 [4095, 0] (by decide +kernel) (.inl (by decide +kernel)) (by decide +kernel) (by decide +kernel) (by decide +kernel) (by decide +kernel)).2.1 (by decide +kernel) (.tail _ (.head _))) ∧
    Shown (((h.2.2.2.1 (cmd 62 0x0A07 [4095, 1] (dbg18 0xD2 1 (tile18 (item18) (on [(tilBlk 4095 + 0xC, 0x80000000)] (run18 (all up)))))) 4095 (by decide +kernel) (by decide +kernel) (by decide +kernel)).2.2.1 62 1 [4095, 1] (by decide +kernel) (.inl (by decide +kernel)) (by decide +kernel) (by decide +kernel) (by decide +kernel) (by decide +kernel)).2.2.1 (by decide +kernel) (by decide +kernel) (by decide +kernel)) ∧
    Shown (((h.2.2.2.1 (cmd 62 0x0A07 [4095, 2] (dbg18 0xD2 1 (tile18 (item18) (run18 (all up))))) 4095 (by decide +kernel) (by decide +kernel) (by decide +kernel)).2.2.1 62 2 [4095, 2] (by decide +kernel) (.inl (by decide +kernel)) (by decide +kernel) (by decide +kernel) (by decide +kernel) (by decide +kernel)).2.2.2 (by decide +kernel) (by decide +kernel) (by decide +kernel)) ∧
    Shown (((h.2.2.2.1 (dbg18 0xD2 1 (tile18 (fun x => x) (run18 (all up)))) 4095 (by decide +kernel) (by decide +kernel) (by decide +kernel)).2.2.2 (.debug 1) (by decide +kernel)).1 (by decide +kernel)) ∧
    Shown (((h.2.2.2.1 (dbg18 0xD2 1 (tile18 (item18) (run18 (all up)))) 4095 (by decide +kernel) (by decide +kernel) (by decide +kernel)).2.2.2 (.debug 1) (by decide +kernel)).2.1 (by decide +kernel) (by decide +kernel)) ∧
    Shown (((h.2.2.2.1 (dbg18 0xD2 1 (tile18 (fun x => { x with state := 0x75 }) (run18 (all up)))) 4095 (by decide +kernel) (by decide +kernel) (by decide +kernel)).2.2.2 (.debug 1) (by decide +kernel)).2.2.1 (by decide +kernel) (by decide +kernel) (by decide +kernel)) ∧
    Shown (((h.2.2.2.1 (dbg18 0xD2 1 (tile18 (item18) (run18 (all up)))) 4095 (by decide +kernel) (by decide +kernel) (by decide +kernel)).2.2.2 (.debug 1) (by decide +kernel)).2.2.2.1 (by decide +kernel) (by decide +kernel)) ∧
    Shown (((h.2.2.2.1 (dbg18 0xD2 1 (tile18 (fun x => x) (run18 (all up)))) 4095 (by decide +kernel) (by decide +kernel) (by decide +kernel)).2.2.2 (.debug 1) (by decide +kernel)).2.2.2.2 (by decide +kernel)) ∧
    Shown ((h.2.2.2.2 (pulse18 (run18 up)) 0 7 (by decide +kernel) (by decide +kernel) (by decide +kernel)).1 (by decide +kernel) (by decide +kernel)) ∧
    Shown ((h.2.2.2.2 (on [(prbTctrl 7, 0x40000003), (prbCtrl 7, 3), (dbgBlk 7 + 0x304, 0x10), (prbStatus 7, 0x80000000)] (pulse18 (run18 (all up)))) 0 7 (by decide +kernel) (by decide +kernel) (by decide +kernel)).2 (by decide +kernel) (by decide +kernel) (by decide +kernel) (by decide +kernel) (by decide +kernel) (by decide +kernel) (by decide +kernel) (by decide +kernel)) :=
  ⟨shown _, shown _, shown _, shown _, shown _, shown _, shown _, shown _, shown _, shown _, shown _, shown _, shown _, shown _, shown _, shown _, shown _, shown _, shown _, shown _, shown _, shown _, shown _, shown _, shown _, shown _, shown _, shown _, shown _, shown _, shown _, shown _, shown _, shown _, shown _, shown _, shown _, shown _, shown _, shown _, shown _, shown _, shown _, shown _, shown _, shown _, shown _, shown _, shown _, shown _, shown _, shown _, shown _⟩

theorem test_meets_HostWatchdogCountsWarnsAndResets (h : Obligations.HostWatchdogCountsWarnsAndResets) :
    Shown ((h.2.2.2 (on [(hostCtrl, 0x8000FFFF)] (all up)) (by decide +kernel)).1) ∧
    Shown ((h.2.2.2 (on [(hostCtrl, 0x8000FFFF)] (all up)) (by decide +kernel)).2.1 (.host 1) 0x4B1C (.inl (by decide +kernel))) ∧
    Shown (((h.2.2.2 (on [(hostCtrl, 0x8000FFFF)] (all up)) (by decide +kernel)).2.2 (by decide +kernel)).1 (by decide +kernel) (by decide +kernel)) ∧
    Shown (((h.2.2.2 (on [(hostCtrl, 0x8000FFFF)] (all up)) (by decide +kernel)).2.2 (by decide +kernel)).2) ∧
    Shown ((h.1 (tick18 0 (on [(hostCtrl, 0x8000FFFF), (hostCount, 0xFFFF)] (all up))) (by decide +kernel) (by decide +kernel) (by decide +kernel) (by decide +kernel)).1 (by decide +kernel)) ∧
    Shown ((h.1 (halt18 (stop18 [0, 4, 15] (tick18 499999 (on [(hostCtrl, 0x8000FFFF), (hostCount, 0xFFFF)] (all up))))) (by decide +kernel) (by decide +kernel) (by decide +kernel) (by decide +kernel)).2.1 (by decide +kernel) (by decide +kernel) (.inl (by decide +kernel))) ∧
    Shown ((h.1 (tick18 499999 (on [(hostCtrl, 0x8000000B), (hostCount, 6)] (all up))) (by decide +kernel) (by decide +kernel) (by decide +kernel) (by decide +kernel)).2.2.1 (by decide +kernel) (by decide +kernel) (by decide +kernel) (by decide +kernel)) ∧
    Shown ((h.1 (tick18 499999 (on [(hostCtrl, 0x8000000B), (hostCount, 1)] (all up))) (by decide +kernel) (by decide +kernel) (by decide +kernel) (by decide +kernel)).2.2.2 (by decide +kernel) (by decide +kernel)) ∧
    Shown (h.2.1 up 0x8000000A (by decide +kernel) (by decide +kernel) (by decide +kernel) (by decide +kernel) (by decide +kernel)) ∧
    Shown (h.2.2.1 up .warden 0x8000000A hostCtrl (by decide +kernel) (.inl (by decide +kernel))) ∧
    Shown (h.2.2.1 up (.host 1) 0x4B1C (hostCtrl + 4) (by decide +kernel) (.inr (.inl (by decide +kernel)))) ∧
    Shown (h.2.2.1 up (.station 0x827) 0x8000000A hostCount (by decide +kernel) (.inr (.inr (by decide +kernel)))) :=
  ⟨shown _, shown _, shown _, shown _, shown _, shown _, shown _, shown _, shown _, shown _, shown _, shown _⟩

end C18

namespace C19

def ras19 (s : State) : State := { s with ras := { s.ras with on := true, sramCorr := 2, corr := [(9, 3)] } }
def args19 (d n dis : Nat) (c t p : Word) : List Word := [word (d + n * 256 + dis * 65536), c, t, p]
def run19 (s : State) : State := on ((upto 8).map (fun g => (clkBlk (8 + g) + 0x18, 0x30)) ++ (upto 4).map (fun l => (clkBlk (1 + l), 0x80300000))) s
def inj19 (d n dis : Nat) (c t p : Word) : State := cmd 0 0x0804 (args19 d n dis c t p) (run19 (ras19 up))
def pt19 (d n : Nat) (c st : Word) (s : State) : State := on [(injPt d n, c), (injPt d n + 12, st), (injPt d n + 16, 5), (injPt d n + 28, 9)] s
/-- An OPEN contract from G1's channel C3. -/
def open19 (s : State) : State :=
  { s with bough := { s.bough with contracts := [(5, { state := .opened, terms := [word (chanStation 3 + 65536 * 0x427), 0, 0, 0, 0, 0, 0, 0, 0, 0, 0, 0] })] } }

theorem test_meets_InjectionPointsArmAndInject (h : Obligations.InjectionPointsArmAndInject) :
    Shown ((h.1 (cmd 0 0x0801 [] (pt19 15 13 0x84000001 0 (ras19 up))) 0 []).1 (by decide +kernel)) ∧
    Shown (((h.1 (cmd 62 0x0802 [] up) 62 []).2.2.2.1 (by decide +kernel) (by decide +kernel)).1 (by decide +kernel) (by decide +kernel)) ∧
    Shown (((h.1 (cmd 0 0x0802 [] (all up)) 0 []).2.2.2.1 (by decide +kernel) (by decide +kernel)).2 (.inl (by decide +kernel)) (by decide +kernel) (by decide +kernel)) ∧
    Shown (((h.1 (cmd 62 0x0803 [] (ras19 up)) 62 []).2.2.2.2 (by decide +kernel) (by decide +kernel)).1 (by decide +kernel) (by decide +kernel)) ∧
    Shown (((h.1 (cmd 0 0x0803 [] (all (pt19 15 13 0x84000001 0 (pt19 0 0 0x81000001 0 (ras19 up))))) 0 []).2.2.2.2 (by decide +kernel) (by decide +kernel)).2 (.inl (by decide +kernel)) (by decide +kernel) (by decide +kernel)) ∧
    Shown ((h.2.1 (cmd 0 0x0804 [0x10E04] (ras19 up)) 0 4 14 0x0804 [0x10E04] (by decide +kernel) (by decide +kernel) (by decide +kernel) (.inl rfl) (by decide +kernel) (.inr (by decide +kernel))).1 (by decide +kernel) (.rasInject 0) (.inl ⟨rfl, rfl⟩)) ∧
    Shown ((h.2.1 (cmd 0 0x0805 [0x700] (ras19 up)) 0 0 7 0x0805 [0x700] (by decide +kernel) (by decide +kernel) (by decide +kernel) (.inr (.inl rfl)) (by decide +kernel) (.inl (by decide +kernel))).1 (by decide +kernel) (.rasInjDisarm 0) (.inr (.inl ⟨rfl, rfl⟩))) ∧
    Shown ((h.2.1 (cmd 0 0x0806 [0x0D08] (ras19 up)) 0 8 13 0x0806 [0x0D08] (by decide +kernel) (by decide +kernel) (by decide +kernel) (.inr (.inr rfl)) (by decide +kernel) (.inl (by decide +kernel))).2.1 (by decide +kernel) (by decide +kernel) (by decide +kernel) (.rasInjRead 0) (.inr (.inr ⟨rfl, rfl⟩))) ∧
    Shown ((h.2.1 (cmd 0 0x0805 [0x0D0F] (pt19 15 13 0x8400FFFF 0x80010007 (run19 (ras19 up)))) 0 15 13 0x0805 [0x0D0F] (by decide +kernel) (by decide +kernel) (by decide +kernel) (.inr (.inl rfl)) (by decide +kernel) (.inl (by decide +kernel))).2.2.1 (by decide +kernel) (by decide +kernel) (by decide +kernel)) ∧
    Shown ((h.2.1 (cmd 0 0x0806 [0x0D0F] (pt19 15 13 0x8400FFFF 0x80010007 (run19 (ras19 up)))) 0 15 13 0x0806 [0x0D0F] (by decide +kernel) (by decide +kernel) (by decide +kernel) (.inr (.inr rfl)) (by decide +kernel) (.inl (by decide +kernel))).2.2.2.1 (by decide +kernel) (by decide +kernel) (by decide +kernel)) ∧
    Shown (((h.2.1 (inj19 9 2 1 0x05000001 1 0x818F0001) 0 9 2 0x0804 (args19 9 2 1 0x05000001 1 0x818F0001) (by decide +kernel) (by decide +kernel) (by decide +kernel) (.inl rfl) (by decide +kernel) (.inr (by decide +kernel))).2.2.2.2 0x05000001 1 0x818F0001 (by decide +kernel) (by decide +kernel) (by decide +kernel)).1 (.inl (by decide +kernel)) (.rasInject 0) (.inl ⟨rfl, rfl⟩)) ∧
    Shown (((h.2.1 (inj19 9 2 1 0x01000001 2 0x818F0001) 0 9 2 0x0804 (args19 9 2 1 0x01000001 2 0x818F0001) (by decide +kernel) (by decide +kernel) (by decide +kernel) (.inl rfl) (by decide +kernel) (.inr (by decide +kernel))).2.2.2.2 0x01000001 2 0x818F0001 (by decide +kernel) (by decide +kernel) (by decide +kernel)).2.1 (by decide +kernel) (by decide +kernel) (by decide +kernel) (.rasInject 0) (.inl ⟨rfl, rfl⟩)) ∧
    Shown (((h.2.1 (inj19 9 2 1 0x01000001 1 0x928F0001) 0 9 2 0x0804 (args19 9 2 1 0x01000001 1 0x928F0001) (by decide +kernel) (by decide +kernel) (by decide +kernel) (.inl rfl) (by decide +kernel) (.inr (by decide +kernel))).2.2.2.2 0x01000001 1 0x928F0001 (by decide +kernel) (by decide +kernel) (by decide +kernel)).2.2.1 (by decide +kernel) (by decide +kernel) (by decide +kernel) (by decide +kernel) (.rasInject 0) (.inl ⟨rfl, rfl⟩)) ∧
    Shown (((h.2.1 (cmd 62 0x0804 (args19 0 6 0 0x01000001 15 0x7FF) (on [(dbgBase, 0xD20100)] (ras19 up))) 62 0 6 0x0804 (args19 0 6 0 0x01000001 15 0x7FF) (by decide +kernel) (by decide +kernel) (by decide +kernel) (.inl rfl) (by decide +kernel) (.inl (by decide +kernel))).2.2.2.2 0x01000001 15 0x7FF (by decide +kernel) (by decide +kernel) (by decide +kernel)).2.2.2.1 (by decide +kernel) (by decide +kernel) (.rasInject 62) (.inl ⟨rfl, rfl⟩)) ∧
    Shown (((h.2.1 (inj19 9 2 0 0x01000001 1 0x818F0001) 0 9 2 0x0804 (args19 9 2 0 0x01000001 1 0x818F0001) (by decide +kernel) (by decide +kernel) (by decide +kernel) (.inl rfl) (by decide +kernel) (.inl (by decide +kernel))).2.2.2.2 0x01000001 1 0x818F0001 (by decide +kernel) (by decide +kernel) (by decide +kernel)).2.2.2.2.1 (by decide +kernel) (.inl (by decide +kernel)) (by decide +kernel) (.rasInject 0) (.inl ⟨rfl, rfl⟩)) ∧
    Shown (((h.2.1 (pt19 9 2 0x80000000 0 (inj19 9 2 1 0x01000001 1 0x818F0001)) 0 9 2 0x0804 (args19 9 2 1 0x01000001 1 0x818F0001) (by decide +kernel) (by decide +kernel) (by decide +kernel) (.inl rfl) (by decide +kernel) (.inr (by decide +kernel))).2.2.2.2 0x01000001 1 0x818F0001 (by decide +kernel) (by decide +kernel) (by decide +kernel)).2.2.2.2.2.1 (by decide +kernel) (.inl (by decide +kernel)) (by decide +kernel) (by decide +kernel) (.rasInject 0) (.inl ⟨rfl, rfl⟩)) ∧
    Shown (((h.2.1 (cmd 0 0x0804 (args19 9 2 1 0x01000001 1 0x818F0001) (ras19 up)) 0 9 2 0x0804 (args19 9 2 1 0x01000001 1 0x818F0001) (by decide +kernel) (by decide +kernel) (by decide +kernel) (.inl rfl) (by decide +kernel) (.inr (by decide +kernel))).2.2.2.2 0x01000001 1 0x818F0001 (by decide +kernel) (by decide +kernel) (by decide +kernel)).2.2.2.2.2.2.2.1 (by decide +kernel) (.inl (by decide +kernel)) (by decide +kernel) (by decide +kernel) (by decide +kernel) (by decide +kernel) (.rasInject 0) (.inl ⟨rfl, rfl⟩)) ∧
    Shown (((h.2.1 (pt19 9 2 0x0400FFFF 0x80030007 (inj19 9 2 1 0xF1FF0001 1 0x818F0001)) 0 9 2 0x0804 (args19 9 2 1 0xF1FF0001 1 0x818F0001) (by decide +kernel) (by decide +kernel) (by decide +kernel) (.inl rfl) (by decide +kernel) (.inr (by decide +kernel))).2.2.2.2 0xF1FF0001 1 0x818F0001 (by decide +kernel) (by decide +kernel) (by decide +kernel)).2.2.2.2.2.2.2.2 (by decide +kernel) (.inl (by decide +kernel)) (by decide +kernel) (by decide +kernel) (by decide +kernel) (by decide +kernel)) ∧
    Shown (((h.2.1 (inj19 15 13 0 0x0400FFFF 7 0) 0 15 13 0x0804 (args19 15 13 0 0x0400FFFF 7 0) (by decide +kernel) (by decide +kernel) (by decide +kernel) (.inl rfl) (by decide +kernel) (.inl (by decide +kernel))).2.2.2.2 0x0400FFFF 7 0 (by decide +kernel) (by decide +kernel) (by decide +kernel)).2.2.2.2.2.2.2.2 (by decide +kernel) (.inl (by decide +kernel)) (by decide +kernel) (by decide +kernel) (by decide +kernel) (by decide +kernel)) ∧
    Shown ((h.2.2 (pt19 15 13 0x80000001 0 up) 15 13 (by decide +kernel) (by decide +kernel)).1 (.inr (.inl (by decide +kernel)))) ∧
    Shown (((h.2.2 (pt19 15 13 0x83000002 0 up) 15 13 (by decide +kernel) (by decide +kernel)).2 (by decide +kernel) (by decide +kernel) (by decide +kernel)).1 (by decide +kernel) (by decide +kernel) (by decide +kernel)) ∧
    Shown (((h.2.2 (all (pt19 15 13 0x81000009 0 up)) 15 13 (by decide +kernel) (by decide +kernel)).2 (by decide +kernel) (by decide +kernel) (by decide +kernel)).2.1 (.inl (by decide +kernel))) ∧
    Shown (((h.2.2 (all (pt19 15 13 0x82000003 2 up)) 15 13 (by decide +kernel) (by decide +kernel)).2 (by decide +kernel) (by decide +kernel) (by decide +kernel)).2.1 (.inr (by decide +kernel))) ∧
    Shown (((h.2.2 (all (pt19 15 13 0x82000003 1 up)) 15 13 (by decide +kernel) (by decide +kernel)).2 (by decide +kernel) (by decide +kernel) (by decide +kernel)).2.2.1 (.inl (by decide +kernel))) ∧
    Shown (((h.2.2 (all (pt19 15 13 0x84000003 0xFFFF up)) 15 13 (by decide +kernel) (by decide +kernel)).2 (by decide +kernel) (by decide +kernel) (by decide +kernel)).2.2.1 (.inr (.inl (by decide +kernel)))) ∧
    Shown (((h.2.2 (all (pt19 15 13 0x83000001 0xFFFF up)) 15 13 (by decide +kernel) (by decide +kernel)).2 (by decide +kernel) (by decide +kernel) (by decide +kernel)).2.2.2) ∧
    Shown (((h.2.1 (open19 (inj19 9 4 0 0x01000001 1 0)) 0 9 4 0x0804 (args19 9 4 0 0x01000001 1 0) (by decide +kernel) (by decide +kernel) (by decide +kernel) (.inl rfl) (by decide +kernel) (.inl (by decide +kernel))).2.2.2.2 0x01000001 1 0 (by decide +kernel) (by decide +kernel) (by decide +kernel)).2.2.2.2.2.2.1 (by decide +kernel) (.inl (by decide +kernel)) (by decide +kernel) (by decide +kernel) (by decide +kernel) (.rasInject 0) (.inl ⟨rfl, rfl⟩)) ∧
    Shown ((h.1 (pt19 15 13 0x84000001 0 (ras19 up)) 0 []).2.1 2) ∧
    Shown ((h.1 (cmd 0 0x0802 [] (ras19 up)) 0 []).2.2.1 (.rasInjEnable 0) 0x0802 true (by decide +kernel) (by decide +kernel) (by decide +kernel)) ∧
    Shown ((h.1 (cmd 62 0x0806 [0] up) 62 [0]).2.2.1 (.rasInjRead 62) 0x0806 false (by decide +kernel) (by decide +kernel) (by decide +kernel)) :=
  ⟨shown _, shown _, shown _, shown _, shown _, shown _, shown _, shown _, shown _, shown _, shown _, shown _, shown _, shown _, shown _, shown _, shown _, shown _, shown _, shown _, shown _, shown _, shown _, shown _, shown _, shown _, shown _, shown _, shown _, shown _⟩

end C19

namespace C20

theorem test_meets_EveryStepCompletesAndKeepsTheForm (h : Obligations.EveryStepCompletesAndKeepsTheForm) :
    Shown (h State.reset ⟨⟨List.Pairwise.nil, fun _e he => absurd he List.not_mem_nil⟩, rfl, Nat.zero_le 8⟩) :=
  shown _

theorem test_meets_ResetLeavesTheStatedValues (h : Obligations.ResetLeavesTheStatedValues) :
    Shown (h) :=
  shown _

end C20

end Sys2Proof.Tests
end

section
/-!
PROOF. Writes of booth registers by the host's functions, and what they leave in a notify address (O6).
-/
namespace Sys2Proof.Machine

/-- The offset of a booth's register in the booth window. -/
theorem boothSlot_add_sub (b x : Nat) : boothSlot b + x - boothWin = b * 0x10000 + x := by
  simp only [boothSlot]; omega

theorem winOff_boothSlot {b x : Nat} (hb : b < 64) (hx : x < 0x10000) :
    winOff (boothSlot b + x) = b * 0x10000 + x := by
  simp only [winOff, boothSlot, boothWin]; omega

/-- A booth's slot lies in the lower half of hub window 1 (01 R29). -/
theorem boothSlot_add_bounds {b x : Nat} (hb : b < 64) (hx : x < 0x10000) :
    boothWin ≤ boothSlot b + x ∧ boothSlot b + x < boothWin + 0x400000 := by
  simp only [boothSlot]; omega

/-- Booth slots are no part of a peek mirror (01 R28). -/
theorem inMirror_boothSlot {b x : Nat} (hb : b < 64) (hx : x < 0x10000) : inMirror (boothSlot b + x) = false := by
  rw [inMirror, winOff_boothSlot hb hx, decide_eq_false (by omega), Bool.and_false]

theorem inWindow_boothSlot {b x : Nat} (hb : b < 64) (hx : x < 0x10000) : inWindow (boothSlot b + x) = true := by
  have h := boothSlot_add_bounds hb hx
  simp only [boothWin] at h
  simp only [inWindow, Bool.or_eq_true, Bool.and_eq_true, decide_eq_true_eq]; omega

theorem dieOfAddr_boothSlot {b x : Nat} (hb : b < 64) (hx : x < 0x10000) : dieOfAddr (boothSlot b + x) = 0 := by
  have h := boothSlot_add_bounds hb hx
  rw [dieOfAddr, if_pos (by simp only [boothWin] at h; omega)]

/-- No gateable block holds a booth slot (03 R88). -/
theorem windowBlock_boothSlot {b x : Nat} (hb : b < 64) (hx : x < 0x10000) : windowBlock (boothSlot b + x) = none := by
  have h := boothSlot_add_bounds hb hx
  have hp : ¬ (hubPtrBase ≤ boothSlot b + x ∧ boothSlot b + x < hubPtrBase + 0x1000000) := by
    simp only [boothWin] at h; simp only [hubPtrBase]; omega
  simp only [windowBlock, dieOfAddr_boothSlot hb hx, if_true, if_neg hp]

/-- Nothing shuts the booths, and a write of one is a booth write. -/
theorem regWrite_boothSlot {b x : Nat} (hb : b < 64) (hx : x < 0x10000) (src : Writer) (v : Word) (s : State) :
    regWrite src (boothSlot b + x) v s = boothWrite src (boothSlot b + x) v s := by
  have hs : blockShut s (boothSlot b + x) = false := by
    simp only [blockShut, addrBlock, inWindow_boothSlot hb hx, windowBlock_boothSlot hb hx, if_true]
  obtain ⟨hlo, hhi⟩ := boothSlot_add_bounds hb hx
  have h1 : boothSlot b + x < 0x030010000000 := by simp only [boothWin] at hhi; omega
  have h2 : boothSlot b + x < clkBase := by simp only [boothWin] at hhi; simp only [clkBase]; omega
  rw [regWrite, inMirror_boothSlot hb hx, hs, if_neg Bool.false_ne_true, if_neg Bool.false_ne_true, if_pos h1]
  simp only [hubWrite, if_neg (Nat.not_lt.mpr hlo), if_pos h2]

theorem lt_of_boothAllows {src : Writer} {b : Nat} {s : State} (h : boothAllows s src b = true) : b < 63 := by
  rw [boothAllows, Bool.and_eq_true, decide_eq_true_eq] at h
  exact h.1

/-- A booth's writer writes a register of the slot by its access codes; the doorbell and the request area stand apart
(02 R50). -/
theorem boothWrite_register {src : Writer} {b x : Nat} {s : State} (ha : boothAllows s src b = true) (hx : x < 0x1000)
    (h4 : x ≠ 4) (v : Word) : boothWrite src (boothSlot b + x) v s = codeWrite src (boothSlot b + x) v s := by
  have hb := lt_of_boothAllows ha
  have hq : (b * 0x10000 + x) / 0x10000 = b := by omega
  have hr : (b * 0x10000 + x) % 0x10000 = x := by omega
  have hb64 : ¬ 64 ≤ b := by omega
  have hb63 : b ≠ 63 := by omega
  have harea : ¬ (0x1000 ≤ x ∧ x < 0x5000) := by omega
  simp only [boothWrite, boothSlot_add_sub, hq, hr, if_neg hb64, if_neg hb63, ha, Bool.not_true, Bool.false_eq_true,
    if_false, if_neg h4, if_neg harea]

/-- No register of a booth slot keeps a field for want of a listed encoding (00 R6). -/
theorem acceptValue_boothSlot {b x : Nat} (hb : b < 64) (hx : x < 0x10000) (old v : Word) :
    acceptValue (boothSlot b + x) old v = v := by
  obtain ⟨hlo, hhi⟩ := boothSlot_add_bounds hb hx
  simp only [boothWin] at hlo hhi
  have h1 : boothSlot b + x < 0x030010000000 := by omega
  have h2 : boothSlot b + x ≠ talBase + 0x18 := by simp only [talBase]; omega
  have h3 : boothSlot b + x ≠ dbgBase + 8 := by simp only [dbgBase]; omega
  have h4 : ¬ hubPtrBase ≤ boothSlot b + x := by simp only [hubPtrBase]; omega
  simp only [acceptValue, if_pos h1, if_neg h2, if_neg h3, h4, false_and, if_false]

/-- Either host function reaches the booth slots through BAR0 (01 R35). -/
theorem srcReaches_boothSlot {b x : Nat} (hb : b < 64) (hx : x < 0x10000) (pf : Nat) :
    srcReaches (.host pf) (boothSlot b + x) = true := by
  have h := boothSlot_add_bounds hb hx
  simp only [boothWin] at h
  have hw : (boothSlot b + x - 0x030000000000) / 0x01000000 = 1 := by omega
  have h0 : ¬ boothSlot b + x < 0x030000000000 := by omega
  have h1 : boothSlot b + x < 0x030010000000 := by omega
  simp [srcReaches, pfReaches, pf1Reg, hw, h0, h1]

/-- With no die stopped no access to a booth slot waits. -/
theorem accessWaits_boothSlot {b x : Nat} {s : State} (hb : b < 64) (hx : x < 0x10000) (hd : s.dbg.stoppedDies = []) :
    accessWaits s (unmirror (boothSlot b + x)) = false := by
  have hu : unmirror (boothSlot b + x) = boothSlot b + x := by
    rw [unmirror, inMirror_boothSlot hb hx, if_neg Bool.false_ne_true]
  simp only [accessWaits, hu, hd, windowBlock_boothSlot hb hx, List.contains_nil, Bool.or_self]

/-- A 32-bit write of a function to a register of a booth it may write follows the register's access codes. -/
theorem exec_registerWrite_boothSlot {pf b x : Nat} {s : State} (hh : s.pkg.held = false) (hd : s.dbg.stoppedDies = [])
    (ha : boothAllows s (.host pf) b = true) (hx : x < 0x1000) (hx4 : x % 4 = 0) (hpost : x ≠ 4) (v : Word) :
    exec (.registerWrite (.host pf) (boothSlot b + x) 4 v) s = .next (codeWrite (.host pf) (boothSlot b + x) v s) := by
  have hb : b < 64 := Nat.lt_succ_of_lt (lt_of_boothAllows ha)
  have hx' : x < 0x10000 := by omega
  have hal : (boothSlot b + x) % 4 = 0 := by simp only [boothSlot, boothWin]; omega
  have halive : dieAlive s (dieOfAddr (boothSlot b + x)) = true := by simp [dieAlive, dieOfAddr_boothSlot hb hx']
  show execRegisterWrite _ _ _ _ _ = _
  rw [execRegisterWrite, ← boothWrite_register ha hx hpost, ← regWrite_boothSlot hb hx']
  simp only [hh, srcReaches_boothSlot hb hx', inWindow_boothSlot hb hx', hal, halive,
    accessWaits_boothSlot hb hx' hd, Bool.not_true, Bool.false_eq_true, ne_eq, not_true_eq_false, or_self, if_false]

/-- The row of the notify addresses, low half, of the booths (02 R45): bits [31:2] are writable. -/
def notifyLoRow : RegRow := (rwr "WDN_BOOTH_NOTIFY_LO" 0x10 0xFFFFFFFC 0 0 .booth).arr 0x10000 63

theorem regAt_notifyLo {b : Nat} (hb : b < 63) : regAt (boothSlot b + 0x10) = some notifyLoRow := by
  have hb' : b < 64 := by omega
  obtain ⟨hlo, hhi⟩ := boothSlot_add_bounds hb' (by decide : 0x10 < 0x10000)
  simp only [boothWin] at hlo hhi
  have h0 : ¬ boothSlot b + 0x10 < 0x030000000000 := by omega
  have h1 : boothSlot b + 0x10 < 0x03000B000000 := by omega
  have hw : (boothSlot b + 0x10 - 0x030000000000) / 0x01000000 = 1 := by omega
  have hrows : rowsAt (boothSlot b + 0x10) = rowsBooth := by
    simp only [rowsAt, if_neg h0, if_pos h1, hw, rowsHub]
  rw [regAt, hrows, winOff_boothSlot hb' (by decide)]
  have hlt : ∀ k : Nat, k ≤ 0x10 → ¬ b * 0x10000 + 0x10 < k := fun k hk => by omega
  simp [notifyLoRow, rowsBooth, List.find?, RegRow.covers, RegRow.arr, ro, rwr, rc, hlt, hb]

/-- A write leaves bits [1:0], which are not writable, as they stand. -/
theorem codeValue_notifyLo (old v : Word) : codeValue notifyLoRow old v = (old &&& 3) ||| (v &&& 0xFFFFFFFC) := by
  have hmask : ~~~(0xFFFFFFFC : Word) = 3 := by decide
  show (((old &&& ~~~(0xFFFFFFFC : Word)) ||| (v &&& 0xFFFFFFFC)) &&& ~~~(v &&& 0#32)) ||| (v &&& 0#32) = _
  rw [hmask, BitVec.and_zero, BitVec.not_zero, BitVec.and_allOnes, BitVec.or_zero]

/-- The writer of a booth meets the authority of the slot's registers. -/
theorem authOk_of_boothAllows {src : Writer} {b x : Nat} {s : State} (hx : x < 0x10000)
    (ha : boothAllows s src b = true) : authOk s (boothSlot b + x) src .booth = true := by
  have hq : (b * 0x10000 + x) / 0x10000 = b := by omega
  rw [boothAllows, Bool.and_eq_true] at ha
  rw [authOk, boothSlot_add_sub, hq, ha.2]

/-- A function's write of a booth's notify address: bits [31:2] take the value, bits [1:0] stay. -/
theorem exec_registerWrite_notifyLo {pf b : Nat} {s : State} (hh : s.pkg.held = false) (hd : s.dbg.stoppedDies = [])
    (ha : boothAllows s (.host pf) b = true) (v : Word) :
    exec (.registerWrite (.host pf) (boothSlot b + 0x10) 4 v) s
      = .next (wr s (boothSlot b + 0x10) ((rd s (boothSlot b + 0x10) &&& 3) ||| (v &&& 0xFFFFFFFC))) := by
  have hb := lt_of_boothAllows ha
  have hauth : authOk s (boothSlot b + 0x10) (.host pf) notifyLoRow.auth = true := authOk_of_boothAllows (by decide) ha
  rw [exec_registerWrite_boothSlot hh hd ha (by decide) rfl (by decide), codeWrite, regAt_notifyLo hb]
  dsimp only
  rw [if_pos hauth, acceptValue_boothSlot (Nat.lt_succ_of_lt hb) (by decide), codeValue_notifyLo]

/-- The machine out of the package reset with bit 0 of booth 0's notify address set. -/
def notifyBitSet : State :=
  { State.reset with pkg := { State.reset.pkg with held := false }, regs := [(boothSlot 0 + 0x10, 1)] }

/-- Refutes O6: its third clause says of every state that an authorised write of a booth's notify address leaves the
register at `v &&& 0xFFFFFFFC`. The write takes bits [31:2] alone and leaves the reserved bits [1:0] as they stand
(00 R5), and no premise says that they read zero before. Where bit 0 is set, a write of zero leaves 1, and the clause
has 0. -/
theorem not_hostAccessesCountedAndPerformed : ¬ Obligations.HostAccessesCountedAndPerformed := by
  rintro ⟨-, -, hwrite, -⟩
  have hallow : boothAllows notifyBitSet (.host 0) 0 = true := by decide
  obtain ⟨⟨t, ht, hrd, -⟩, -⟩ := hwrite notifyBitSet (.host 0) 0 0 rfl (by decide) rfl hallow rfl
  rw [exec_registerWrite_notifyLo rfl rfl hallow] at ht
  obtain rfl := Host.Outcome.next.inj ht
  have hbit : rd notifyBitSet (boothSlot 0 + 0x10) = 1 := by decide
  rw [rd_wr_same, hbit] at hrd
  exact absurd hrd (by decide)

end Sys2Proof.Machine
end

section
/-!
PROOF. Frames of steps that write registers: how they compose, and that a field written back as it reads changes nothing.
-/
namespace Sys2Proof.Machine

theorem Part.Same.trans {p : Part} {s t u : State} (h : p.Same s t) (h' : p.Same t u) : p.Same s u := by
  cases p <;> exact Eq.trans h' h

theorem KeepsBut.refl (l : List Part) (s : State) : KeepsBut l s s := ⟨rfl, fun p _ => by cases p <;> rfl⟩

theorem KeepsBut.trans {l : List Part} {s t u : State} (h : KeepsBut l s t) (h' : KeepsBut l t u) : KeepsBut l s u :=
  ⟨h'.1.trans h.1, fun p hp => (h.2 p hp).trans (h'.2 p hp)⟩

theorem KeepsBut.mono {l l' : List Part} {s t : State} (h : KeepsBut l s t) (hl : l ⊆ l') : KeepsBut l' s t :=
  ⟨h.1, fun p hp => h.2 p (fun hm => hp (hl hm))⟩

theorem RegsBut.trans {f : Nat → Prop} {s t u : State} (h : RegsBut f s t) (h' : RegsBut f t u) : RegsBut f s u :=
  fun a ha => (h' a ha).trans (h a ha)

/-- A change of the register file and the clocks' state leaves the other parts. -/
theorem keepsBut_regs_clk (s : State) (r : Sparse Word) (c : Clk) : KeepsBut [.regs, .clk] s { s with regs := r, clk := c } := by
  refine ⟨rfl, fun p hp => ?_⟩
  cases p with
  | regs => exact absurd List.mem_cons_self hp
  | clk => exact absurd (List.mem_cons_of_mem _ List.mem_cons_self) hp
  | _ => rfl

/-- A register write leaves the other parts and the other registers. -/
theorem keepsBut_wr (s : State) (a : Nat) (v : Word) : KeepsBut [.regs] s (wr s a v) := by
  refine ⟨rfl, fun p hp => ?_⟩
  cases p with
  | regs => exact absurd List.mem_cons_self hp
  | _ => rfl

theorem KeepsBut.clk {s t : State} (h : KeepsBut [.regs] s t) : KeepsBut [.regs, .clk] s t :=
  h.mono (List.cons_subset_cons _ (List.nil_subset _))

theorem regsBut_wr {f : Nat → Prop} {a : Nat} (ha : f a) (s : State) (v : Word) : RegsBut f s (wr s a v) :=
  fun _ hb => rd_wr_other s v (fun h => hb (h ▸ ha))

/-- A field written back as it reads leaves the word. -/
theorem setFld_fld (w : Word) {hi lo : Nat} (h : lo ≤ hi) (h32 : hi < 32) : setFld w hi lo (fld w hi lo) = w := by
  refine BitVec.eq_of_toNat_eq (Nat.eq_of_testBit_eq fun i => ?_)
  rw [setFld_testBit w hi lo _ i h h32, fld, nfld_testBit]
  split
  · rename_i hin
    rw [decide_eq_true (by omega), Bool.true_and, Nat.add_sub_cancel' hin.1]
  · rfl

/-- A register whose field is written back as it reads, like every other, holds what it held. -/
theorem rd_wrF_self (s : State) {a hi lo : Nat} (h : lo ≤ hi) (h32 : hi < 32) (b : Nat) :
    rd (wrF s a hi lo (rdF s a hi lo)) b = rd s b := by
  rw [rd_wrF]
  split
  · next hb => rw [hb, rdF, setFld_fld _ h h32]
  · rfl

end Sys2Proof.Machine
end

section
/-!
PROOF. The clock sources' selections: what a selection honoured, a selection refused and the end of a slew leave (O16).
-/
namespace Sys2Proof.Machine

/-! ### Slews (03 R85, R86) -/

/-- A domain listed as being slewed. -/
def listSwitching (dom : Nat) (s : State) : State :=
  { s with clk := { s.clk with switching := s.clk.switching.filter (· ≠ dom) ++ [dom] } }

theorem startSlew_srl (s : State) :
    startSlew 0 s = wrB (wrB (listSwitching 0 s) switchStatus 1 true) switchStatus 4 false := rfl

/-- CLK_SWITCH_STATUS is of SRL and TL alone. -/
theorem startSlew_lrl (s : State) (l : Nat) : startSlew (2 + l) s = listSwitching (2 + l) s := by
  have h : ¬ 2 + l < 2 := by omega
  have h0 : 2 + l ≠ 0 := by omega
  simp only [startSlew, if_neg h, if_neg h0, listSwitching]

theorem switching_startSlew (s : State) (dom : Nat) : switching (startSlew dom s) dom = true := by
  simp only [startSlew, switching]
  split <;> split <;> simp

theorem rd_listSwitching (s : State) (dom a : Nat) : rd (listSwitching dom s) a = rd s a := rfl

theorem keepsBut_listSwitching (s : State) (dom : Nat) : KeepsBut [.regs, .clk] s (listSwitching dom s) :=
  keepsBut_regs_clk s s.regs _

/-- SRL's selection written and its slew begun (R86). -/
theorem srlSlew_frame (s : State) (v : Nat) :
    KeepsBut [.regs, .clk] s (startSlew 0 (wrF s rootSel 1 0 v))
      ∧ RegsBut (fun a => a = rootSel ∨ a = switchStatus) s (startSlew 0 (wrF s rootSel 1 0 v)) := by
  rw [startSlew_srl]
  constructor
  · exact (keepsBut_wr s _ _).clk.trans ((keepsBut_listSwitching _ 0).trans
      ((keepsBut_wr _ _ _).clk.trans (keepsBut_wr _ _ _).clk))
  · exact (regsBut_wr (.inl rfl) s _).trans (RegsBut.trans (fun a _ => rd_listSwitching _ 0 a)
      ((regsBut_wr (.inr rfl) _ _).trans (regsBut_wr (.inr rfl) _ _)))

theorem rd_srlSlew_rootSel (s : State) (v : Nat) :
    rd (startSlew 0 (wrF s rootSel 1 0 v)) rootSel = setFld (rd s rootSel) 1 0 v := by
  have hne : rootSel ≠ switchStatus := by decide
  rw [startSlew_srl, rd_wrB_other _ _ _ hne, rd_wrB_other _ _ _ hne]
  exact rd_wrF_same s rootSel 1 0 v

theorem rd_srlSlew_switchStatus (s : State) (v : Nat) :
    rd (startSlew 0 (wrF s rootSel 1 0 v)) switchStatus = setBit (setBit (rd s switchStatus) 1 true) 4 false := by
  have hne : switchStatus ≠ rootSel := by decide
  rw [startSlew_srl, rd_wrB_same, rd_wrB_same]
  exact congrArg (fun w => setBit (setBit w 1 true) 4 false) (rd_wrF_other s 1 0 v hne)

/-! ### Selections (03 R84) -/

theorem selectField_honoured {s : State} {a hi lo v dom : Nat} (hv : rdF s a hi lo ≠ v) (hs : switching s dom = false) :
    selectField s a hi lo v dom true = startSlew dom (wrF s a hi lo v) := by
  simp only [selectField, if_neg hv, hs, Bool.not_false, and_self, if_true]

theorem selectField_refused {s : State} {a hi lo v dom : Nat} {ready : Bool} (hv : rdF s a hi lo ≠ v)
    (h : ready = false ∨ switching s dom = true) : selectField s a hi lo v dom ready = wrB s switchStatus 0 true := by
  have hn : ¬ (ready = true ∧ (!switching s dom) = true) := by
    rcases h with h | h <;> simp [h]
  rw [selectField, if_neg hv, if_neg hn]

/-- A write of CLK_ROOT_SEL that names SRL_FB, TL_REF and TL_LANE as they stand is a selection of SRL_REF alone: past
it every register holds what it held. -/
theorem writeRootSel_srl {s u : State} {v : Word} (hfb : rdF s rootSel 5 4 = fld v 5 4)
    (hu : selectField s rootSel 1 0 (fld v 1 0) 0 (srlReady s (fld v 1 0)) = u)
    (href : rdF u rootSel 10 8 = fld v 10 8) (hlane : rdF u rootSel 24 16 = fld v 24 16) :
    KeepsBut [.regs] u (writeRootSel v s) ∧ ∀ a : Nat, rd (writeRootSel v s) a = rd u a := by
  have hw : writeRootSel v s = u ∨ writeRootSel v s = wrF u rootSel 24 16 (rdF u rootSel 24 16) := by
    simp only [writeRootSel, writeFallback, if_pos hfb, hu, href, hlane, or_true, and_self, if_true]
    split
    · exact .inl rfl
    · exact .inr rfl
  rcases hw with hw | hw <;> rw [hw]
  · exact ⟨KeepsBut.refl _ u, fun _ => rfl⟩
  · exact ⟨keepsBut_wr _ _ _, rd_wrF_self u (by decide) (by decide)⟩

theorem exec_writeRootSel {s : State} (hh : s.pkg.held = false) (v : Word) :
    exec (.clkSourceSelectWrite .warden 0 v) s = .next (writeRootSel v s) := by
  show execClkSourceSelectWrite _ _ _ _ = _
  simp [execClkSourceSelectWrite, hh]

theorem exec_writeLrlSel {s : State} (hh : s.pkg.held = false) {l : Nat} (hl : l < 4) (v : Word) (hv : fld v 2 0 < 5) :
    exec (.clkSourceSelectWrite .warden (l + 1) v) s
      = .next (selectField s (clkBlk (l + 1) + 4) 2 0 (fld v 2 0) (2 + l) (lrlReady s l (fld v 2 0))) := by
  have hd : isLaneDie (l + 1) = true := by simp [isLaneDie]; omega
  have hv' : ¬ 5 ≤ fld v 2 0 := by omega
  show execClkSourceSelectWrite _ _ _ _ = _
  simp [execClkSourceSelectWrite, writeLrlSel, hh, hd, hv']

/-- SRL's selection honoured: what the write of a ready source leaves. -/
theorem srlSelection_honoured {s : State} {v : Word} (hh : s.pkg.held = false) (hfb : rdF s rootSel 5 4 = fld v 5 4)
    (href : rdF s rootSel 10 8 = fld v 10 8) (hlane : rdF s rootSel 24 16 = fld v 24 16)
    (hne : rdF s rootSel 1 0 ≠ fld v 1 0) (hr : srlReady s (fld v 1 0) = true) (hs : switching s 0 = false) :
    Does (.clkSourceSelectWrite .warden 0 v) s (fun t => rdF t rootSel 1 0 = fld v 1 0 ∧ switching t 0 = true
      ∧ rdB t switchStatus 1 = true ∧ rdB t switchStatus 0 = rdB s switchStatus 0 ∧ KeepsBut [.regs, .clk] s t
      ∧ RegsBut (fun a => a = rootSel ∨ a = switchStatus) s t) := by
  have hsel := selectField_honoured hne hs
  rw [← hr] at hsel
  have hroot := rd_srlSlew_rootSel s (fld v 1 0)
  obtain ⟨hkeep, hregs⟩ := srlSlew_frame s (fld v 1 0)
  obtain ⟨hk, hrd⟩ := writeRootSel_srl hfb hsel
    (by rw [rdF, hroot, fld_setFld_other _ _ _ _ _ _ (by decide) (by decide) (by decide) (.inr (by decide))]; exact href)
    (by rw [rdF, hroot, fld_setFld_other _ _ _ _ _ _ (by decide) (by decide) (by decide) (.inr (by decide))]; exact hlane)
  refine ⟨_, exec_writeRootSel hh v, ?_, ?_, ?_, ?_, hkeep.trans hk.clk, hregs.trans (fun a _ => hrd a)⟩
  · rw [rdF, hrd, hroot, fld_setFld_same _ _ _ _ (by decide) (by decide), Nat.mod_eq_of_lt (fld_lt v 1 0)]
  · have hclk : (writeRootSel v s).clk = _ := hk.2 .clk (by decide)
    rw [switching, hclk]
    exact switching_startSlew _ 0
  · rw [rdB, hrd, rd_srlSlew_switchStatus, bit_setBit_other _ _ _ _ (by decide) (by decide), bit_setBit_same _ _ _ (by decide)]
  · rw [rdB, hrd, rd_srlSlew_switchStatus, bit_setBit_other _ _ _ _ (by decide) (by decide),
      bit_setBit_other _ _ _ _ (by decide) (by decide), rdB]

/-- SRL's selection refused: the field stands and REFUSED is set. -/
theorem srlSelection_refused {s : State} {v : Word} (hh : s.pkg.held = false) (hfb : rdF s rootSel 5 4 = fld v 5 4)
    (href : rdF s rootSel 10 8 = fld v 10 8) (hlane : rdF s rootSel 24 16 = fld v 24 16)
    (hne : rdF s rootSel 1 0 ≠ fld v 1 0) (hr : srlReady s (fld v 1 0) = false ∨ switching s 0 = true) :
    Does (.clkSourceSelectWrite .warden 0 v) s (fun t => rdF t rootSel 1 0 = rdF s rootSel 1 0 ∧ rdB t switchStatus 0 = true
      ∧ KeepsBut [.regs] s t ∧ RegsBut (fun a => a = rootSel ∨ a = switchStatus) s t) := by
  have hroot : rd (wrB s switchStatus 0 true) rootSel = rd s rootSel := rd_wrB_other s 0 true (by decide)
  obtain ⟨hk, hrd⟩ := writeRootSel_srl hfb (selectField_refused hne hr) (by rw [rdF, hroot]; exact href)
    (by rw [rdF, hroot]; exact hlane)
  refine ⟨_, exec_writeRootSel hh v, ?_, ?_, (keepsBut_wr s _ _).trans hk,
    (regsBut_wr (.inr rfl) s _).trans (fun a _ => hrd a)⟩
  · rw [rdF, hrd, hroot, rdF]
  · rw [rdB, hrd]
    exact rdB_wrB_same s switchStatus 0 true (by decide)

/-- A lane die's selection honoured. -/
theorem lrlSelection_honoured {s : State} {l : Nat} {v : Word} (hh : s.pkg.held = false) (hl : l < 4) (hv : fld v 2 0 < 5)
    (hne : rdF s (clkBlk (l + 1) + 4) 2 0 ≠ fld v 2 0) (hr : lrlReady s l (fld v 2 0) = true)
    (hs : switching s (2 + l) = false) :
    Does (.clkSourceSelectWrite .warden (l + 1) v) s (fun t => rdF t (clkBlk (l + 1) + 4) 2 0 = fld v 2 0
      ∧ switching t (2 + l) = true ∧ KeepsBut [.regs, .clk] s t ∧ RegsBut (fun a => a = clkBlk (l + 1) + 4) s t) := by
  have hsel := selectField_honoured hne hs
  rw [← hr] at hsel
  refine ⟨_, exec_writeLrlSel hh hl v hv, ?_⟩
  rw [hsel]
  refine ⟨?_, switching_startSlew _ _, ?_, ?_⟩
  · rw [startSlew_lrl, rdF, rd_listSwitching, rd_wrF_same, fld_setFld_same _ _ _ _ (by decide) (by decide),
      Nat.mod_eq_of_lt (fld_lt v 2 0)]
  · rw [startSlew_lrl]
    exact (keepsBut_wr s _ _).clk.trans (keepsBut_listSwitching _ _)
  · rw [startSlew_lrl]
    exact (regsBut_wr (f := fun a => a = clkBlk (l + 1) + 4) rfl s _).trans (fun a _ => rd_listSwitching _ _ a)

/-- A lane die's selection of a source that is not ready refused. -/
theorem lrlSelection_refused {s : State} {l : Nat} {v : Word} (hh : s.pkg.held = false) (hl : l < 4) (hv : fld v 2 0 < 5)
    (hne : rdF s (clkBlk (l + 1) + 4) 2 0 ≠ fld v 2 0) (hr : lrlReady s l (fld v 2 0) = false) :
    Does (.clkSourceSelectWrite .warden (l + 1) v) s (fun t => rdB t switchStatus 0 = true ∧ KeepsBut [.regs] s t
      ∧ RegsBut (fun a => a = switchStatus) s t) := by
  refine ⟨_, exec_writeLrlSel hh hl v hv, ?_⟩
  rw [selectField_refused hne (.inl hr)]
  exact ⟨rdB_wrB_same s switchStatus 0 true (by decide), keepsBut_wr s _ _,
    regsBut_wr (f := fun a => a = switchStatus) rfl s _⟩

/-- Only the Warden writes a selection (R78). -/
theorem exec_clkSourceSelectWrite_other {src : Writer} (h : src ≠ .warden) (die : Nat) (v : Word) (s : State) :
    exec (.clkSourceSelectWrite src die v) s = .next s := by
  show execClkSourceSelectWrite _ _ _ _ = _
  rw [execClkSourceSelectWrite, if_pos (.inr h)]

/-- The boot code takes XIN0 when it is ready (R81). -/
theorem bootReferenceSwitch_xin0 {s : State} (hh : s.pkg.held = false) (hf : rdF s rootSel 1 0 = 0)
    (hn : s.clk.noReference = false) (hs : switching s 0 = false) (hr : srlReady s 1 = true) :
    Does .bootReferenceSwitch s (fun t => rdF t rootSel 1 0 = 1 ∧ switching t 0 = true ∧ KeepsBut [.regs, .clk] s t
      ∧ RegsBut (fun a => a = rootSel ∨ a = switchStatus) s t) := by
  have hx : exec .bootReferenceSwitch s = .next (startSlew 0 (wrF s rootSel 1 0 1)) := by
    have hne : rdF s rootSel 1 0 ≠ 1 := by omega
    show execBootReferenceSwitch s = _
    simp only [execBootReferenceSwitch, hh, hf, hn, hr, selectField_honoured hne hs, Bool.false_eq_true, ne_eq,
      not_true_eq_false, or_self, if_false, if_true]
  obtain ⟨hkeep, hregs⟩ := srlSlew_frame s 1
  refine ⟨_, hx, ?_, switching_startSlew _ 0, hkeep, hregs⟩
  exact (congrArg (fld · 1 0) (rd_srlSlew_rootSel s 1)).trans (fld_setFld_same _ 1 0 1 (by decide) (by decide))

/-- The end of TL's slew (R85). -/
theorem referenceSlewEnd_tl {s : State} (hs : switching s 1 = true) (hb : s.clk.selectBooth = []) :
    Does (.referenceSlewEnd 1) s (fun t => switching t 1 = false ∧ KeepsBut [.regs, .clk] s t
      ∧ RegsBut (fun a => a = switchStatus) s t) := by
  have hx : exec (.referenceSlewEnd 1) s = .next (endSlew 1 s) := by
    show execReferenceSlewEnd 1 s = _
    simp [execReferenceSlewEnd, hs, hb]
  refine ⟨_, hx, ?_, (keepsBut_regs_clk s s.regs _).trans (keepsBut_wr _ _ _).clk, ?_⟩
  · simp [switching, endSlew]
  · exact regsBut_wr (f := fun a => a = switchStatus) rfl { s with clk := { s.clk with switching := _ } } _

/-- Settles O16: each clause is one outcome of the check of R84 on a selection field, or one end of a slew. -/
theorem clockSelectionIsHonouredWhenReady : Obligations.ClockSelectionIsHonouredWhenReady := by
  unfold Obligations.ClockSelectionIsHonouredWhenReady
  refine ⟨fun s v hh hfb href hlane hne => ⟨fun hr hs => ?_, fun hr => ?_⟩,
    fun s l v hh hl hv hne => ⟨fun hr hs => ?_, fun hr => ?_⟩, ?_, ?_, ?_⟩
  · exact srlSelection_honoured hh hfb href hlane hne hr hs
  · exact srlSelection_refused hh hfb href hlane hne hr
  · exact lrlSelection_honoured hh hl hv hne hr hs
  · exact lrlSelection_refused hh hl hv hne hr
  · exact fun s src die v h => exec_clkSourceSelectWrite_other h die v s
  · exact fun s => bootReferenceSwitch_xin0
  · exact fun s => referenceSlewEnd_tl

end Sys2Proof.Machine
end

section
/-!
PROOF. A forwarded clock lost while the floor lies above LIMIT: the ladder's rungs reach the lanes (O17).
-/
namespace Sys2Proof.Machine

/-- With the die alive and the unit's clock there so far, M7 acts (R90). -/
theorem exec_peerClockLost {s : State} {d u : Nat} (hh : s.pkg.held = false) (hd : dieAlive s d = true)
    (hc : (linkAt s d u).clock = true) : exec (.peerClockLost d u) s = .next (peerClockLost d u s) := by
  show execPeerClockLost d u s = _
  simp [execPeerClockLost, hh, hd, hc]

/-- An open contract whose flow crosses lane port 0 of G0. -/
def lanePortContract : Contract := { state := .opened, path := [.lane 8 0 true] }

/-- G0 and lane die 1 in RUN, the link unit between them UP. The energy of the outage supply has run out since the last
epoch boundary (16 R499, R500): LIMIT is 0, the floor 1 mW, and THREAT does not say so yet. Rung 6 of the plan sets
port 0 of PE0 to no speed. -/
def outageBeforeCheck : State :=
  { State.reset with
    pkg := { State.reset.pkg with held := false }
    regs := [(clkBlk 8 + 0x18, 0x30), (lnkBlk 8 8, 0x620000), (clkBlk 1, 0x300000)]
    bough := { State.reset.bough with contracts := [(0, lanePortContract)] }
    tal := { State.reset.tal with
      supply := 2, eRem := 1, tOut := 600, eUsed := 1000000, plan := { base := 1, subs := [(0, 0)] } } }

/-- The loss of the unit's clock breaks the contract, the break has the floor checked, and every rung is taken: the
Warden keeps the substituted configuration of the port (14 R453). -/
theorem kept_peerClockLost_outageBeforeCheck :
    (peerClockLost 8 8 outageBeforeCheck).lan.kept = [(penCfg 0 0, some 0)] := by
  decide +kernel

/-- Refutes O17: its clause on a lost forwarded clock says that the lanes' state is as it was. A unit that goes DOWN
breaks the contracts that cross it (07 R208; 06 R201), each break checks the floor (16 R499), and a floor above LIMIT
takes every rung, rung 6 with its port substitutions (16 R501). No premise excludes a limit that has fallen below the
floor since the last epoch boundary, as on an outage supply whose energy has run out. -/
theorem not_referencesAreReadyLostAndHeldOver : ¬ Obligations.ReferencesAreReadyLostAndHeldOver := by
  rintro ⟨⟨-, -, hlost⟩, -⟩
  have halive : dieAlive outageBeforeCheck 8 = true := by decide
  obtain ⟨t, ht, -, -, hlan, -⟩ := hlost outageBeforeCheck 8 8 1 0 rfl halive rfl rfl (by decide) (by decide)
  rw [exec_peerClockLost rfl halive rfl] at ht
  obtain rfl := Host.Outcome.next.inj ht
  have hkept := kept_peerClockLost_outageBeforeCheck
  rw [hlan] at hkept
  exact absurd hkept (by decide)

end Sys2Proof.Machine
end

section
/-!
PROOF. The rejoin of a die whose kept copies name the register of its state (O19).
-/
namespace Sys2Proof.Machine

/-- G0 in RESET with its root locked, released by a CLK_DIE_RESET without KEEP_DRAM of booth 0; the hub's copies for
its rejoin name the register that holds its state. -/
def copiesOfDieState : State :=
  { State.reset with
    pkg := { State.reset.pkg with held := false }
    regs := [(clkBlk 8, 0x80000000)]
    clk := { State.reset.clk with released := [8], dieResets := [(8, 0, false)] }
    ward := { State.reset.ward with
      taken := [{ booth := 0, op := 0x0206, seq := 0, flags := 0, args := [], phase := .running }] }
    dram := { State.reset.dram with kept := [(0, [(clkBlk 8 + 0x18, 0x35)])] } }

theorem dieState_dieRelockComplete_copiesOfDieState :
    dieState (after copiesOfDieState (exec (.dieRelockComplete 8) copiesOfDieState)) 8 = 0x35 := by
  decide

/-- Refutes O19: its clause on relock and retraining says that the die is then in REJOIN. The Warden writes back what
the hub has kept of the channels' registers (12 R365, R389) after it has set the state, and no premise says that the
copies are of those registers alone, as those are that the model takes before a reset. A copy of the register of the
die's state overwrites REJOIN. -/
theorem not_gatesBlockResetsAndDieResets : ¬ Obligations.GatesBlockResetsAndDieResets := by
  rintro ⟨-, -, -, hrejoin⟩
  obtain ⟨hrelock, -⟩ := hrejoin copiesOfDieState 0 8 _ rfl (.inl rfl) (by decide) (by decide) rfl rfl rfl
  obtain ⟨t, ht, hstate, -⟩ := hrelock (by decide) (by decide)
  have hcopy := dieState_dieRelockComplete_copiesOfDieState
  rw [ht] at hcopy
  exact absurd (hstate.symm.trans hcopy) (by decide)

end Sys2Proof.Machine
end

section
/-!
PROOF. Raising an event: the registers and parts it leaves, and where the event stands (02 R41, R61-R64).
-/
namespace Sys2Proof.Machine

/-! ### The registers of hub window 1 -/

/-- The registers of events lie in hub window 1 (01 R29). -/
theorem eventReg_bounds {a : Nat} (h : eventReg a) : boothWin ≤ a ∧ a < clkBase := by
  rcases h with rfl | rfl | rfl | rfl <;> decide

/-- A set of registers outside hub window 1 (01 R29). -/
def OffWindow1 (f : Nat → Prop) : Prop := ∀ a : Nat, f a → ¬ (boothWin ≤ a ∧ a < clkBase)

/-- A step that writes registers outside hub window 1 keeps every register within it. -/
theorem RegsBut.window1 {f : Nat → Prop} {s t : State} (h : RegsBut f s t) (hf : OffWindow1 f) {a : Nat}
    (ha : boothWin ≤ a ∧ a < clkBase) : rd t a = rd s a := h a (fun hfa => hf a hfa ha)

/-- Whether an event fits is decided by the Warden's state and by registers of hub window 1. -/
theorem EventFits.of_regsBut {f : Nat → Prop} {s t : State} {code sev : Nat} (h : EventFits s code sev)
    (hw : t.ward = s.ward) (hr : RegsBut f s t) (hf : OffWindow1 f) : EventFits t code sev := by
  have hstatus := hr.window1 hf (a := wardStatus) (by decide)
  have hprod := hr.window1 hf (a := evtProd) (by decide)
  have hcons := hr.window1 hf (a := evtCons) (by decide)
  simpa only [EventFits, generated, sysState, ringCount, rdF, hw, hstatus, hprod, hcons] using h

/-! ### The frame of `raise` -/

theorem regsBut_ringPut (e : EvtEntry) (s : State) : RegsBut eventReg s (ringPut e s) := by
  intro a ha
  have hprod : a ≠ evtProd := fun h => ha (.inl h)
  have hirq : a ≠ evtIrq := fun h => ha (.inr (.inl h))
  have hwrites (u : State) (hu : u.regs = s.regs) (n : Nat) :
      rd (wrB (wrF u evtProd 15 0 n) evtIrq 0 true) a = rd s a := by
    rw [rd_wrB_other _ _ _ hirq, rd_wrF_other _ _ _ _ hprod, rd_of_regs hu]
  simp only [ringPut]
  split
  · rw [rd_of_regs (raiseMsix_regs _ _ _)]
    exact hwrites _ rfl _
  · exact hwrites _ rfl _

theorem regsBut_putLost (s : State) : RegsBut eventReg s (putLost s) := by
  intro a ha
  simp only [putLost]
  split
  · rfl
  · exact regsBut_ringPut _ (nextSeq s) a ha

theorem regsBut_queueEvent (e : EvtEntry) (s : State) : RegsBut eventReg s (queueEvent e s) := by
  intro a ha
  rw [← regsBut_putLost s a ha]
  simp only [queueEvent]
  split
  · exact regsBut_ringPut _ (nextSeq (putLost s)) a ha
  · have hlost : a ≠ evtLost := fun h => ha (.inr (.inr (.inl h)))
    have hgroups : a ≠ evtLostGroups := fun h => ha (.inr (.inr (.inr h)))
    exact (rd_wr_other _ _ hgroups).trans (rd_cnt_other (nextSeq (putLost s)) hlost)

/-- An event raised writes the registers of the ring alone. -/
theorem regsBut_raise (code sev src : Nat) (d : List Word) (s : State) :
    RegsBut eventReg s (raise code sev src d s) := by
  intro a ha
  simp only [raise]
  split
  · rfl
  · split
    · rfl
    · exact regsBut_queueEvent _ s a ha

/-- An event raised changes the registers and the Warden alone. -/
theorem keepsBut_raise (code sev src : Nat) (d : List Word) (s : State) :
    KeepsBut [.regs, .ward] s (raise code sev src d s) := by
  refine ⟨raise_pending code sev src d s, fun p hp => ?_⟩
  cases p with
  | regs => exact absurd List.mem_cons_self hp
  | ward => exact absurd (List.mem_cons_of_mem _ List.mem_cons_self) hp
  | _ => simp [Part.Same]

/-- A register outside hub window 1 reads the same when an event is raised. -/
theorem rd_raise {a : Nat} (ha : ¬ (boothWin ≤ a ∧ a < clkBase)) (code sev src : Nat) (d : List Word) (s : State) :
    rd (raise code sev src d s) a = rd s a := regsBut_raise code sev src d s a (fun h => ha (eventReg_bounds h))

/-- A step and the event it raises. -/
theorem onlyRegs_raise {f : Nat → Prop} {l : List Part} {s t : State} (hk : KeepsBut (.regs :: l) s t)
    (hr : RegsBut f s t) (code sev src : Nat) (d : List Word) : OnlyRegs f l s (raise code sev src d t) := by
  constructor
  · exact (hk.mono (List.cons_subset_cons _ (List.subset_cons_self _ l))).trans
      ((keepsBut_raise code sev src d t).mono
        (List.cons_subset_cons _ (List.cons_subset_cons _ (List.nil_subset l))))
  · intro a ha
    rw [regsBut_raise code sev src d t a (fun h => ha (.inr h)), hr a (fun h => ha (.inl h))]

/-! ### Where a raised event stands -/

theorem ring_ringPut (e : EvtEntry) (s : State) :
    sget none (ringPut e s).ward.ring (rdF s evtProd 15 0 % 256) = some e := by
  simp only [ringPut]
  split
  · exact sget_sset_same none s.ward.ring _ (some e)
  · exact sget_sset_same none s.ward.ring _ (some e)

/-- With no event lost before and room in the ring, a queued event is put on it. -/
theorem queueEvent_of_room {s : State} (hl : s.ward.lostCount = 0) (hc : ringCount s < 256) (e : EvtEntry) :
    queueEvent e s = ringPut { e with seq := s.ward.evtSeq } (nextSeq s) := by
  have hp : putLost s = s := by rw [putLost, if_pos (.inl hl)]
  simp only [queueEvent, hp, if_pos hc]

/-- An event that fits stands on the ring, or among those held, with its detail. -/
theorem eventPlaced_raise {s : State} {code sev : Nat} (h : EventFits s code sev) (src : Nat) (d : Word)
    (ds : List Word) : EventPlaced (raise code sev src (d :: ds) s) code d := by
  obtain ⟨hgen, hroom⟩ := h
  have hgen' : ¬ (!generated s code sev) = true := by simp [hgen]
  simp only [raise, if_neg hgen']
  by_cases hheld : (s.ward.takeover || decide (sysState s = 0x13)) = true
  · rw [if_pos hheld]
    exact ⟨_, .inr (List.mem_append_right _ List.mem_cons_self), rfl, rfl⟩
  · obtain ⟨hl, hc⟩ : s.ward.lostCount = 0 ∧ ringCount s < 256 := by
      simp only [Bool.or_eq_true, decide_eq_true_eq, not_or] at hheld
      exact (hroom.resolve_left hheld.1).resolve_left hheld.2
    rw [if_neg hheld, queueEvent_of_room hl hc]
    exact ⟨_, .inl ⟨_, ring_ringPut _ _⟩, rfl, rfl⟩

end Sys2Proof.Machine
end

section
/-!
PROOF. The configuration sweep, the load of the image table at boot step 8, and the end of boot (O23).
-/
namespace Sys2Proof.Machine

/-! ### The sweep of a LOGIC frame (04 R106, R124) -/

/-- Frame address of LOGIC frame `idx` of grove `g`. -/
def logicFar (g idx : Nat) : Nat := (8 + g) * 2 ^ 28 + 2 ^ 24 + idx

theorem logicFar_div {g idx : Nat} (h : idx < 12800) : logicFar g idx / 268435456 = 8 + g := by
  simp only [logicFar]; omega

/-- Type and index of the address name a frame of R107. -/
theorem frameListed_logicFar {g idx : Nat} (h : idx < 12800) :
    frameListed (nfld (logicFar g idx) 27 24) (nfld (logicFar g idx) 15 0) = true := by
  have htype : nfld (logicFar g idx) 27 24 = 1 := by
    simp only [nfld, logicFar, Nat.shiftRight_eq_div_pow]; omega
  have hidx : nfld (logicFar g idx) 15 0 = idx := by
    simp only [nfld, logicFar, Nat.shiftRight_zero]; omega
  rw [htype, hidx]
  exact decide_eq_true h

theorem inject_of_not_armed {s : State} {d n : Nat} (h : injArmed s d n = false) : inject d n s = (false, s) := by
  simp [inject, h]

/-- With no entry of INJ_WHERE in use no finding counts as injected (19 R565). -/
theorem findingAt_of_whereUsed_nil {s : State} {d n : Nat} (h : whereUsed s d n = []) (loc : Nat) :
    findingAt d n loc s = s := by
  simp [findingAt, whereOf, h]

/-- What the sweep does on a corrected error. -/
def sweepCorrected (g : Nat) (s : State) : State := countCorr (8 + g) (cnt s (cfgGrv g + 0x4C))

/-- What the sweep does on an uncorrectable error, before its event. -/
def sweepUpset (g far : Nat) (s : State) : State :=
  countUncorr (8 + g) (wr (cnt s (cfgGrv g + 0x50)) (cfgGrv g + 0x54) (word far))

/-- What the sweep does on a finding: 0 no error, 1 corrected, else uncorrectable. -/
def sweepFound (g far : Nat) (sh : Bool) (finding : Nat) (s : State) : State :=
  match finding with
  | 0 => s
  | 1 => sweepCorrected g s
  | _ => raise 0x0305 3 0 [word far, word (b2n sh)] (sweepUpset g far s)

theorem sweepFound_uncorrectable (g far : Nat) (sh : Bool) (s : State) :
    sweepFound g far sh 2 s = raise 0x0305 3 0 [word far, word (b2n sh)] (sweepUpset g far s) := by
  simp only [sweepFound]

/-- The sweep of a frame with nothing injected does what its finding says. -/
theorem exec_configSweepRead {s : State} {g idx : Nat} (hg : g < 8) (hi : idx < 12800)
    (hd : dieAlive s (8 + g) = true) (ha : injArmed s (8 + g) 1 = false) (hw : whereUsed s (8 + g) 1 = [])
    (sh : Bool) (finding : Nat) :
    exec (.configSweepRead g (logicFar g idx) sh finding) s = .next (sweepFound g (logicFar g idx) sh finding s) := by
  have hocc : ¬ (8 ≤ g ∨ logicFar g idx / 2 ^ 28 ≠ 8 + g
      ∨ (!frameListed (nfld (logicFar g idx) 27 24) (nfld (logicFar g idx) 15 0)) = true
      ∨ (!dieAlive s (8 + g)) = true) := by
    simp [logicFar_div hi, frameListed_logicFar hi, hd, Nat.not_le.mpr hg]
  show execConfigSweepRead _ _ _ _ _ = _
  simp only [execConfigSweepRead, if_neg hocc, inject_of_not_armed ha, ite_self, Bool.false_eq_true, if_false,
    findingAt_of_whereUsed_nil hw]
  match finding with
  | 0 => rfl
  | 1 => rfl
  | _ + 2 => simp [sweepFound, sweepUpset]

/-- The findings counted of a die are no register. -/
theorem rd_countCorr (d : Nat) (s : State) (a : Nat) : rd (countCorr d s) a = rd s a := rfl
theorem rd_countUncorr (d : Nat) (s : State) (a : Nat) : rd (countUncorr d s) a = rd s a := rfl

theorem countUncorr_ward (d : Nat) (s : State) : (countUncorr d s).ward = s.ward := rfl

/-- A change of the register file and of the account of findings leaves the other parts. -/
theorem keepsBut_regs_ras (s : State) (r : Sparse Word) (x : Ras) :
    KeepsBut [.regs, .ras] s { s with regs := r, ras := x } := by
  refine ⟨rfl, fun p hp => ?_⟩
  cases p with
  | regs => exact absurd List.mem_cons_self hp
  | ras => exact absurd (List.mem_cons_of_mem _ List.mem_cons_self) hp
  | _ => rfl

theorem KeepsBut.ras {s t : State} (h : KeepsBut [.regs] s t) : KeepsBut [.regs, .ras] s t :=
  h.mono (List.cons_subset_cons _ (List.nil_subset _))

theorem keepsBut_sweepCorrected (g : Nat) (s : State) : KeepsBut [.regs, .ras] s (sweepCorrected g s) :=
  (keepsBut_wr s _ _).ras.trans (keepsBut_regs_ras _ _ _)

theorem keepsBut_sweepUpset (g far : Nat) (s : State) : KeepsBut [.regs, .ras] s (sweepUpset g far s) :=
  (keepsBut_wr s _ _).ras.trans ((keepsBut_wr _ _ _).ras.trans (keepsBut_regs_ras _ _ _))

theorem rd_sweepCorrected (g : Nat) (s : State) (a : Nat) :
    rd (sweepCorrected g s) a = if a = cfgGrv g + 0x4C then satInc (rd s (cfgGrv g + 0x4C)) else rd s a := by
  rw [sweepCorrected, rd_countCorr, rd_cnt]

theorem sweepUpset_ward (g far : Nat) (s : State) : (sweepUpset g far s).ward = s.ward := by
  rw [sweepUpset, countUncorr_ward, wr_ward, cnt_ward]

theorem rd_sweepUpset (g far : Nat) (s : State) (a : Nat) :
    rd (sweepUpset g far s) a = if a = cfgGrv g + 0x54 then word far
      else if a = cfgGrv g + 0x50 then satInc (rd s (cfgGrv g + 0x50)) else rd s a := by
  rw [sweepUpset, rd_countUncorr, rd_wr, rd_cnt]

theorem regsBut_sweepUpset (g far : Nat) (s : State) :
    RegsBut (fun a => a = cfgGrv g + 0x50 ∨ a = cfgGrv g + 0x54) s (sweepUpset g far s) := by
  intro a ha
  rw [rd_sweepUpset, if_neg (fun h => ha (.inr h)), if_neg (fun h => ha (.inl h))]

/-- The configuration block of a grove lies past hub window 1 (01 R29, R31). -/
theorem cfgGrv_add_off (g k : Nat) : ¬ (boothWin ≤ cfgGrv g + k ∧ cfgGrv g + k < clkBase) := by
  simp only [cfgGrv, groveWin, clkBase]; omega

/-- A corrected error is counted in CFG_SWEEP_CORR. -/
theorem sweep_corrected {s : State} {g idx : Nat} (hg : g < 8) (hi : idx < 12800)
    (hd : dieAlive s (8 + g) = true) (ha : injArmed s (8 + g) 1 = false) (hw : whereUsed s (8 + g) 1 = [])
    (sh : Bool) :
    Does (.configSweepRead g (logicFar g idx) sh 1) s (fun t =>
      rd t (cfgGrv g + 0x4C) = satInc (rd s (cfgGrv g + 0x4C)) ∧ KeepsBut [.regs, .ras] s t
        ∧ RegsBut (fun a => a = cfgGrv g + 0x4C) s t) := by
  refine ⟨_, exec_configSweepRead hg hi hd ha hw sh 1, ?_, keepsBut_sweepCorrected g s, fun a hne => ?_⟩
  · exact (rd_sweepCorrected g s _).trans (if_pos rfl)
  · exact (rd_sweepCorrected g s a).trans (if_neg hne)

/-- An uncorrectable error is counted, its address loaded and its event raised. -/
theorem sweep_uncorrectable {s : State} {g idx : Nat} (hg : g < 8) (hi : idx < 12800)
    (hd : dieAlive s (8 + g) = true) (ha : injArmed s (8 + g) 1 = false) (hw : whereUsed s (8 + g) 1 = [])
    (sh : Bool) :
    Does (.configSweepRead g (logicFar g idx) sh 2) s (fun t =>
      rd t (cfgGrv g + 0x50) = satInc (rd s (cfgGrv g + 0x50)) ∧ rd t (cfgGrv g + 0x54) = word (logicFar g idx)
        ∧ (EventFits s 0x0305 3 → EventPlaced t 0x0305 (word (logicFar g idx)))
        ∧ OnlyRegs (fun a => a = cfgGrv g + 0x50 ∨ a = cfgGrv g + 0x54) [.ras] s t) := by
  have hregs := regsBut_sweepUpset g (logicFar g idx) s
  have hoff : OffWindow1 (fun a => a = cfgGrv g + 0x50 ∨ a = cfgGrv g + 0x54) := by
    rintro a (rfl | rfl) <;> exact cfgGrv_add_off g _
  have hx := exec_configSweepRead hg hi hd ha hw sh 2
  rw [sweepFound_uncorrectable] at hx
  refine ⟨_, hx, ?_, ?_, fun hfits => ?_, ?_⟩
  · refine (rd_raise (cfgGrv_add_off g _) _ _ _ _ _).trans ((rd_sweepUpset g _ s _).trans ?_)
    rw [if_neg (by omega), if_pos rfl]
  · exact (rd_raise (cfgGrv_add_off g _) _ _ _ _ _).trans ((rd_sweepUpset g _ s _).trans (if_pos rfl))
  · exact eventPlaced_raise (hfits.of_regsBut (sweepUpset_ward g _ s) hregs hoff) _ _ _
  · exact onlyRegs_raise (keepsBut_sweepUpset g _ s) hregs _ _ _ _

/-! ### The load of a static region from the image table (04 R98, R115) -/

/-- CFG_STATIC_STATE and the CFG_CLR_STATE of the clearings are registers apart. -/
theorem regionReg_ne_static {g c : Nat} (hc : c < 16) : regionReg g c ≠ regionReg g 16 := by
  have hne : c ≠ 16 := by omega
  simp only [regionReg, if_neg hne, if_true]
  omega

/-- A change of the register file, the configuration's state and the fabric leaves the other parts. -/
theorem keepsBut_regs_cfg_fab (s : State) (r : Sparse Word) (c : Cfg) (x : Fabric) :
    KeepsBut [.regs, .cfg, .fab] s { s with regs := r, cfg := c, fab := x } := by
  refine ⟨rfl, fun p hp => ?_⟩
  cases p with
  | regs => exact absurd List.mem_cons_self hp
  | cfg => exact absurd (List.mem_cons_of_mem _ List.mem_cons_self) hp
  | fab => exact absurd (List.mem_cons_of_mem _ (List.mem_cons_of_mem _ List.mem_cons_self)) hp
  | _ => rfl

/-- What the adoption of a floorplan leaves: the loads, the static region's register, and the parts that it has no
part in. -/
def PlanFrame (g : Nat) (s t : State) : Prop :=
  t.cfg.loads = s.cfg.loads ∧ rd t (regionReg g 16) = rd s (regionReg g 16) ∧ KeepsBut [.regs, .cfg, .fab] s t

theorem adoptPlan_frame (g : Nat) (desc : List Word) (s : State) : PlanFrame g s (adoptPlan g desc s) := by
  refine List.foldlRecOn (motive := PlanFrame g s) (upto 16) _ ⟨rfl, rfl, KeepsBut.refl _ s⟩ ?_
  rintro t ⟨hloads, hrd, hkeep⟩ c hc
  have hreg : regionReg g 16 ≠ regionReg g c := (regionReg_ne_static (List.mem_range.mp hc)).symm
  exact ⟨hloads, (rd_wrB_other _ _ _ hreg).trans hrd, hkeep.trans (keepsBut_regs_cfg_fab t _ _ t.fab)⟩

/-- A load listed among those under way. -/
def listLoad (l : Load) (s : State) : State := { s with cfg := { s.cfg with loads := s.cfg.loads ++ [l] } }

/-- A static image's load begun into the live plane: LOADING, and the load listed. -/
theorem beginLoad_static {l : Load} (hr : l.region = 16) (hs : l.shadow = false) (h desc : List Word) (s : State) :
    regionState (beginLoad l h desc s) l.grove 16 = 0x41
      ∧ (beginLoad l h desc s).cfg.loads = s.cfg.loads ++ [armLoad l h desc]
      ∧ KeepsBut [.regs, .cfg, .fab] s (beginLoad l h desc s) := by
  have hb : beginLoad l h desc s = adoptPlan l.grove desc
      (setRegionState l.grove 16 0x41 (erasePlane l.grove 16 false (listLoad (armLoad l h desc) s))) := by
    simp [beginLoad, beginPlane, armLoad, listLoad, hr, hs]
  rw [hb]
  obtain ⟨hloads, hrd, hkeep⟩ := adoptPlan_frame l.grove desc
    (setRegionState l.grove 16 0x41 (erasePlane l.grove 16 false (listLoad (armLoad l h desc) s)))
  refine ⟨?_, hloads, (keepsBut_regs_cfg_fab s _ _ _).trans hkeep⟩
  rw [regionState, rdF, hrd]
  exact rdF_wrF_same _ (regionReg l.grove 16) 7 0 0x41 (by decide) (by decide)

/-- The load that boot step 8 begins of a static region's entry. -/
def tableLoad (g : Nat) : Load :=
  { grove := g, region := 16, shadow := false, source := 0, auto := false, table := true }

/-- At boot step 8 an entry for the static region of a grove in REJOIN begins its load. -/
theorem exec_rejoinReload_boot {s : State} {g e : Nat} {h hdr desc : List Word} (hg : g < 8)
    (hh : s.cfg.header = some h) (he : e < hdrCount h) (ht : hdrTarget h e = 128 + g * 16)
    (hst : regionState s g 16 = 0x40) (hl : s.cfg.loads = []) (hd : dieState s (8 + g) = 0x34) (hb : bootStep s = 8)
    (hc : imageCheck s g 16 false hdr desc = none) :
    exec (.rejoinReload g e hdr desc 0) s = .next (beginLoad (tableLoad g) hdr desc s) := by
  have hbit7 : (128 + g * 16).testBit 7 = true := by
    rw [Nat.testBit_eq_decide_div_mod_eq]; exact decide_eq_true (by omega)
  have hbit8 : (128 + g * 16).testBit 8 = false := Nat.testBit_lt_two_pow (by omega)
  have hgrove : nfld (128 + g * 16) 6 4 = g := by
    simp only [nfld, Nat.shiftRight_eq_div_pow]; omega
  show execRejoinReload _ _ _ _ _ _ = _
  simp [execRejoinReload, hh, ht, hbit7, hbit8, hgrove, hst, hl, hd, hb, hc, Nat.not_le.mpr hg, Nat.not_le.mpr he,
    tableLoad]

/-- The load has begun, counted toward the image table. -/
theorem rejoinReload_boot {s : State} {g e : Nat} {h hdr desc : List Word} (hg : g < 8)
    (hh : s.cfg.header = some h) (he : e < hdrCount h) (ht : hdrTarget h e = 128 + g * 16)
    (hst : regionState s g 16 = 0x40) (hl : s.cfg.loads = []) (hd : dieState s (8 + g) = 0x34) (hb : bootStep s = 8)
    (hc : imageCheck s g 16 false hdr desc = none) :
    Does (.rejoinReload g e hdr desc 0) s (fun t => regionState t g 16 = 0x41
      ∧ (t.cfg.loads.map (fun l => (l.grove, l.region, l.table))) = [(g, 16, true)]
      ∧ KeepsBut [.regs, .cfg, .fab] s t) := by
  obtain ⟨hstate, hloads, hkeep⟩ := beginLoad_static (l := tableLoad g) rfl rfl hdr desc s
  refine ⟨_, exec_rejoinReload_boot hg hh he ht hst hl hd hb hc, hstate, ?_, hkeep⟩
  rw [hloads, hl]
  rfl

/-! ### The end of boot (04 R98) -/

/-- A fold whose step leaves the state leaves it. (Mathlib's `foldl_fixed'`, which the package does not import.) -/
theorem foldl_unchanged {α β : Type} {f : α → β → α} {a : α} (h : ∀ b : β, f a b = a) (l : List β) :
    l.foldl f a = a := by
  induction l with
  | nil => rfl
  | cons b l ih => rw [List.foldl_cons, h, ih]

/-- With no region to release automatically none goes with its static region. -/
theorem releaseAutos_of_auto_nil {s : State} (h : s.cfg.auto = []) (g : Nat) : releaseAutos g s = s :=
  foldl_unchanged (fun c => by simp [h]) (upto 16)

/-- Boot step 9 with no region to release ends the boot. -/
theorem exec_autoRelease_of_auto_nil {s : State} (hb : bootStep s = 9) (ha : s.cfg.auto = []) :
    exec .autoRelease s
      = .next (raise 0x0304 0 0 [word (runMask s), word s.cfg.tableFailed] (setBootStep 0xA s)) := by
  show execAutoRelease s = _
  rw [execAutoRelease, if_neg (not_not_intro hb)]
  dsimp only
  rw [foldl_unchanged fun g => by simp [ha, releaseAutos_of_auto_nil ha]]

/-- Outside boot step 9 the end of boot has no occasion. -/
theorem exec_autoRelease_of_bootStep_ne {s : State} (h : bootStep s ≠ 9) : exec .autoRelease s = .next s := by
  show execAutoRelease s = _
  rw [execAutoRelease, if_pos h]

/-- Boot step 9 without regions to release enters user mode with CFG_BOOT_DONE. -/
theorem autoRelease_endsBoot {s : State} (hb : bootStep s = 9) (ha : s.cfg.auto = []) (hfits : EventFits s 0x0304 0) :
    Does .autoRelease s (fun t => bootStep t = 0xA ∧ EventPlaced t 0x0304 (word (runMask s))
      ∧ OnlyRegs (fun a => a = cfgBase) [] s t) := by
  have hregs : RegsBut (fun a => a = cfgBase) s (setBootStep 0xA s) := regsBut_wr (f := fun a => a = cfgBase) rfl s _
  have hoff : OffWindow1 (fun a => a = cfgBase) := by rintro a rfl; decide
  refine ⟨_, exec_autoRelease_of_auto_nil hb ha, ?_, ?_, ?_⟩
  · rw [bootStep, rdF, rd_raise (hoff cfgBase rfl)]
    exact rdF_wrF_same s cfgBase 23 16 0xA (by decide) (by decide)
  · exact eventPlaced_raise (hfits.of_regsBut (wrF_ward s _ _ _ _) hregs hoff) _ _ _
  · exact onlyRegs_raise (keepsBut_wr s _ _) hregs _ _ _ _

/-- Settles O23: each clause is one finding of the sweep, the load of one table entry, or the end of boot. -/
theorem sweepReloadAndEndOfBoot : Obligations.SweepReloadAndEndOfBoot := by
  unfold Obligations.SweepReloadAndEndOfBoot
  refine ⟨fun s g idx sh hg hi hd ha hw => ⟨?_, ?_, ?_⟩, ?_, ?_, ?_⟩
  · exact exec_configSweepRead hg hi hd ha hw sh 0
  · exact sweep_corrected hg hi hd ha hw sh
  · exact sweep_uncorrectable hg hi hd ha hw sh
  · exact fun s g e h hdr desc => rejoinReload_boot
  · exact fun s => autoRelease_endsBoot
  · exact fun s => exec_autoRelease_of_bootStep_ne

end Sys2Proof.Machine
end

section
/-!
PROOF. The parity square: its check bits as parities of bytes and columns, and what a read makes of a word with one
bit in error (O24, O25).
-/
namespace Sys2Proof.Machine

/-! ### Numbers made of bits -/

theorem foldl_upto_succ {α : Type} (f : α → Nat → α) (a : α) (n : Nat) :
    (upto (n + 1)).foldl f a = f ((upto n).foldl f a) n := by
  simp [upto, List.range_succ]

theorem b2n_le_one (b : Bool) : b2n b ≤ 1 := by cases b <;> decide

/-- The number whose bits below `n` are those of `f`. -/
def bitsNum (f : Nat → Bool) (n : Nat) : Nat := (upto n).foldl (fun m j => m + b2n (f j) * 2 ^ j) 0

theorem bitsNum_succ (f : Nat → Bool) (n : Nat) : bitsNum f (n + 1) = 2 ^ n * b2n (f n) + bitsNum f n := by
  rw [bitsNum, foldl_upto_succ, Nat.mul_comm, Nat.add_comm, bitsNum]

theorem bitsNum_lt (f : Nat → Bool) (n : Nat) : bitsNum f n < 2 ^ n := by
  induction n with
  | zero => exact Nat.one_pos
  | succ n ih =>
    have htop := Nat.mul_le_mul_left (2 ^ n) (b2n_le_one (f n))
    rw [bitsNum_succ, Nat.pow_succ]
    omega

theorem testBit_bitsNum (f : Nat → Bool) (n i : Nat) : (bitsNum f n).testBit i = (decide (i < n) && f i) := by
  induction n with
  | zero => simp [bitsNum, upto]
  | succ n ih =>
    rw [bitsNum_succ, Nat.testBit_two_pow_mul_add _ (bitsNum_lt f n), ih]
    rcases Nat.lt_trichotomy i n with h | rfl | h
    · simp [h, Nat.lt_succ_of_lt h]
    · cases f i <;> simp [b2n]
    · have hge : ¬ i < n + 1 := by omega
      have htop : b2n (f n) < 2 ^ (i - n) :=
        Nat.lt_of_le_of_lt (b2n_le_one (f n)) (Nat.one_lt_two_pow (Nat.sub_ne_zero_of_lt h))
      rw [if_neg (Nat.not_lt_of_gt h), Nat.testBit_lt_two_pow htop, decide_eq_false hge, Bool.false_and]

/-! ### Parities -/

/-- The XOR of the bits of `f` below `n`. -/
def xorBelow (f : Nat → Bool) : Nat → Bool
  | 0 => false
  | n + 1 => xorBelow f n ^^ f n

theorem xorBelow_congr {f g : Nat → Bool} {n : Nat} (h : ∀ i : Nat, i < n → f i = g i) :
    xorBelow f n = xorBelow g n := by
  induction n with
  | zero => rfl
  | succ n ih => rw [xorBelow, xorBelow, ih (fun i hi => h i (Nat.lt_succ_of_lt hi)), h n (Nat.lt_succ_self n)]

theorem xorBelow_xor (f g : Nat → Bool) (n : Nat) :
    xorBelow (fun i => f i ^^ g i) n = (xorBelow f n ^^ xorBelow g n) := by
  induction n with
  | zero => rfl
  | succ n ih =>
    simp only [xorBelow, ih]
    cases xorBelow f n <;> cases xorBelow g n <;> simp

/-- A count of bits is odd when their XOR is 1. -/
theorem length_filter_upto_mod_two (f : Nat → Bool) (n : Nat) :
    ((upto n).filter f).length % 2 = b2n (xorBelow f n) := by
  induction n with
  | zero => rfl
  | succ n ih =>
    have hsplit : ((upto (n + 1)).filter f).length = ((upto n).filter f).length + b2n (f n) := by
      cases h : f n <;> simp [upto, List.range_succ, h, b2n]
    rw [hsplit, Nat.add_mod, ih, xorBelow]
    cases xorBelow f n <;> cases f n <;> rfl

theorem par8_eq (n : Nat) : par8 n = b2n (xorBelow n.testBit 8) := length_filter_upto_mod_two _ 8

/-- The parity of byte `i` of a word (R149). -/
def byteParity (d i : Nat) : Bool := xorBelow (fun j => d.testBit (8 * i + j)) 8
/-- The parity of column `c` of a word (R149). -/
def columnParity (d c : Nat) : Bool := xorBelow (fun j => d.testBit (8 * j + c)) 8

theorem par8_byte (d i : Nat) : par8 (nfld d (8 * i + 7) (8 * i)) = b2n (byteParity d i) := by
  rw [par8_eq, byteParity]
  congr 1
  refine xorBelow_congr fun j hj => ?_
  rw [nfld_testBit, decide_eq_true (by omega), Bool.true_and]

theorem par8_column (d c : Nat) :
    par8 ((upto 8).foldl (fun m j => m + b2n (d.testBit (8 * j + c)) * 2 ^ j) 0) = b2n (columnParity d c) := by
  rw [par8_eq, columnParity]
  congr 1
  refine xorBelow_congr fun j hj => ?_
  exact (testBit_bitsNum (fun j => d.testBit (8 * j + c)) 8 j).trans (by rw [decide_eq_true hj, Bool.true_and])

/-! ### The check bits (R149) -/

/-- Two interleaved sums of bits are the numbers of either, the second shifted. -/
theorem foldl_upto_two_rows (f g : Nat → Bool) (n : Nat) :
    (upto n).foldl (fun m i => m + b2n (f i) * 2 ^ i + b2n (g i) * 2 ^ (8 + i)) 0
      = 2 ^ 8 * bitsNum g n + bitsNum f n := by
  induction n with
  | zero => rfl
  | succ n ih =>
    rw [foldl_upto_succ, ih, bitsNum_succ, bitsNum_succ, Nat.pow_add, Nat.mul_add, Nat.mul_comm (b2n (f n)),
      Nat.mul_comm (b2n (g n)), Nat.mul_assoc]
    omega

theorem squareOf_eq (d : Nat) : squareOf d = 2 ^ 8 * bitsNum (columnParity d) 8 + bitsNum (byteParity d) 8 := by
  simp only [squareOf, par8_byte, par8_column]
  exact foldl_upto_two_rows _ _ 8

theorem squareOf_lt (d : Nat) : squareOf d < 2 ^ 16 := by
  have hrow := bitsNum_lt (byteParity d) 8
  have hcol := bitsNum_lt (columnParity d) 8
  rw [squareOf_eq]
  omega

theorem testBit_squareOf_byte (d : Nat) {i : Nat} (h : i < 8) : (squareOf d).testBit i = byteParity d i := by
  rw [squareOf_eq, Nat.testBit_two_pow_mul_add _ (bitsNum_lt _ 8), if_pos h, testBit_bitsNum, decide_eq_true h,
    Bool.true_and]

theorem testBit_squareOf_column (d : Nat) {c : Nat} (h : c < 8) : (squareOf d).testBit (8 + c) = columnParity d c := by
  rw [squareOf_eq, Nat.testBit_two_pow_mul_add _ (bitsNum_lt _ 8), if_neg (Nat.not_lt.mpr (Nat.le_add_right 8 c)),
    Nat.add_sub_cancel_left, testBit_bitsNum, decide_eq_true h, Bool.true_and]

/-- Settles O25: a check bit is the parity of its byte or of its column, written out. -/
theorem checkBitsAreRowAndColumnParities : Obligations.CheckBitsAreRowAndColumnParities := by
  unfold Obligations.CheckBitsAreRowAndColumnParities
  refine fun d _ => ⟨squareOf_lt d, fun i hi => ?_, fun c hc => ?_⟩
  · rw [testBit_squareOf_byte d hi]
    simp only [byteParity, xorBelow, Bool.false_xor, Nat.add_zero]
  · rw [testBit_squareOf_column d hc]
    simp only [columnParity, xorBelow, Bool.false_xor, Nat.mul_zero, Nat.zero_add, Nat.mul_one, Nat.reduceMul]

/-! ### Syndromes (R150) -/

/-- The code is linear. -/
theorem squareOf_xor (a b : Nat) : squareOf (a ^^^ b) = squareOf a ^^^ squareOf b := by
  refine Nat.eq_of_testBit_eq fun i => ?_
  rw [Nat.testBit_xor]
  by_cases hrow : i < 8
  · simp only [testBit_squareOf_byte _ hrow, byteParity, Nat.testBit_xor, xorBelow_xor]
  · by_cases hcol : i < 16
    · obtain ⟨c, rfl⟩ := Nat.exists_eq_add_of_le (Nat.not_lt.mp hrow)
      have hc : c < 8 := by omega
      simp only [testBit_squareOf_column _ hc, columnParity, Nat.testBit_xor, xorBelow_xor]
    · have hzero (n : Nat) : (squareOf n).testBit i = false :=
        Nat.testBit_lt_two_pow (Nat.lt_of_lt_of_le (squareOf_lt n) (Nat.pow_le_pow_right (by decide) (by omega)))
      simp only [hzero, Bool.xor_self]

/-- The check bits of a word with one bit set: those of its byte and its column. -/
theorem squareOf_two_pow : ∀ k : Nat, k < 64 → squareOf (2 ^ k) = 256 * 2 ^ (k % 8) + 2 ^ (k / 8) := by
  decide +kernel

theorem oneBit_two_pow : ∀ i : Nat, i < 8 → oneBit (2 ^ i) = some i := by decide

theorem oneBit_zero : oneBit 0 = none := by decide

/-- A word with its own check bits has no finding. -/
theorem squareCheck_clean (d : Nat) : squareCheck ⟨d, squareOf d⟩ = (0, d, ⟨d, squareOf d⟩) := by
  simp only [squareCheck, Nat.xor_self, if_true]

/-- One bit in the byte syndrome and one in the column syndrome: the data bit where they cross is inverted. -/
theorem squareCheck_crossing {x : BramWord} {i j : Nat} (hi : i < 8) (hj : j < 8)
    (h : squareOf x.data ^^^ x.chk = 256 * 2 ^ j + 2 ^ i) :
    squareCheck x
      = (1, x.data ^^^ 2 ^ (8 * i + j), ⟨x.data ^^^ 2 ^ (8 * i + j), squareOf (x.data ^^^ 2 ^ (8 * i + j))⟩) := by
  have hlt : 2 ^ i < 256 := Nat.pow_lt_pow_right (by decide) hi
  have hpos : 256 * 2 ^ j + 2 ^ i ≠ 0 := Nat.ne_of_gt (Nat.add_pos_right _ (Nat.two_pow_pos i))
  have hrow : (256 * 2 ^ j + 2 ^ i) % 256 = 2 ^ i := by rw [Nat.mul_add_mod, Nat.mod_eq_of_lt hlt]
  have hcol : (256 * 2 ^ j + 2 ^ i) / 256 = 2 ^ j := by
    rw [Nat.mul_add_div (by decide), Nat.div_eq_of_lt hlt, Nat.add_zero]
  simp only [squareCheck, h, hrow, hcol, if_neg hpos, oneBit_two_pow i hi, oneBit_two_pow j hj]

/-- One bit in the byte syndrome alone: the data stands. -/
theorem squareCheck_byteParity {x : BramWord} {i : Nat} (hi : i < 8) (h : squareOf x.data ^^^ x.chk = 2 ^ i) :
    squareCheck x = (1, x.data, ⟨x.data, squareOf x.data⟩) := by
  have hlt : 2 ^ i < 256 := Nat.pow_lt_pow_right (by decide) hi
  have hpos : 2 ^ i ≠ 0 := Nat.ne_of_gt (Nat.two_pow_pos i)
  simp only [squareCheck, h, Nat.mod_eq_of_lt hlt, Nat.div_eq_of_lt hlt, if_neg hpos, oneBit_two_pow i hi, oneBit_zero,
    if_true]

/-- One bit in the column syndrome alone: the data stands. -/
theorem squareCheck_columnParity {x : BramWord} {j : Nat} (hj : j < 8) (h : squareOf x.data ^^^ x.chk = 256 * 2 ^ j) :
    squareCheck x = (1, x.data, ⟨x.data, squareOf x.data⟩) := by
  have hpos : 256 * 2 ^ j ≠ 0 := Nat.ne_of_gt (Nat.mul_pos (by decide) (Nat.two_pow_pos j))
  simp only [squareCheck, h, Nat.mul_mod_right, Nat.mul_div_cancel_left _ (show 0 < 256 by decide), if_neg hpos,
    oneBit_two_pow j hj, oneBit_zero, if_true]

/-- (Mathlib's `xor_cancel_right`, which the package does not import.) -/
theorem xor_xor_self (a b : Nat) : (a ^^^ b) ^^^ b = a := by rw [Nat.xor_assoc, Nat.xor_self, Nat.xor_zero]

/-- A data bit in error is inverted back. -/
theorem squareCheck_dataBit (d : Nat) {k : Nat} (hk : k < 64) :
    squareCheck ⟨d ^^^ 2 ^ k, squareOf d⟩ = (1, d, ⟨d, squareOf d⟩) := by
  have hsyn : squareOf (d ^^^ 2 ^ k) ^^^ squareOf d = 256 * 2 ^ (k % 8) + 2 ^ (k / 8) := by
    rw [Nat.xor_comm d, squareOf_xor, xor_xor_self, squareOf_two_pow k hk]
  rw [squareCheck_crossing (x := ⟨d ^^^ 2 ^ k, squareOf d⟩) (by omega) (Nat.mod_lt k (by decide)) hsyn,
    Nat.div_add_mod, xor_xor_self]

/-- A check bit in error leaves the data. -/
theorem squareCheck_checkBit (d : Nat) {k : Nat} (hk : k < 16) :
    squareCheck ⟨d, squareOf d ^^^ 2 ^ k⟩ = (1, d, ⟨d, squareOf d⟩) := by
  have hsyn : squareOf d ^^^ (squareOf d ^^^ 2 ^ k) = 2 ^ k := by
    rw [Nat.xor_comm, Nat.xor_comm _ (2 ^ k), xor_xor_self]
  by_cases hrow : k < 8
  · exact squareCheck_byteParity hrow hsyn
  · obtain ⟨j, rfl⟩ := Nat.exists_eq_add_of_le (Nat.not_lt.mp hrow)
    exact squareCheck_columnParity (by omega) (hsyn.trans (Nat.pow_add 2 8 j))

/-- Settles O24: a data bit shows in the syndromes of its byte and column, a check bit in one of them alone. -/
theorem squareCorrectsEverySingleBitError : Obligations.SquareCorrectsEverySingleBitError := by
  unfold Obligations.SquareCorrectsEverySingleBitError
  exact fun d _ => ⟨squareCheck_clean d, fun _ => squareCheck_dataBit d, fun _ => squareCheck_checkBit d⟩

end Sys2Proof.Machine
end

section
/-!
PROOF. Frames of steps that write the fabric, the register file and the account of findings.
-/
namespace Sys2Proof.Machine

/-- The fabric replaced. -/
def setFab (x : Fabric) (s : State) : State := { s with fab := x }

@[simp] theorem setFab_fab (x : Fabric) (s : State) : (setFab x s).fab = x := rfl

@[simp] theorem rd_setFab (x : Fabric) (s : State) (a : Nat) : rd (setFab x s) a = rd s a := rfl

/-- A change of the fabric leaves the other parts. -/
theorem keepsBut_setFab (x : Fabric) (s : State) : KeepsBut [.fab] s (setFab x s) := by
  refine ⟨rfl, fun p hp => ?_⟩
  cases p with
  | fab => exact absurd List.mem_cons_self hp
  | _ => rfl

/-- The account of findings replaced. -/
def setRas (x : Ras) (s : State) : State := { s with ras := x }

@[simp] theorem setRas_fab (x : Ras) (s : State) : (setRas x s).fab = s.fab := rfl

@[simp] theorem rd_setRas (x : Ras) (s : State) (a : Nat) : rd (setRas x s) a = rd s a := rfl

/-- A change of the account of findings leaves the other parts. -/
theorem keepsBut_setRas (x : Ras) (s : State) : KeepsBut [.ras] s (setRas x s) := by
  refine ⟨rfl, fun p hp => ?_⟩
  cases p with
  | ras => exact absurd List.mem_cons_self hp
  | _ => rfl

end Sys2Proof.Machine
end

section
/-!
PROOF. The user NVM: what each command begins, and what the end of one leaves (O27).
-/
namespace Sys2Proof.Machine

variable {s : State} {g a : Nat}

/-! ### The storage and the port -/

@[simp] theorem nvmPort_setNvmPort (g : Nat) (x : NvmPort) (s : State) : nvmPort (setNvmPort g x s) g = x := by
  simp only [nvmPort, setNvmPort, sget_sset_same]

@[simp] theorem nvmAt_setNvmPort (g : Nat) (x : NvmPort) (s : State) (h a : Nat) :
    nvmAt (setNvmPort g x s) h a = nvmAt s h a := rfl

theorem nvmAt_nvmSet (g a : Nat) (x : NvmWord) (s : State) (b : Nat) :
    nvmAt (nvmSet g a x s) g b = if b = a then x else nvmAt s g b := by
  simp only [nvmAt, nvmSet, sget_sset, Nat.add_left_cancel_iff]

/-- An erased sector reads erased, every other word of the grove what it was. -/
theorem nvmAt_nvmEraseSector (g sec : Nat) (s : State) (b : Nat) :
    nvmAt (nvmEraseSector g sec s) g b = if b / 512 = sec then {} else nvmAt s g b := by
  have hin : (g * 262144 + sec * 512 ≤ g * 262144 + b ∧ g * 262144 + b < g * 262144 + sec * 512 + 512)
      ↔ b / 512 = sec := by omega
  simp only [nvmAt, nvmEraseSector, sget_sdrop, hin, decide_eq_true_eq]

theorem keepsBut_setNvmPort (g : Nat) (x : NvmPort) (s : State) : KeepsBut [.fab] s (setNvmPort g x s) :=
  keepsBut_setFab _ s

theorem keepsBut_nvmSet (g a : Nat) (x : NvmWord) (s : State) : KeepsBut [.fab] s (nvmSet g a x s) := keepsBut_setFab _ s

theorem keepsBut_nvmEraseSector (g sec : Nat) (s : State) : KeepsBut [.fab] s (nvmEraseSector g sec s) :=
  keepsBut_setFab _ s

/-! ### A command begins (R158, R159) -/

@[simp] theorem busy_nvmStart (g cmd a st d : Nat) (s : State) :
    (nvmPort (nvmStart g cmd a st d s) g).busy = some (cmd, a, st, d) := by
  rw [nvmStart, nvmPort_setNvmPort]

theorem keepsBut_nvmStart (g cmd a st d : Nat) (s : State) : KeepsBut [.fab] s (nvmStart g cmd a st d s) :=
  keepsBut_setNvmPort g _ s

/-- START of a free NVM at one of its words is taken. -/
theorem nvm_start_taken (hf : nvmFree s g = true) (ha : a < 262144) : ¬ ((!nvmFree s g) = true ∨ 262144 ≤ a) := by
  simp [hf, ha]

theorem exec_nvmRead_sound (hf : nvmFree s g = true) (ha : a < 262144) (hu : (nvmAt s g a).undef = false)
    (hi : injArmed s (8 + g) 0xC = false) :
    exec (.nvmRead g a []) s = .next (nvmStart g 1 a 0 (nvmAt s g a).data s) := by
  show execNvmRead _ _ _ _ = _
  simp only [execNvmRead, if_neg (nvm_start_taken hf ha), hu, inject_of_not_armed hi]
  rfl

theorem exec_nvmRead_oneError (hf : nvmFree s g = true) (ha : a < 262144) (hu : (nvmAt s g a).undef = false)
    (hi : injArmed s (8 + g) 0xC = false) (i : Nat) :
    exec (.nvmRead g a [i]) s = .next (nvmStart g 1 a 1 (nvmAt s g a).data (countCorr (8 + g) s)) := by
  show execNvmRead _ _ _ _ = _
  simp only [execNvmRead, if_neg (nvm_start_taken hf ha), hu, inject_of_not_armed hi]
  rfl

theorem exec_nvmProgram_erased (hf : nvmFree s g = true) (ha : a < 262144) (he : nvmAt s g a = {}) {d : Nat}
    (hd : d < 2 ^ 64) : exec (.nvmProgram g a d) s = .next (nvmStart g 2 a 0 d s) := by
  show execNvmProgram _ _ _ _ = _
  rw [execNvmProgram, if_neg (nvm_start_taken hf ha), if_pos he, Nat.mod_eq_of_lt hd]

theorem exec_nvmProgram_notErased (hf : nvmFree s g = true) (ha : a < 262144) (he : nvmAt s g a ≠ {}) (d : Nat) :
    exec (.nvmProgram g a d) s = .next (nvmStart g 2 a 3 0 s) := by
  show execNvmProgram _ _ _ _ = _
  rw [execNvmProgram, if_neg (nvm_start_taken hf ha), if_neg he]

/-- The erase count of a sector one up. -/
def countErase (g sec : Nat) (s : State) : State :=
  { s with fab := { s.fab with nvmCount := sset 0 s.fab.nvmCount (g * 512 + sec) (nvmCountOf s g sec + 1) } }

theorem nvmCountOf_countErase (g sec : Nat) (s : State) :
    nvmCountOf (countErase g sec s) g sec = nvmCountOf s g sec + 1 := by
  simp only [nvmCountOf, countErase, sget_sset_same]

theorem exec_nvmErase (hf : nvmFree s g = true) (ha : a < 262144) (hn : nvmCountOf s g (a / 512) < 99999) :
    exec (.nvmErase g a) s = .next (nvmStart g 3 a 0 0 (countErase g (a / 512) s)) := by
  have hworn : ¬ 100000 ≤ nvmCountOf s g (a / 512) := by omega
  have hlast : nvmCountOf s g (a / 512) + 1 ≠ 100000 := by omega
  show execNvmErase _ _ _ = _
  simp only [execNvmErase, if_neg (nvm_start_taken hf ha), if_neg hworn, if_neg hlast, countErase]

theorem exec_nvmErase_worn (hf : nvmFree s g = true) (ha : a < 262144) (hn : 100000 ≤ nvmCountOf s g (a / 512)) :
    exec (.nvmErase g a) s = .next (nvmStart g 3 a 4 0 s) := by
  show execNvmErase _ _ _ = _
  simp only [execNvmErase, if_neg (nvm_start_taken hf ha), if_pos hn]

theorem exec_nvmCount (hf : nvmFree s g = true) (ha : a < 262144) :
    exec (.nvmCount g a) s = .next (nvmStart g 4 a 0 (nvmCountOf s g (a / 512) % 2 ^ 32) s) := by
  show execNvmCount _ _ _ = _
  rw [execNvmCount, if_neg (nvm_start_taken hf ha)]

/-! ### A command ends (R158) -/

/-- NVM_DONE of a command: its status given, the port free. -/
def nvmEnded (p : NvmPort) (status rdata : Nat) : NvmPort :=
  { p with busy := none, status := status, done := p.done + 1, rdata := rdata }

theorem exec_nvmDone_read {st d : Nat} (hb : (nvmPort s g).busy = some (1, a, st, d)) :
    exec (.nvmDone g) s = .next (setNvmPort g (nvmEnded (nvmPort s g) st d) s) := by
  show execNvmDone _ _ = _
  simp [execNvmDone, hb, nvmEnded]

theorem exec_nvmDone_program {d : Nat} (hb : (nvmPort s g).busy = some (2, a, 0, d)) :
    exec (.nvmDone g) s
      = .next (setNvmPort g (nvmEnded (nvmPort s g) 0 (nvmPort s g).rdata) (nvmSet g a ⟨d, false⟩ s)) := by
  show execNvmDone _ _ = _
  simp [execNvmDone, hb, nvmEnded]

theorem exec_nvmDone_erase {d : Nat} (hb : (nvmPort s g).busy = some (3, a, 0, d)) :
    exec (.nvmDone g) s
      = .next (setNvmPort g (nvmEnded (nvmPort s g) 0 (nvmPort s g).rdata) (nvmEraseSector g (a / 512) s)) := by
  show execNvmDone _ _ = _
  simp [execNvmDone, hb, nvmEnded]

theorem nvmDone_program {d : Nat} (hb : (nvmPort s g).busy = some (2, a, 0, d)) :
    Does (.nvmDone g) s (fun t => (nvmPort t g).busy = none ∧ nvmAt t g a = ⟨d, false⟩
      ∧ (∀ x : Nat, x < 262144 → x ≠ a → nvmAt t g x = nvmAt s g x) ∧ KeepsBut [.fab] s t) := by
  refine ⟨_, exec_nvmDone_program hb, ?_, ?_, fun x _ hx => ?_,
    (keepsBut_nvmSet g a _ s).trans (keepsBut_setNvmPort g _ _)⟩
  · rw [nvmPort_setNvmPort, nvmEnded]
  · rw [nvmAt_setNvmPort, nvmAt_nvmSet, if_pos rfl]
  · rw [nvmAt_setNvmPort, nvmAt_nvmSet, if_neg hx]

theorem nvmDone_erase {d : Nat} (hb : (nvmPort s g).busy = some (3, a, 0, d)) :
    Does (.nvmDone g) s (fun t => (nvmPort t g).busy = none
      ∧ (∀ x : Nat, x < 262144 → nvmAt t g x = if x / 512 = a / 512 then {} else nvmAt s g x)
      ∧ KeepsBut [.fab] s t) := by
  refine ⟨_, exec_nvmDone_erase hb, ?_, fun x _ => ?_,
    (keepsBut_nvmEraseSector g _ s).trans (keepsBut_setNvmPort g _ _)⟩
  · rw [nvmPort_setNvmPort, nvmEnded]
  · rw [nvmAt_setNvmPort, nvmAt_nvmEraseSector]

/-- Settles O27: each clause is one command begun on a free port, or the end of one. -/
theorem userNvmCommands : Obligations.UserNvmCommands := by
  unfold Obligations.UserNvmCommands
  refine ⟨fun s g a hf ha => ⟨fun hu hi => ⟨?_, fun i _ => ?_⟩, fun d hd => ⟨fun he => ?_, fun he => ?_⟩,
    fun hn => ?_, fun hn => ?_, ?_⟩, fun s g a st d _ _ => ⟨fun hb => ?_, nvmDone_program, nvmDone_erase⟩⟩
  · exact ⟨_, exec_nvmRead_sound hf ha hu hi, busy_nvmStart .., keepsBut_nvmStart ..⟩
  · exact ⟨_, exec_nvmRead_oneError hf ha hu hi i, busy_nvmStart ..,
      ((keepsBut_setRas _ s).mono (by simp)).trans ((keepsBut_nvmStart ..).mono (by simp))⟩
  · exact ⟨_, exec_nvmProgram_erased hf ha he hd, busy_nvmStart .., rfl, keepsBut_nvmStart ..⟩
  · exact ⟨_, exec_nvmProgram_notErased hf ha he d, busy_nvmStart .., keepsBut_nvmStart ..⟩
  · exact ⟨_, exec_nvmErase hf ha hn, busy_nvmStart .., nvmCountOf_countErase ..,
      (keepsBut_setFab _ s).trans (keepsBut_nvmStart ..)⟩
  · exact ⟨_, exec_nvmErase_worn hf ha hn, busy_nvmStart .., rfl, keepsBut_nvmStart ..⟩
  · exact ⟨_, exec_nvmCount hf ha, busy_nvmStart .., keepsBut_nvmStart ..⟩
  · refine ⟨_, exec_nvmDone_read hb, ?_, ?_, ?_, rfl, keepsBut_setNvmPort ..⟩ <;> rw [nvmPort_setNvmPort, nvmEnded]

end Sys2Proof.Machine
end

section
/-!
PROOF. The fabric's serial ports, its probes and its trace memory (O28).
-/
namespace Sys2Proof.Machine

/-! ### Fields of register words -/

theorem bit_and (v w : Word) (i : Nat) : bit (v &&& w) i = (bit v i && bit w i) := by
  rw [bit, BitVec.toNat_and, Nat.testBit_and, bit, bit]

theorem fld_and (v w : Word) (hi lo : Nat) : fld (v &&& w) hi lo = fld v hi lo &&& fld w hi lo := by
  refine Nat.eq_of_testBit_eq fun i => ?_
  simp only [fld, Nat.testBit_and, nfld_testBit, BitVec.toNat_and]
  cases decide (i < hi - lo + 1) <;> simp

/-- A bit of a field that reads zero. -/
theorem bit_of_fld_eq_zero {w : Word} {hi lo : Nat} (h : fld w hi lo = 0) {i : Nat} (hl : lo ≤ i) (hh : i ≤ hi) :
    bit w i = false := by
  have hbit : (fld w hi lo).testBit (i - lo) = bit w i := by
    rw [fld, nfld_testBit, decide_eq_true (by omega), Bool.true_and, Nat.add_sub_cancel' hl, bit]
  rw [← hbit, h, Nat.zero_testBit]

/-- The low field of a word made of a number that fits it. -/
theorem fld_word_of_lt {n hi : Nat} (h : n < 2 ^ (hi + 1)) (h32 : hi < 32) : fld (word n) hi 0 = n := by
  have hn : n < 2 ^ 32 := Nat.lt_of_lt_of_le h (Nat.pow_le_pow_right (by decide) h32)
  rw [fld, nfld, word, BitVec.toNat_ofNat, Nat.mod_eq_of_lt hn, Nat.shiftRight_zero, Nat.sub_zero, Nat.mod_eq_of_lt h]

/-- A field reads as before when a bit outside it is written. -/
theorem rdF_wrB_off (s : State) (a i : Nat) (b : Bool) {hi lo : Nat} (h : i < 32) (hl : lo ≤ hi)
    (hd : hi < i ∨ i < lo) : rdF (wrB s a i b) a hi lo = rdF s a hi lo := by
  rw [rdF, rd_wrB_same, fld_setBit_other _ _ _ _ _ h hl hd, rdF]

/-! ### Serial ports (R161) -/

@[simp] theorem serialAt_setSerial (g p : Nat) (x : SerialPort) (s : State) : serialAt (setSerial g p x s) g p = x := by
  simp only [serialAt, setSerial, sget_sset_same]

theorem keepsBut_setSerial (g p : Nat) (x : SerialPort) (s : State) : KeepsBut [.fab] s (setSerial g p x s) :=
  keepsBut_setFab _ s

/-- An item of 8 bits is taken whole, whatever the port's item size. -/
theorem serial_item_fits (p : Nat) {item : Nat} (h : item < 256) :
    item % 2 ^ (if p = 2 ∨ p = 3 then 32 else 8) = item := by
  split <;> exact Nat.mod_eq_of_lt (by omega)

theorem exec_fabricSerialTransfer (g p kind item : Nat) (s : State) :
    exec (.fabricSerialTransfer g p kind item) s = execFabricSerialTransfer g p kind item s := rfl

section

variable {s : State} {g p item : Nat} (hg : g < 8) (hp : p < 6) (hon : hardOn s g (3 + p) = true)
  (hclk : rdB s (clkBlk (8 + g) + 0x10) (12 + p) = true)
include hg hp hon hclk

/-- A port that is enabled and not gated moves items. -/
theorem serial_open : ¬ (8 ≤ g ∨ 6 ≤ p ∨ (!hardOn s g (3 + p)) = true
    ∨ (!rdB s (clkBlk (8 + g) + 0x10) (12 + p)) = true) := by
  simp [hon, hclk, hg, hp]

theorem serial_design_to_tx (hi : item < 256) (hl : (serialAt s g p).tx.length < 64) :
    exec (.fabricSerialTransfer g p 0 item) s
      = .next (setSerial g p { serialAt s g p with tx := (serialAt s g p).tx ++ [item] } s) := by
  simp only [exec_fabricSerialTransfer, execFabricSerialTransfer, if_neg (serial_open hg hp hon hclk), if_pos hl,
    serial_item_fits p hi]

theorem serial_design_to_tx_full (hl : (serialAt s g p).tx.length = 64) :
    exec (.fabricSerialTransfer g p 0 item) s = .next s := by
  have hfull : ¬ (serialAt s g p).tx.length < 64 := by omega
  simp only [exec_fabricSerialTransfer, execFabricSerialTransfer, if_neg (serial_open hg hp hon hclk), if_neg hfull]

theorem serial_tx_to_line {l : List Nat} (ht : (serialAt s g p).tx = item :: l) :
    exec (.fabricSerialTransfer g p 1 0) s
      = .next (setSerial g p { serialAt s g p with tx := l, line := (serialAt s g p).line ++ [item] } s) := by
  simp only [exec_fabricSerialTransfer, execFabricSerialTransfer, if_neg (serial_open hg hp hon hclk), ht]

theorem serial_line_to_rx (hi : item < 256) (hl : (serialAt s g p).rx.length < 64) :
    exec (.fabricSerialTransfer g p 2 item) s
      = .next (setSerial g p { serialAt s g p with rx := (serialAt s g p).rx ++ [item] } s) := by
  simp only [exec_fabricSerialTransfer, execFabricSerialTransfer, if_neg (serial_open hg hp hon hclk), if_pos hl,
    serial_item_fits p hi]

theorem serial_rx_to_design :
    exec (.fabricSerialTransfer g p 3 0) s
      = .next (setSerial g p { serialAt s g p with rx := (serialAt s g p).rx.drop 1 } s) := by
  simp only [exec_fabricSerialTransfer, execFabricSerialTransfer, if_neg (serial_open hg hp hon hclk)]

end

/-! ### Registers of the probes (R168) -/

theorem prbStatus_ne_prbCtrl (g : Nat) : prbStatus g ≠ prbCtrl g := by simp only [prbStatus, prbCtrl]; omega
theorem prbTctrl_ne_prbStatus (g : Nat) : prbTctrl g ≠ prbStatus g := by simp only [prbTctrl, prbStatus]; omega

/-- The register of IDX, the index of the sample at the trigger. -/
abbrev prbIdx (g : Nat) : Nat := dbgBlk g + 0x108

theorem prbIdx_ne_prbStatus (g : Nat) : prbIdx g ≠ prbStatus g := by simp only [prbIdx, prbStatus]; omega

/-! ### Arming (R168) -/

/-- The counts of a new capture. -/
def freshCapture (g : Nat) (x : Fabric) : Fabric :=
  { x with samples := sset 0 x.samples g 0, postLeft := sset none x.postLeft g none }

/-- A write of ARM = 1. -/
def armProbes (g : Nat) (v : Word) (s : State) : State :=
  wr (setFab (freshCapture g s.fab) (wr s (prbCtrl g) (v &&& word 0xFFFF807F))) (prbStatus g)
    (rd s (prbStatus g) &&& word 0x10000000)

theorem writePrbCtrl_of_arm {v : Word} (hv : bit v 0 = true) (g : Nat) (s : State) :
    writePrbCtrl g v s = armProbes g v s := by
  rw [writePrbCtrl, if_pos hv]
  dsimp only
  rw [rd_wr_other s _ (prbStatus_ne_prbCtrl g), wr_fab, armProbes, setFab, freshCapture]

theorem exec_probeArm (src : Writer) (g : Nat) (v : Word) (s : State) :
    exec (.probeArm src g v) s = execProbeArm src g v s := rfl

theorem exec_probeArm_warden {g : Nat} {v : Word} (hg : g < 8) (hv : bit v 0 = true) (s : State) :
    exec (.probeArm .warden g v) s = .next (armProbes g v s) := by
  have hopen : ¬ (8 ≤ g ∨ (!dbgWriter s .warden) = true ∨ (!bit v 0) = true) := by simp [dbgWriter, hv, hg]
  rw [exec_probeArm, execProbeArm, if_neg hopen, writePrbCtrl_of_arm hv]

theorem rd_armProbes (g : Nat) (v : Word) (s : State) (a : Nat) :
    rd (armProbes g v s) a = if a = prbStatus g then rd s (prbStatus g) &&& word 0x10000000
      else if a = prbCtrl g then v &&& word 0xFFFF807F else rd s a := by
  rw [armProbes, rd_wr, rd_setFab, rd_wr]

theorem rd_armProbes_status (g : Nat) (v : Word) (s : State) :
    rd (armProbes g v s) (prbStatus g) = rd s (prbStatus g) &&& word 0x10000000 := by
  rw [rd_armProbes, if_pos rfl]

theorem rd_armProbes_ctrl (g : Nat) (v : Word) (s : State) :
    rd (armProbes g v s) (prbCtrl g) = v &&& word 0xFFFF807F := by
  rw [rd_armProbes, if_neg (prbStatus_ne_prbCtrl g).symm, if_pos rfl]

theorem keepsBut_armProbes (g : Nat) (v : Word) (s : State) : KeepsBut [.regs, .fab] s (armProbes g v s) :=
  ((keepsBut_wr s _ _).mono (by simp)).trans
    (((keepsBut_setFab _ _).mono (by simp)).trans ((keepsBut_wr _ _ _).mono (by simp)))

/-- ARM set, DONE, TRIGGERED, WRAPPED and WPTR cleared, PERR as it was. -/
theorem probeArm_clears {s : State} {g : Nat} {v : Word} (hg : g < 8) (hv : bit v 0 = true) :
    Does (.probeArm .warden g v) s (fun t => rdB t (prbCtrl g) 0 = true ∧ rdF t (prbStatus g) 16 0 = 0
      ∧ rdF t (prbStatus g) 31 29 = 0 ∧ rdB t (prbStatus g) 28 = rdB s (prbStatus g) 28 ∧ KeepsBut [.regs, .fab] s t
      ∧ RegsBut (fun a => a = prbCtrl g ∨ a = prbStatus g) s t) := by
  have harm : bit (word 0xFFFF807F) 0 = true := by decide
  have hwptr : fld (word 0x10000000) 16 0 = 0 := by decide
  have hflags : fld (word 0x10000000) 31 29 = 0 := by decide
  have hperr : bit (word 0x10000000) 28 = true := by decide
  refine ⟨_, exec_probeArm_warden hg hv s, ?_, ?_, ?_, ?_, keepsBut_armProbes g v s, fun a ha => ?_⟩
  · rw [rdB, rd_armProbes_ctrl, bit_and, hv, harm, Bool.and_self]
  · rw [rdF, rd_armProbes_status, fld_and, hwptr, Nat.and_zero]
  · rw [rdF, rd_armProbes_status, fld_and, hflags, Nat.and_zero]
  · rw [rdB, rd_armProbes_status, bit_and, hperr, Bool.and_true, rdB]
  · rw [rd_armProbes, if_neg (fun h => ha (.inr h)), if_neg (fun h => ha (.inl h))]

/-! ### A sample taken (R168) -/

/-- A sample in the trace memory at WPTR, and the count of samples one up. -/
def storeSample (g v : Nat) (s : State) : State :=
  setFab { s.fab with
    trace := sset {} s.fab.trace (g * 131072 + rdF s (prbStatus g) 16 0) ⟨maskSample s g v, 0⟩,
    samples := smod 0 s.fab.samples g (· + 1) } s

theorem putSample_eq (g v : Nat) (s : State) :
    putSample g v s = if rdF s (prbStatus g) 16 0 = 131071
      then wrB (wrF (storeSample g v s) (prbStatus g) 16 0 (rdF s (prbStatus g) 16 0 + 1)) (prbStatus g) 29 true
      else wrF (storeSample g v s) (prbStatus g) 16 0 (rdF s (prbStatus g) 16 0 + 1) := rfl

theorem rd_putSample_other (g v : Nat) (s : State) {a : Nat} (h : a ≠ prbStatus g) :
    rd (putSample g v s) a = rd s a := by
  have hw (n : Nat) : rd (wrF (storeSample g v s) (prbStatus g) 16 0 n) a = rd s a := rd_wrF_other _ _ _ _ h
  rw [putSample_eq]
  split
  · exact (rd_wrB_other _ _ _ h).trans (hw _)
  · exact hw _

theorem keepsBut_putSample (g v : Nat) (s : State) : KeepsBut [.regs, .fab] s (putSample g v s) := by
  have hw (n : Nat) : KeepsBut [.regs, .fab] s (wrF (storeSample g v s) (prbStatus g) 16 0 n) :=
    ((keepsBut_setFab _ s).mono (by simp)).trans ((keepsBut_wr _ _ _).mono (by simp))
  rw [putSample_eq]
  split
  · exact (hw _).trans ((keepsBut_wr _ _ _).mono (by simp))
  · exact hw _

theorem trace_putSample (g v : Nat) (s : State) :
    sget {} (putSample g v s).fab.trace (g * 131072 + rdF s (prbStatus g) 16 0) = ⟨maskSample s g v, 0⟩ := by
  have hfab : (putSample g v s).fab = (storeSample g v s).fab := by
    rw [putSample_eq]
    split
    · rw [wrB_fab, wrF_fab]
    · rw [wrF_fab]
  rw [hfab, storeSample, setFab_fab, sget_sset_same]

/-- WPTR advances modulo 131,072. -/
theorem wptr_putSample (g v : Nat) (s : State) :
    rdF (putSample g v s) (prbStatus g) 16 0 = (rdF s (prbStatus g) 16 0 + 1) % 131072 := by
  have hw (n : Nat) : rdF (wrF (storeSample g v s) (prbStatus g) 16 0 n) (prbStatus g) 16 0 = n % 131072 :=
    rdF_wrF_same _ _ 16 0 n (by decide) (by decide)
  rw [putSample_eq]
  split
  · exact (rdF_wrB_off _ _ 29 true (by decide) (by decide) (.inl (by decide))).trans (hw _)
  · exact hw _

/-! ### The end of a capture (R168) -/

theorem exec_probeCaptureEnd_last {s : State} {g : Nat} (v : Nat) (ha : prbArmed s g = true)
    (hm : rdB s (prbCtrl g) 1 = false) (hp : sget none s.fab.postLeft g = some 1) :
    exec (.probeCaptureEnd g [v]) s = .next (prbEnd g (putSample g v s)) := by
  show execProbeCaptureEnd _ _ _ = _
  simp [execProbeCaptureEnd, ha, hm, hp]

theorem rd_prbEnd (g : Nat) (s : State) (a : Nat) :
    rd (prbEnd g s) a = if a = prbCtrl g then setBit (rd s (prbCtrl g)) 0 false
      else if a = prbStatus g then setBit (rd s (prbStatus g)) 31 true else rd s a := by
  rw [prbEnd, rd_wrB, rd_wrB, rd_wrB, if_neg (prbStatus_ne_prbCtrl g).symm]

theorem rd_prbEnd_status (g : Nat) (s : State) :
    rd (prbEnd g s) (prbStatus g) = setBit (rd s (prbStatus g)) 31 true := by
  rw [rd_prbEnd, if_neg (prbStatus_ne_prbCtrl g), if_pos rfl]

theorem keepsBut_prbEnd (g : Nat) (s : State) : KeepsBut [.regs] s (prbEnd g s) :=
  (keepsBut_wr s _ _).trans (keepsBut_wr _ _ _)

/-- The last of the samples due ends the capture. -/
theorem probeCaptureEnd_last {s : State} {g v : Nat} (ha : prbArmed s g = true)
    (hm : rdB s (prbCtrl g) 1 = false) (hp : sget none s.fab.postLeft g = some 1)
    (hw : rdF s (prbStatus g) 16 0 < 131071) :
    Does (.probeCaptureEnd g [v]) s (fun t => rdB t (prbStatus g) 31 = true ∧ rdB t (prbCtrl g) 0 = false
      ∧ rdF t (prbStatus g) 16 0 = rdF s (prbStatus g) 16 0 + 1
      ∧ sget {} t.fab.trace (g * 131072 + rdF s (prbStatus g) 16 0) = ⟨maskSample s g v, 0⟩
      ∧ KeepsBut [.regs, .fab] s t ∧ RegsBut (fun a => a = prbCtrl g ∨ a = prbStatus g) s t) := by
  have hfab : (prbEnd g (putSample g v s)).fab = (putSample g v s).fab := by rw [prbEnd, wrB_fab, wrB_fab]
  refine ⟨_, exec_probeCaptureEnd_last v ha hm hp, ?_, ?_, ?_, ?_,
    (keepsBut_putSample g v s).trans ((keepsBut_prbEnd g _).mono (by simp)), fun a hne => ?_⟩
  · rw [rdB, rd_prbEnd_status, bit_setBit_same _ _ _ (by decide)]
  · rw [rdB, rd_prbEnd, if_pos rfl, bit_setBit_same _ _ _ (by decide)]
  · rw [rdF, rd_prbEnd_status, fld_setBit_other _ _ _ _ _ (by decide) (by decide) (.inl (by decide))]
    exact (wptr_putSample g v s).trans (Nat.mod_eq_of_lt (by omega))
  · rw [hfab, trace_putSample]
  · rw [rd_prbEnd, if_neg (fun h => hne (.inl h)), if_neg (fun h => hne (.inr h)),
      rd_putSample_other g v s (fun h => hne (.inr h))]

/-! ### The trigger (R168; 18 R547) -/

/-- TRIGGERED set, the index of the sample before WPTR in IDX, and POST samples still to take. -/
def markTrigger (g : Nat) (s : State) : State :=
  setFab { s.fab with postLeft := sset none s.fab.postLeft g (some (rdF s (prbCtrl g) 31 15)) }
    (wr (wrB s (prbStatus g) 30 true) (prbIdx g) (word ((rdF s (prbStatus g) 16 0 + 131071) % 131072)))

/-- A trigger without actions, in the mode that records about it. -/
theorem fireTrigger_eq_markTrigger {s : State} {g : Nat} (hm : rdB s (prbCtrl g) 1 = false)
    (hp : rdF s (prbCtrl g) 31 15 ≠ 0) (hact : rdF s (prbTctrl g) 31 29 = 0) : fireTrigger g s = markTrigger g s := by
  have h29 : bit (rd s (prbTctrl g)) 29 = false := bit_of_fld_eq_zero hact (by decide) (by decide)
  have h30 : bit (rd s (prbTctrl g)) 30 = false := bit_of_fld_eq_zero hact (by decide) (by decide)
  have h31 : bit (rd s (prbTctrl g)) 31 = false := bit_of_fld_eq_zero hact (by decide) (by decide)
  have hctrl : rd (wrB s (prbStatus g) 30 true) (prbCtrl g) = rd s (prbCtrl g) :=
    rd_wrB_other s _ _ (prbStatus_ne_prbCtrl g).symm
  have hmode : rdB (wrB s (prbStatus g) 30 true) (prbCtrl g) 1 = false := by rw [rdB, hctrl]; exact hm
  have hpost : rdF (wrB s (prbStatus g) 30 true) (prbCtrl g) 31 15 = rdF s (prbCtrl g) 31 15 := by rw [rdF, hctrl, rdF]
  have hwptr : rdF (wrB s (prbStatus g) 30 true) (prbStatus g) 16 0 = rdF s (prbStatus g) 16 0 :=
    rdF_wrB_off s _ 30 true (by decide) (by decide) (.inl (by decide))
  simp only [fireTrigger, hmode, hpost, hwptr, h29, h30, h31, if_neg hp, Bool.false_eq_true, if_false]
  rw [wr_fab, wrB_fab, markTrigger, setFab]

theorem rd_markTrigger (g : Nat) (s : State) (a : Nat) :
    rd (markTrigger g s) a = if a = prbIdx g then word ((rdF s (prbStatus g) 16 0 + 131071) % 131072)
      else if a = prbStatus g then setBit (rd s (prbStatus g)) 30 true else rd s a := by
  rw [markTrigger, rd_setFab, rd_wr, rd_wrB]

theorem keepsBut_markTrigger (g : Nat) (s : State) : KeepsBut [.regs, .fab] s (markTrigger g s) :=
  ((keepsBut_wr s _ _).mono (by simp)).trans
    (((keepsBut_wr _ _ _).mono (by simp)).trans ((keepsBut_setFab _ _).mono (by simp)))

theorem exec_probeTrigger (g : Nat) (l : List Nat) (s : State) :
    exec (.probeTrigger g l) s = execProbeTrigger g l s := rfl

theorem exec_probeTrigger_match {s : State} {g v : Nat} (hr : trigReady s g 0 = true) (hv : trigMatch s g v = true) :
    exec (.probeTrigger g [v]) s = .next (fireTrigger g (putSample g v s)) := by
  simp [exec_probeTrigger, execProbeTrigger, hr, hv]

/-- A matching sample fires the trigger: its index stands in IDX. -/
theorem probeTrigger_match {s : State} {g v : Nat} (hr : trigReady s g 0 = true) (hv : trigMatch s g v = true)
    (hm : rdB s (prbCtrl g) 1 = false) (hp : rdF s (prbCtrl g) 31 15 ≠ 0) (hact : rdF s (prbTctrl g) 31 29 = 0) :
    Does (.probeTrigger g [v]) s (fun t => rdB t (prbStatus g) 30 = true
      ∧ rdF t (prbIdx g) 16 0 = rdF s (prbStatus g) 16 0 ∧ sget none t.fab.postLeft g = some (rdF s (prbCtrl g) 31 15)
      ∧ KeepsBut [.regs, .fab] s t ∧ RegsBut (fun a => a = prbStatus g ∨ a = prbIdx g) s t) := by
  have hctrl := rd_putSample_other g v s (prbStatus_ne_prbCtrl g).symm
  have htctrl := rd_putSample_other g v s (prbTctrl_ne_prbStatus g)
  have hfire : fireTrigger g (putSample g v s) = markTrigger g (putSample g v s) :=
    fireTrigger_eq_markTrigger (by rw [rdB, hctrl]; exact hm) (by rw [rdF, hctrl]; exact hp)
      (by rw [rdF, htctrl]; exact hact)
  refine ⟨_, (exec_probeTrigger_match hr hv).trans (congrArg _ hfire), ?_, ?_, ?_,
    (keepsBut_putSample g v s).trans (keepsBut_markTrigger g _), fun a ha => ?_⟩
  · rw [rdB, rd_markTrigger, if_neg (prbIdx_ne_prbStatus g).symm, if_pos rfl, bit_setBit_same _ _ _ (by decide)]
  · have hlt : rdF s (prbStatus g) 16 0 < 131072 := fld_lt _ 16 0
    have hidx : ((rdF s (prbStatus g) 16 0 + 1) % 131072 + 131071) % 131072 = rdF s (prbStatus g) 16 0 := by omega
    rw [rdF, rd_markTrigger, if_pos rfl, wptr_putSample, hidx, fld_word_of_lt (hi := 16) hlt (by decide)]
  · rw [markTrigger, setFab_fab, sget_sset_same, rdF, hctrl, rdF]
  · rw [rd_markTrigger, if_neg (fun h => ha (.inr h)), if_neg (fun h => ha (.inl h)),
      rd_putSample_other g v s (fun h => ha (.inl h))]

/-! ### The trace memory read (R169) -/

theorem exec_traceRead_sound {s : State} {g i : Nat} (hg : g < 8) (hi : i < 131072)
    (hinj : injArmed s (8 + g) 0xD = false) (hb : (sget {} s.fab.trace (g * 131072 + i)).badBytes = 0) :
    exec (.traceRead g i) s = .next s := by
  have hopen : ¬ (8 ≤ g ∨ 131072 ≤ i) := by omega
  show execTraceRead _ _ _ = _
  rw [execTraceRead, if_neg hopen, traceRead]
  split
  · rfl
  · simp [inject_of_not_armed hinj, Nat.mod_eq_of_lt hi, hb]

/-- Settles O28: each clause is one move of an item, one write or sample of the probes, or one read of the trace. -/
theorem serialPortsProbesAndTrace : Obligations.SerialPortsProbesAndTrace := by
  unfold Obligations.SerialPortsProbesAndTrace
  refine ⟨fun s g p item hg hp hon hclk hi => ⟨fun hl => ?_, fun hl => ?_, fun l ht => ?_, fun hl => ?_, ?_⟩,
    fun s g v => probeArm_clears, fun s g v _ => probeCaptureEnd_last, fun s g v => probeTrigger_match,
    fun s g i => exec_traceRead_sound⟩
  · refine ⟨_, serial_design_to_tx hg hp hon hclk hi hl, ?_, ?_, keepsBut_setSerial ..⟩ <;> rw [serialAt_setSerial]
  · exact serial_design_to_tx_full hg hp hon hclk hl
  · refine ⟨_, serial_tx_to_line hg hp hon hclk ht, ?_, ?_, keepsBut_setSerial ..⟩ <;> rw [serialAt_setSerial]
  · refine ⟨_, serial_line_to_rx hg hp hon hclk hi hl, ?_, keepsBut_setSerial ..⟩
    rw [serialAt_setSerial]
  · refine ⟨_, serial_rx_to_design hg hp hon hclk, ?_, keepsBut_setSerial ..⟩
    rw [serialAt_setSerial]

end Sys2Proof.Machine
end

section
/-!
PROOF. Block RAM: what its ports, write-backs, sweep and memory window do, by the finding of the word read (O26).
-/
namespace Sys2Proof.Machine

variable {s : State} {g b w : Nat}

/-! ### Stored words -/

theorem bramAt_bramSet (n loc : Nat) (x : BramWord) (s : State) (m k : Nat) :
    bramAt (bramSet n loc x s) m k = if m * 2048 + k = n * 2048 + loc then x else bramAt s m k := by
  by_cases h : m * 2048 + k = n * 2048 + loc
  · simp only [bramAt, bramSet, sget_sset, if_pos h]
  · simp only [bramAt, bramSet, sget_sset, if_neg h]

theorem bramAt_bramSet_same (n loc : Nat) (x : BramWord) (s : State) : bramAt (bramSet n loc x s) n loc = x := by
  rw [bramAt_bramSet, if_pos rfl]

theorem bramAt_bramSet_other {n loc m k : Nat} (x : BramWord) (s : State) (hl : loc < 2048) (hk : k < 2048)
    (h : m ≠ n ∨ k ≠ loc) : bramAt (bramSet n loc x s) m k = bramAt s m k := by
  rw [bramAt_bramSet, if_neg (by omega)]

@[simp] theorem bramAt_dropBack (n loc : Nat) (s : State) (m k : Nat) :
    bramAt (dropBack n loc s) m k = bramAt s m k := rfl

@[simp] theorem bramAt_setPort (n port : Nat) (x : BramPort) (s : State) (m k : Nat) :
    bramAt (setPort n port x s) m k = bramAt s m k := rfl

theorem port_setPort (n port : Nat) (x : BramPort) (s : State) :
    sget {} (setPort n port x s).fab.bramPorts (n * 2 + port) = x := by
  simp only [setPort, sget_sset_same]

@[simp] theorem setPort_bram (n port : Nat) (x : BramPort) (s : State) : (setPort n port x s).fab.bram = s.fab.bram := rfl

@[simp] theorem setPort_writeBacks (n port : Nat) (x : BramPort) (s : State) :
    (setPort n port x s).fab.writeBacks = s.fab.writeBacks := rfl

/-! ### Frames -/

@[simp] theorem rd_setPort (n port : Nat) (x : BramPort) (s : State) (a : Nat) : rd (setPort n port x s) a = rd s a := rfl
@[simp] theorem rd_bramSet (n loc : Nat) (x : BramWord) (s : State) (a : Nat) : rd (bramSet n loc x s) a = rd s a := rfl
@[simp] theorem rd_dropBack (n loc : Nat) (s : State) (a : Nat) : rd (dropBack n loc s) a = rd s a := rfl

theorem keepsBut_setPort (n port : Nat) (x : BramPort) (s : State) : KeepsBut [.fab] s (setPort n port x s) :=
  keepsBut_setFab _ s
theorem keepsBut_bramSet (n loc : Nat) (x : BramWord) (s : State) : KeepsBut [.fab] s (bramSet n loc x s) :=
  keepsBut_setFab _ s
theorem keepsBut_dropBack (n loc : Nat) (s : State) : KeepsBut [.fab] s (dropBack n loc s) := keepsBut_setFab _ s

theorem keepsBut_countCorr (d : Nat) (s : State) : KeepsBut [.ras] s (countCorr d s) := keepsBut_setRas _ s
theorem keepsBut_countUncorr (d : Nat) (s : State) : KeepsBut [.ras] s (countUncorr d s) := keepsBut_setRas _ s

@[simp] theorem countCorr_fab (d : Nat) (s : State) : (countCorr d s).fab = s.fab := rfl
@[simp] theorem countUncorr_fab (d : Nat) (s : State) : (countUncorr d s).fab = s.fab := rfl

/-! ### Addresses without a spare (R154) -/

theorem bramLoc_of_mends_nil (h : s.fab.mends = []) (n w : Nat) : bramLoc s n w = w := by
  rw [bramLoc, h]
  rfl

theorem sparesUsed_of_mends_nil (h : s.fab.mends = []) (n : Nat) : sparesUsed s n = [] := by
  simp [sparesUsed, h]

/-! ### Findings (R150, R170) -/

/-- CFG_BRAM_LAST loaded with a finding's place. -/
def noteFinding (g place : Nat) (s : State) : State := wr s (cfgGrv g + 0x110) (word place)

/-- A corrected finding counted. -/
def bramCorrected (g b loc : Nat) (s : State) : State :=
  countCorr (8 + g) (cnt (noteFinding g (bramPlace b loc) s) (cfgGrv g + 0x108))

/-- An uncorrectable finding counted. -/
def bramUpset (g b loc : Nat) (s : State) : State :=
  countUncorr (8 + g) (cnt (noteFinding g (bramPlace b loc + 2 ^ 31) s) (cfgGrv g + 0x10C))

/-- An event of an uncorrectable finding was raised less than a millisecond ago (19 R573). -/
def upsetReportedSince (g : Nat) (s : State) : Bool :=
  match sget none s.ras.bramLast g with
  | some t => decide (s.tu.tick < t + tickMs)
  | none => false

/-- The event of an uncorrectable finding, at most once a millisecond (19 R573). -/
def reportUpset (g : Nat) (s : State) : State :=
  if upsetReportedSince g s then
    setRas { s.ras with bramSince := sset 0 s.ras.bramSince g (sget 0 s.ras.bramSince g + 1) } s
  else
    raise 0x0804 2 0 [word g, rd s (cfgGrv g + 0x110), word (sget 0 s.ras.bramSince g + 1)]
      (setRas { s.ras with bramSince := sset 0 s.ras.bramSince g 0,
                           bramLast := sset none s.ras.bramLast g (some s.tu.tick) } s)

theorem bramFinding_none (g b loc : Nat) (s : State) : bramFinding g b loc 0 s = s := rfl

theorem whereUsed_wr (s : State) (a : Nat) (v : Word) (d n : Nat) : whereUsed (wr s a v) d n = whereUsed s d n := rfl

theorem bramFinding_corrected (h : whereUsed s (8 + g) 0 = []) (b loc : Nat) :
    bramFinding g b loc 1 s = bramCorrected g b loc s := by
  have h1 : ¬ (1 = 0) := by decide
  have h2 : ¬ (1 = 2) := by decide
  rw [bramFinding]
  dsimp only
  rw [if_neg h1, if_pos rfl, if_neg h2, findingAt_of_whereUsed_nil ((whereUsed_wr s _ _ _ _).trans h), bramCorrected,
    noteFinding]
  simp only [Nat.add_zero]

theorem bramFinding_uncorrectable (h : whereUsed s (8 + g) 0 = []) (b loc : Nat) :
    bramFinding g b loc 2 s = reportUpset g (bramUpset g b loc s) := by
  have h0 : ¬ (2 = 0) := by decide
  have h1 : ¬ (2 = 1) := by decide
  rw [bramFinding]
  dsimp only
  rw [if_neg h0, if_neg h1, if_pos rfl, findingAt_of_whereUsed_nil ((whereUsed_wr s _ _ _ _).trans h)]
  rfl

theorem rd_bramCorrected (g b loc : Nat) (s : State) (a : Nat) :
    rd (bramCorrected g b loc s) a = if a = cfgGrv g + 0x108 then satInc (rd s (cfgGrv g + 0x108))
      else if a = cfgGrv g + 0x110 then word (bramPlace b loc) else rd s a := by
  rw [bramCorrected, rd_countCorr, rd_cnt, noteFinding, rd_wr, rd_wr,
    if_neg (show ¬ cfgGrv g + 0x108 = cfgGrv g + 0x110 by omega)]

@[simp] theorem bramCorrected_fab (g b loc : Nat) (s : State) : (bramCorrected g b loc s).fab = s.fab := by
  rw [bramCorrected, countCorr_fab, cnt_fab, noteFinding, wr_fab]

theorem keepsBut_bramCorrected (g b loc : Nat) (s : State) : KeepsBut [.regs, .fab, .ras] s (bramCorrected g b loc s) :=
  ((keepsBut_wr s _ _).mono (by simp)).trans
    (((keepsBut_wr _ _ _).mono (by simp)).trans ((keepsBut_countCorr _ _).mono (by simp)))

theorem rd_bramUpset (g b loc : Nat) (s : State) (a : Nat) :
    rd (bramUpset g b loc s) a = if a = cfgGrv g + 0x10C then satInc (rd s (cfgGrv g + 0x10C))
      else if a = cfgGrv g + 0x110 then word (bramPlace b loc + 2 ^ 31) else rd s a := by
  rw [bramUpset, rd_countUncorr, rd_cnt, noteFinding, rd_wr, rd_wr,
    if_neg (show ¬ cfgGrv g + 0x10C = cfgGrv g + 0x110 by omega)]

@[simp] theorem bramUpset_fab (g b loc : Nat) (s : State) : (bramUpset g b loc s).fab = s.fab := by
  rw [bramUpset, countUncorr_fab, cnt_fab, noteFinding, wr_fab]

theorem keepsBut_bramUpset (g b loc : Nat) (s : State) : KeepsBut [.regs, .ras] s (bramUpset g b loc s) :=
  (keepsBut_wr s _ _).ras.trans ((keepsBut_wr _ _ _).ras.trans ((keepsBut_countUncorr _ _).mono (by simp)))

@[simp] theorem reportUpset_fab (g : Nat) (s : State) : (reportUpset g s).fab = s.fab := by
  rw [reportUpset]
  split
  · rw [setRas_fab]
  · rw [raise_fab, setRas_fab]

theorem regsBut_reportUpset (g : Nat) (s : State) : RegsBut eventReg s (reportUpset g s) := by
  rw [reportUpset]
  split
  · exact fun a _ => rd_setRas _ s a
  · exact fun a ha => (regsBut_raise _ _ _ _ _ a ha).trans (rd_setRas _ s a)

theorem keepsBut_reportUpset (g : Nat) (s : State) : KeepsBut [.regs, .ward, .ras] s (reportUpset g s) := by
  rw [reportUpset]
  split
  · exact (keepsBut_setRas _ s).mono (by simp)
  · exact ((keepsBut_setRas _ s).mono (by simp)).trans ((keepsBut_raise _ _ _ _ _).mono (by simp))

/-! ### Reads (R150, R151) -/

/-- A write-back owed after those owed already. -/
def oweBack (n loc : Nat) (s : State) : State :=
  setFab { s.fab with writeBacks := s.fab.writeBacks ++ [(n, loc)] } s

theorem bramRead_clean {d : Nat} (hm : s.fab.mends = []) (hx : bramAt s (bramNo g b) w = ⟨d, squareOf d⟩) :
    bramRead g b w s = (0, d, s) := by
  simp [bramRead, bramLoc_of_mends_nil hm, hx, squareCheck_clean, bramFinding_none]

theorem bramRead_dataBit {d k : Nat} (hm : s.fab.mends = []) (hb : s.fab.writeBacks = [])
    (hu : whereUsed s (8 + g) 0 = []) (hk : k < 64) (hx : bramAt s (bramNo g b) w = ⟨d ^^^ 2 ^ k, squareOf d⟩) :
    bramRead g b w s = (1, d, oweBack (bramNo g b) w (bramCorrected g b w s)) := by
  simp only [bramRead, bramLoc_of_mends_nil hm, hx, squareCheck_dataBit d hk, bramFinding_corrected hu,
    bramCorrected_fab, hb, List.contains_nil, Bool.not_false, and_self, if_true, oweBack, setFab]

theorem bramRead_uncorrectable (hm : s.fab.mends = []) (hu : whereUsed s (8 + g) 0 = [])
    (hx : (squareCheck (bramAt s (bramNo g b) w)).1 = 2) :
    bramRead g b w s
      = (2, (squareCheck (bramAt s (bramNo g b) w)).2.1, reportUpset g (bramUpset g b w s)) := by
  have h1 : ¬ (2 = 1 ∧ (!(reportUpset g (bramUpset g b w s)).fab.writeBacks.contains (bramNo g b, w)) = true) :=
    fun h => absurd h.1 (by decide)
  simp only [bramRead, bramLoc_of_mends_nil hm, hx, bramFinding_uncorrectable hu, if_neg h1]

/-! ### Writes (R152) -/

theorem whereFree_of_whereUsed_nil {d n : Nat} (h : whereUsed s d n = []) (loc : Nat) : whereFree d n loc s = s := by
  simp [whereFree, whereOf, h]

/-- Whether a point is armed is decided by registers. -/
theorem injArmed_of_rd {s t : State} (h : rd t = rd s) (d n : Nat) : injArmed t d n = injArmed s d n := by
  unfold injArmed rdB rdF
  rw [h]

/-- A word is written whole with its check bits when nothing is injected. -/
theorem bramPut_of_not_armed (hi : injArmed s (8 + g) 0 = false) (hu : whereUsed s (8 + g) 0 = []) (b loc d : Nat) :
    bramPut g b loc d s = bramSet (bramNo g b) loc ⟨d, squareOf d⟩ s := by
  simp only [bramPut, whereFree_of_whereUsed_nil hu, inject_of_not_armed hi, Bool.false_eq_true, if_false, ite_self]

theorem bramWrite_eq {d : Nat} (hm : s.fab.mends = []) (hi : injArmed s (8 + g) 0 = false)
    (hu : whereUsed s (8 + g) 0 = []) (hd : d < 2 ^ 64) :
    bramWrite g b w d s = bramSet (bramNo g b) w ⟨d, squareOf d⟩ (dropBack (bramNo g b) w s) := by
  have hu' : whereUsed (dropBack (bramNo g b) w s) (8 + g) 0 = [] := hu
  rw [bramWrite, bramLoc_of_mends_nil hm, Nat.mod_eq_of_lt hd,
    bramPut_of_not_armed ((injArmed_of_rd (funext (rd_dropBack _ _ s)) _ _).trans hi) hu']

theorem keepsBut_bramWritten (n loc : Nat) (x : BramWord) (s : State) :
    KeepsBut [.fab] s (bramSet n loc x (dropBack n loc s)) :=
  (keepsBut_dropBack n loc s).trans (keepsBut_bramSet n loc x _)

theorem nfld_byte (x i : Nat) : nfld x (8 * i + 7) (8 * i) = x / 2 ^ (8 * i) % 256 := by
  have hwidth : 8 * i + 7 - 8 * i + 1 = 8 := by omega
  simp only [nfld, hwidth, Nat.shiftRight_eq_div_pow, Nat.reducePow]

theorem mod_two_pow_bytes_succ (x n : Nat) :
    x % 2 ^ (8 * (n + 1)) = x % 2 ^ (8 * n) + x / 2 ^ (8 * n) % 256 * 2 ^ (8 * n) := by
  rw [Nat.mul_succ, Nat.pow_add, Nat.mod_mul, Nat.mul_comm (2 ^ (8 * n)) (_ % 2 ^ 8)]

/-- With byte 0 alone enabled the other bytes are the old ones. -/
theorem mergeBytes_one (old new n : Nat) :
    mergeBytes old new 1 (n + 1) + old % 256 = old % 2 ^ (8 * (n + 1)) + new % 256 := by
  induction n with
  | zero => simp [mergeBytes, upto, nfld, Nat.add_comm]
  | succ n ih =>
    have hbit : Nat.testBit 1 (n + 1) = false := by simp [Nat.testBit_succ]
    have hstep : mergeBytes old new 1 (n + 1 + 1)
        = mergeBytes old new 1 (n + 1) + old / 2 ^ (8 * (n + 1)) % 256 * 2 ^ (8 * (n + 1)) := by
      rw [mergeBytes, foldl_upto_succ, hbit, if_neg Bool.false_ne_true, nfld_byte, mergeBytes]
    rw [hstep, mod_two_pow_bytes_succ old (n + 1)]
    omega

/-- Byte 0 of a word replaced. -/
theorem mergeBytes_byte0 {old new : Nat} (ho : old < 2 ^ 64) (hn : new < 256) :
    mergeBytes old new 1 8 = old / 256 * 256 + new := by
  have h : mergeBytes old new 1 8 + old % 256 = old % 2 ^ 64 + new % 256 := mergeBytes_one old new 7
  rw [Nat.mod_eq_of_lt ho, Nat.mod_eq_of_lt hn] at h
  omega

/-! ### Operations of a port (R145-R147) -/

theorem exec_bramPortOperation (g b port : Nat) (write : Bool) (addr din be : Nat) (s : State) :
    exec (.bramPortOperation g b port write addr din be) s = execBramPortOperation g b port write addr din be s := rfl

theorem exec_bramPartialWrite (g b port addr din be : Nat) (s : State) :
    exec (.bramPartialWrite g b port addr din be) s = execBramPartialWrite g b port addr din be s := rfl

theorem nfld_word64 {d : Nat} (h : d < 2 ^ 64) : nfld d 63 0 = d := by
  rw [nfld, Nat.shiftRight_zero, Nat.mod_eq_of_lt h]

theorem mod_word64 {d : Nat} (h : d < 2 ^ 64) : d % 0x10000000000000000 = d := Nat.mod_eq_of_lt h

theorem widthBits_zero : widthBits 0 = 64 := rfl

section

variable {port : Nat} (hw : nfld (portCfg s g b port) 1 0 = 0) (hlt : w < 1024)
include hw hlt

/-- A read of a port 64 bits wide delivers the word. -/
theorem bramOp_read {f d : Nat} {t : State} (hr : bramRead g b w s = (f, d, t)) (hd : d < 2 ^ 64) :
    bramOp g b port false w 0 0 s = setPort (bramNo g b) port ⟨d, f = 1, f = 2⟩ t := by
  simp [bramOp, hw, hr, widthBits_zero, Nat.mod_eq_of_lt hlt, Nat.mod_one, nfld_word64 hd]

/-- A full write of a WRITE_FIRST port shows the new word. -/
theorem bramOp_fullWrite {d : Nat} (hrdw : nfld (portCfg s g b port) 3 2 = 1) (hd : d < 2 ^ 64) :
    bramOp g b port true w d 255 s = setPort (bramNo g b) port ⟨d, false, false⟩ (bramWrite g b w d s) := by
  simp [bramOp, hw, hrdw, widthBits_zero, Nat.mod_eq_of_lt hlt, mod_word64 hd]

/-- A partial write of an uncorrectable word is not performed (R152). -/
theorem bramOp_partialWrite_uncorrectable {x d be : Nat} {t : State} (hbe : be % 256 ≠ 255)
    (hr : bramRead g b w s = (2, x, t)) :
    bramOp g b port true w d be s
      = setPort (bramNo g b) port ⟨(sget {} s.fab.bramPorts (bramNo g b * 2 + port)).dout, false, true⟩ t := by
  simp [bramOp, hw, hr, hbe, widthBits_zero, Nat.mod_eq_of_lt hlt]

/-- The word on DOUT after a partial write that merges `x` to `new`, as RDW says. -/
def partialDout (s : State) (g b port x new : Nat) : Nat :=
  if nfld (portCfg s g b port) 3 2 = 0 then nfld x 63 0
  else if nfld (portCfg s g b port) 3 2 = 1 then nfld new 63 0
  else (sget {} s.fab.bramPorts (bramNo g b * 2 + port)).dout

/-- A partial write of a sound word writes the merged word. -/
theorem bramOp_partialWrite_clean {x d be : Nat} {t : State} (hbe : be < 255) (hr : bramRead g b w s = (0, x, t))
    (hd : d < 2 ^ 64) :
    bramOp g b port true w d be s
      = setPort (bramNo g b) port ⟨partialDout s g b port x (mergeBytes x d be 8), false, false⟩
          (bramWrite g b w (mergeBytes x d be 8) t) := by
  have hmod : be % 256 = be := Nat.mod_eq_of_lt (by omega)
  have hne : be ≠ 255 := Nat.ne_of_lt hbe
  simp [bramOp, hw, hr, hmod, hne, widthBits_zero, Nat.mod_eq_of_lt hlt, Nat.mod_one, mod_word64 hd, partialDout]

end

/-! ### The clauses on a port -/

section

variable {port d : Nat} (hon : portOn s g b port = true) (hw : nfld (portCfg s g b port) 1 0 = 0) (hlt : w < 1024)
  (hd : d < 2 ^ 64) (hi : injArmed s (8 + g) 0 = false) (hu : whereUsed s (8 + g) 0 = []) (hm : s.fab.mends = [])
  (hb : s.fab.writeBacks = [])

include hon in
theorem exec_bramPortOperation_of_portOn (write : Bool) (addr din be : Nat) :
    exec (.bramPortOperation g b port write addr din be) s = .next (bramOp g b port write addr din be s) := by
  rw [exec_bramPortOperation, execBramPortOperation, if_pos hon]

include hon in
theorem exec_bramPartialWrite_of_portOn {be : Nat} (hbe : be < 255) (addr din : Nat) :
    exec (.bramPartialWrite g b port addr din be) s = .next (bramOp g b port true addr din be s) := by
  have hpartial : (!(decide (widthBits (nfld (portCfg s g b port) 1 0) = 64) && decide (be % 256 = 255))) = true := by
    have hne : be % 256 ≠ 255 := by omega
    simp [hne]
  rw [exec_bramPartialWrite, execBramPartialWrite, if_pos ⟨hon, hpartial⟩]

include hon hw hlt hd hm in
theorem bramPort_read_clean (hx : bramAt s (bramNo g b) w = ⟨d, squareOf d⟩) :
    Does (.bramPortOperation g b port false w 0 0) s (fun t =>
      sget {} t.fab.bramPorts (bramNo g b * 2 + port) = ⟨d, false, false⟩ ∧ t.fab.bram = s.fab.bram
        ∧ KeepsBut [.fab] s t) := by
  refine ⟨_, exec_bramPortOperation_of_portOn hon _ _ _ _, ?_⟩
  rw [bramOp_read hw hlt (bramRead_clean hm hx) hd]
  exact ⟨port_setPort .., rfl, keepsBut_setPort ..⟩

include hon hw hlt hd hi hu hm in
theorem bramPort_fullWrite (hrdw : nfld (portCfg s g b port) 3 2 = 1) :
    Does (.bramPortOperation g b port true w d 255) s (fun t =>
      sget {} t.fab.bramPorts (bramNo g b * 2 + port) = ⟨d, false, false⟩
      ∧ bramAt t (bramNo g b) w = ⟨d, squareOf d⟩
      ∧ (∀ n loc : Nat, loc < 2048 → (n ≠ bramNo g b ∨ loc ≠ w) → bramAt t n loc = bramAt s n loc)
      ∧ KeepsBut [.regs, .fab, .ras] s t ∧ RegsBut (fun _ => False) s t) := by
  refine ⟨_, exec_bramPortOperation_of_portOn hon _ _ _ _, ?_⟩
  rw [bramOp_fullWrite hw hlt hrdw hd, bramWrite_eq hm hi hu hd]
  refine ⟨port_setPort .., ?_, fun n loc hloc hne => ?_, ?_, fun a _ => ?_⟩
  · rw [bramAt_setPort, bramAt_bramSet_same]
  · rw [bramAt_setPort, bramAt_bramSet_other _ _ (by omega) hloc hne, bramAt_dropBack]
  · exact ((keepsBut_bramWritten ..).trans (keepsBut_setPort ..)).mono (by simp)
  · rw [rd_setPort, rd_bramSet, rd_dropBack]

include hon hw hlt hd hu hm hb in
theorem bramPort_read_dataBit {k : Nat} (hk : k < 64) (hx : bramAt s (bramNo g b) w = ⟨d ^^^ 2 ^ k, squareOf d⟩) :
    Does (.bramPortOperation g b port false w 0 0) s (fun t =>
      sget {} t.fab.bramPorts (bramNo g b * 2 + port) = ⟨d, true, false⟩
      ∧ rd t (cfgGrv g + 0x108) = satInc (rd s (cfgGrv g + 0x108)) ∧ t.fab.writeBacks = [(bramNo g b, w)]
      ∧ t.fab.bram = s.fab.bram ∧ KeepsBut [.regs, .fab, .ras] s t
      ∧ RegsBut (fun a => a = cfgGrv g + 0x108 ∨ a = cfgGrv g + 0x110) s t) := by
  refine ⟨_, exec_bramPortOperation_of_portOn hon _ _ _ _, ?_⟩
  rw [bramOp_read hw hlt (bramRead_dataBit hm hb hu hk hx) hd]
  refine ⟨port_setPort .., ?_, ?_, ?_, ?_, fun a ha => ?_⟩
  · rw [rd_setPort, oweBack, rd_setFab, rd_bramCorrected, if_pos rfl]
  · rw [setPort_writeBacks, oweBack, setFab_fab, bramCorrected_fab, hb, List.nil_append]
  · rw [setPort_bram, oweBack, setFab_fab, bramCorrected_fab]
  · exact (keepsBut_bramCorrected ..).trans
      (((keepsBut_setFab _ _).mono (by simp)).trans ((keepsBut_setPort ..).mono (by simp)))
  · rw [rd_setPort, oweBack, rd_setFab, rd_bramCorrected, if_neg (fun h => ha (.inl h)), if_neg (fun h => ha (.inr h))]

include hon hw hlt hu hm in
theorem bramPartialWrite_uncorrectable (hx : (squareCheck (bramAt s (bramNo g b) w)).1 = 2) :
    Does (.bramPartialWrite g b port w d 1) s (fun t =>
      (sget {} t.fab.bramPorts (bramNo g b * 2 + port)).uerr = true ∧ t.fab.bram = s.fab.bram
      ∧ rd t (cfgGrv g + 0x10C) = satInc (rd s (cfgGrv g + 0x10C))
      ∧ OnlyRegs (fun a => a = cfgGrv g + 0x10C ∨ a = cfgGrv g + 0x110) [.fab, .ras] s t) := by
  refine ⟨_, exec_bramPartialWrite_of_portOn hon (by decide) _ _, ?_⟩
  rw [bramOp_partialWrite_uncorrectable hw hlt (by decide) (bramRead_uncorrectable hm hu hx)]
  refine ⟨?_, ?_, ?_, ?_, fun a ha => ?_⟩
  · rw [port_setPort]
  · rw [setPort_bram, reportUpset_fab, bramUpset_fab]
  · rw [rd_setPort, regsBut_reportUpset g _ _ (fun h => cfgGrv_add_off g _ (eventReg_bounds h)), rd_bramUpset,
      if_pos rfl]
  · exact ((keepsBut_bramUpset ..).mono (by simp)).trans
      (((keepsBut_reportUpset ..).mono (by simp)).trans ((keepsBut_setPort ..).mono (by simp)))
  · rw [rd_setPort, regsBut_reportUpset g _ a (fun h => ha (.inr h)), rd_bramUpset,
      if_neg (fun h => ha (.inl (.inl h))), if_neg (fun h => ha (.inl (.inr h)))]

include hon hw hlt hd hi hu hm in
theorem bramPartialWrite_clean (hx : bramAt s (bramNo g b) w = ⟨d, squareOf d⟩) :
    Does (.bramPartialWrite g b port w 0xFF 1) s (fun t =>
      (bramAt t (bramNo g b) w).data = d / 256 * 256 + 255 ∧ KeepsBut [.regs, .fab, .ras] s t) := by
  have hnew : d / 256 * 256 + 255 < 2 ^ 64 := by omega
  refine ⟨_, exec_bramPartialWrite_of_portOn hon (by decide) _ _, ?_⟩
  rw [bramOp_partialWrite_clean hw hlt (by decide) (bramRead_clean hm hx) (by decide),
    mergeBytes_byte0 hd (by decide), bramWrite_eq hm hi hu hnew]
  refine ⟨?_, ((keepsBut_bramWritten ..).trans (keepsBut_setPort ..)).mono (by simp)⟩
  rw [bramAt_setPort, bramAt_bramSet_same]

end

/-! ### The write-back (R151) -/

theorem exec_bramWriteBack_only (h : s.fab.writeBacks = [(bramNo g b, w)]) :
    exec (.bramWriteBack g b) s = .next (writeBack g b w s) := by
  show execBramWriteBack _ _ _ = _
  simp [execBramWriteBack, h]

/-- The write-back makes a word with one data bit in error good. -/
theorem bramWriteBack_dataBit {d k : Nat} (hk : k < 64) (h : s.fab.writeBacks = [(bramNo g b, w)])
    (hx : bramAt s (bramNo g b) w = ⟨d ^^^ 2 ^ k, squareOf d⟩) :
    Does (.bramWriteBack g b) s (fun t =>
      bramAt t (bramNo g b) w = ⟨d, squareOf d⟩ ∧ t.fab.writeBacks = [] ∧ KeepsBut [.fab] s t) := by
  refine ⟨_, exec_bramWriteBack_only h, ?_⟩
  simp only [writeBack, hx, squareCheck_dataBit d hk]
  refine ⟨?_, ?_, (keepsBut_bramSet ..).trans (keepsBut_dropBack ..)⟩
  · rw [bramAt_dropBack, bramAt_bramSet_same]
  · simp [dropBack, bramSet, h]

/-! ### The sweep (R153) -/

/-- The sweep's place in a block RAM past word `w`, and the words found correctable on this pass. -/
def sweepPast (n w : Nat) (found : List Nat) (s : State) : State :=
  setFab { s.fab with sweepPos := sset 0 s.fab.sweepPos n ((w + 1) % 1024),
                      sweepFound := sset [] s.fab.sweepFound n found } s

theorem upto_length (n : Nat) : (upto n).length = n := by rw [upto, List.length_range]

theorem upto_getD {n w : Nat} (h : w < n) : (upto n).getD w 0 = w := by
  simp [upto, List.getD_eq_getElem?_getD, h]

section

variable (hg : g < 8) (hb : b < 1920) (hlt : w < 1024) (hrun : regionRuns s g (bramOwner s g b) = true)
  (hback : s.fab.writeBacks = []) (hm : s.fab.mends = []) (hf : s.fab.sweepFound = [])
  (hpos : sget 0 s.fab.sweepPos (bramNo g b) = w) (hu : whereUsed s (8 + g) 0 = [])
include hg hb hrun in
/-- The sweep of a block RAM whose region runs goes on. -/
theorem sweep_open : ¬ (8 ≤ g ∨ 1920 ≤ b ∨ (!regionRuns s g (bramOwner s g b)) = true) := by
  simp [hrun, hg, hb]

include hg hb hlt hrun hback hm hf hpos

/-- The sweep of a word with nothing owed: a correctable word is listed as found and owed its write-back. -/
theorem exec_bramSweepRead {k : Nat} {t : State} (hx : (squareCheck (bramAt s (bramNo g b) w)).1 = k)
    (ht : bramFinding g b w k s = t) (hfab : t.fab = s.fab) :
    exec (.bramSweepRead g b) s
      = .next (if k = 1 then oweBack (bramNo g b) w (sweepPast (bramNo g b) w [w] t)
          else sweepPast (bramNo g b) w [] t) := by
  show execBramSweepRead _ _ _ = _
  simp only [execBramSweepRead, if_neg (sweep_open hg hb hrun), hback, List.filter_nil, List.foldl_nil,
    sparesUsed_of_mends_nil hm, List.map_nil, List.append_nil, hpos, upto_length, if_pos hlt, upto_getD hlt,
    bramLoc_of_mends_nil hm, hx, ht, hfab, hf, sget_nil, List.contains_nil, Bool.not_false, Bool.false_eq_true,
    false_and, and_true, if_false, List.nil_append]
  by_cases hk : k = 1
  · simp only [hk, ne_eq, not_true_eq_false, if_true, if_false, oweBack, sweepPast, setFab, hfab, hback, hf,
      List.nil_append]
  · simp only [hk, ne_eq, not_false_eq_true, if_true, if_false, sweepPast, setFab, hfab, hback, hf]

theorem bramSweepRead_clean (hx : (squareCheck (bramAt s (bramNo g b) w)).1 = 0) :
    Does (.bramSweepRead g b) s (fun t => sget 0 t.fab.sweepPos (bramNo g b) = (w + 1) % 1024 ∧ t.fab.bram = s.fab.bram
      ∧ KeepsBut [.fab] s t) := by
  refine ⟨_, exec_bramSweepRead hg hb hlt hrun hback hm hf hpos hx rfl rfl, ?_, rfl, keepsBut_setFab _ s⟩
  exact sget_sset_same _ _ _ _

include hu in
theorem bramSweepRead_corrected (hx : (squareCheck (bramAt s (bramNo g b) w)).1 = 1) :
    Does (.bramSweepRead g b) s (fun t =>
      t.fab.writeBacks = [(bramNo g b, w)] ∧ sget [] t.fab.sweepFound (bramNo g b) = [w]
      ∧ rd t (cfgGrv g + 0x108) = satInc (rd s (cfgGrv g + 0x108)) ∧ KeepsBut [.regs, .fab, .ras] s t) := by
  refine ⟨_, exec_bramSweepRead hg hb hlt hrun hback hm hf hpos hx (bramFinding_corrected hu b w)
    (bramCorrected_fab g b w s), ?_⟩
  rw [if_pos rfl]
  refine ⟨?_, ?_, ?_, ?_⟩
  · rw [oweBack, setFab_fab, sweepPast, setFab_fab, bramCorrected_fab, hback, List.nil_append]
  · rw [oweBack, setFab_fab, sweepPast, setFab_fab, sget_sset_same]
  · rw [oweBack, rd_setFab, sweepPast, rd_setFab, rd_bramCorrected, if_pos rfl]
  · exact (keepsBut_bramCorrected ..).trans (((keepsBut_setFab _ _).trans (keepsBut_setFab _ _)).mono (by simp))

end

/-! ### The on-die memory window (R155) -/

theorem injDone_fab (d n : Nat) (s : State) : (injDone d n s).fab = s.fab := by
  rw [injDone, raise_fab, wrB_fab, wrB_fab]

/-- An injection touches no fabric. -/
theorem inject_fab (d n : Nat) (s : State) : (inject d n s).2.fab = s.fab := by
  rw [inject]
  split
  · rfl
  · dsimp only
    split
    · rfl
    · split
      · rw [injDone_fab, wrF_fab]
      · rw [wrF_fab]

/-- A packet put on the Bough is the last there, its check field apart, and the fabric is as it was. -/
theorem launch_spec (p : Packet) (s : State) :
    (∃ q : Packet, (launch p s).net.getLast? = some q ∧ q.dst = p.dst ∧ q.tag = p.tag ∧ q.status = p.status)
      ∧ (launch p s).fab = s.fab := by
  rw [launch]
  dsimp only
  split
  · exact ⟨⟨_, List.getLast?_concat .., rfl, rfl, rfl⟩, inject_fab _ _ _⟩
  · exact ⟨⟨p, List.getLast?_concat .., rfl, rfl, rfl⟩, rfl⟩

/-- The read request of a word of an exported block RAM. -/
def exportRead (src tag g b w : Nat) : Packet :=
  { op := 1, vc := 2, dst := (8 + g) * 256, src := src, tag := tag,
    addr := 0x020000000000 + g * 0x40000000 + 0x04000000 + b * 0x2000 + 8 * w % 0x2000, len := 8 }

theorem exec_bramExportAccess_read (hg : g < 8) (hb : b < 1920) (hlt : w < 1024) (he : exported s g b = true)
    {d : Nat} {t : State} (hr : bramRead g b w s = (2, d, t)) (src tag : Nat) :
    exec (.bramExportAccess src tag g b false (8 * w) 8 []) s
      = .next (launch (responseTo (exportRead src tag g b w) stPoison (toBytes 8 d) true) t) := by
  have hopen : ¬ (8 ≤ g ∨ 1920 ≤ b ∨ (!exported s g b) = true ∨ 8 = 0 ∨ 8 < 8 * w % 8 + 8) := by
    simp [he, hg, hb, Nat.mul_mod_right]
  have hword : 8 * w % 0x2000 / 8 % 1024 = w := by omega
  have hbyte : 8 * w % 0x2000 % 8 = 0 := by omega
  have hdata : ((toBytes 8 d).drop 0).take 8 = toBytes 8 d := rfl
  show execBramExportAccess _ _ _ _ _ _ _ _ _ = _
  simp only [execBramExportAccess, if_neg hopen, bramExport, Bool.false_eq_true, if_false, hword, hbyte, hr, if_true,
    respond, true_or, hdata, exportRead]
  rfl

theorem bramExportAccess_uncorrectable (hg : g < 8) (hb : b < 1920) (hlt : w < 1024) (he : exported s g b = true)
    (hm : s.fab.mends = []) (hu : whereUsed s (8 + g) 0 = []) (hx : (squareCheck (bramAt s (bramNo g b) w)).1 = 2)
    (src tag : Nat) :
    Does (.bramExportAccess src tag g b false (8 * w) 8 []) s (fun t =>
      (∃ p : Packet, t.net.getLast? = some p ∧ p.dst = src ∧ p.tag = tag ∧ p.status = 0xD)
        ∧ t.fab.bram = s.fab.bram) := by
  refine ⟨_, exec_bramExportAccess_read hg hb hlt he (bramRead_uncorrectable hm hu hx) src tag, ?_⟩
  obtain ⟨hlast, hfab⟩ := launch_spec (responseTo (exportRead src tag g b w) stPoison
    (toBytes 8 (squareCheck (bramAt s (bramNo g b) w)).2.1) true) (reportUpset g (bramUpset g b w s))
  exact ⟨hlast, by rw [hfab, reportUpset_fab, bramUpset_fab]⟩

/-- Settles O26: each clause is one access, by the finding of the read it makes. -/
theorem blockRamPortsReadAndWrite : Obligations.BlockRamPortsReadAndWrite := by
  unfold Obligations.BlockRamPortsReadAndWrite
  refine ⟨fun s g b port w d hon hw hlt hd hi hu hm hb => ⟨?_, ?_, fun k hk => ?_, ?_, ?_⟩,
    fun s g b w d k _ _ hk _ => bramWriteBack_dataBit hk,
    fun s g b w hg hb hlt hrun hback hm hf hpos _ hu => ⟨?_, ?_⟩,
    fun s g b w src tag hg hb hlt he hm _ _ hu hx => bramExportAccess_uncorrectable hg hb hlt he hm hu hx src tag⟩
  · exact bramPort_read_clean hon hw hlt hd hm
  · exact bramPort_fullWrite hon hw hlt hd hi hu hm
  · exact bramPort_read_dataBit hon hw hlt hd hu hm hb hk
  · exact bramPartialWrite_uncorrectable hon hw hlt hu hm
  · exact bramPartialWrite_clean hon hw hlt hd hi hu hm
  · exact bramSweepRead_clean hg hb hlt hrun hback hm hf hpos
  · exact bramSweepRead_corrected hg hb hlt hrun hback hm hf hpos hu

end Sys2Proof.Machine
end

section
/-!
PROOF. The operations of the Bough: what a counter, the response slots, an allowance and a packet put on the Bough
change, and what they leave (06 R182, R189, R196, R202).
-/
namespace Sys2Proof.Machine

/-! ### The Bough's state and the packets on it -/

/-- The Bough's state replaced. -/
def setBough (x : Bough) (s : State) : State := { s with bough := x }

@[simp] theorem setBough_bough (x : Bough) (s : State) : (setBough x s).bough = x := rfl

/-- A change of the Bough's state leaves the other parts. -/
theorem keepsBut_setBough (x : Bough) (s : State) : KeepsBut [.bough] s (setBough x s) := by
  refine ⟨rfl, fun p hp => ?_⟩
  cases p with
  | bough => exact absurd List.mem_cons_self hp
  | _ => rfl

/-- The packets on the Bough replaced. -/
def setNet (l : List Packet) (s : State) : State := { s with net := l }

@[simp] theorem setNet_bough (l : List Packet) (s : State) : (setNet l s).bough = s.bough := rfl

/-- A change of the packets on the Bough leaves the other parts. -/
theorem keepsBut_setNet (l : List Packet) (s : State) : KeepsBut [.net] s (setNet l s) := by
  refine ⟨rfl, fun p hp => ?_⟩
  cases p with
  | net => exact absurd List.mem_cons_self hp
  | _ => rfl

theorem keepsBut_toInbox (p : Packet) (s : State) : KeepsBut [.bough] s (toInbox p s) := keepsBut_setBough _ s

/-! ### Counters (R202) -/

/-- Counter `i` of R202 among the registers of a grove. -/
def bghReg (die i : Nat) : Nat := bghBlk (die - 8) + (if i = 0 then 4 else 8 + 4 * i)

/-- A grove's Bough block lies past hub window 1 (01 R29, R31). -/
theorem bghBlk_add_off (g k : Nat) : ¬ (boothWin ≤ bghBlk g + k ∧ bghBlk g + k < clkBase) := by
  simp only [bghBlk, groveWin, clkBase]; omega

/-- A counter goes one up and stops at all ones. -/
theorem bghRead_bghCnt (die i : Nat) (s : State) :
    bghRead (bghCnt die i s) die i = min (2 ^ 32 - 1) (bghRead s die i + 1) := by
  by_cases h : isGroveDie die = true
  · simp only [bghRead, bghCnt, if_pos h, rd_cnt_same, satInc_toNat, Nat.min_comm]
  · simp only [bghRead, bghCnt, if_neg h, smod, sget_sset_same]

@[simp] theorem bghCnt_net (die i : Nat) (s : State) : (bghCnt die i s).net = s.net := by
  rw [bghCnt]
  split
  · exact cnt_net ..
  · rfl

@[simp] theorem bghCnt_ward (die i : Nat) (s : State) : (bghCnt die i s).ward = s.ward := by
  rw [bghCnt]
  split
  · exact cnt_ward ..
  · rfl

@[simp] theorem bghCnt_inbox (die i : Nat) (s : State) : (bghCnt die i s).bough.inbox = s.bough.inbox := by
  rw [bghCnt]
  split
  · rw [cnt_bough]
  · rfl

theorem bghCnt_of_grove {die : Nat} (h : isGroveDie die = true) (i : Nat) (s : State) :
    bghCnt die i s = cnt s (bghReg die i) := if_pos h

theorem bghRead_of_grove {die : Nat} (h : isGroveDie die = true) (i : Nat) (s : State) :
    bghRead s die i = (rd s (bghReg die i)).toNat := if_pos h

theorem keepsBut_bghCnt (die i : Nat) (s : State) : KeepsBut [.regs, .bough] s (bghCnt die i s) := by
  rw [bghCnt]
  split
  · exact (keepsBut_wr s _ _).mono (by simp)
  · exact (keepsBut_setBough _ s).mono (by simp)

theorem regsBut_bghCnt (die i : Nat) (s : State) : RegsBut (fun a => a = bghReg die i) s (bghCnt die i s) := by
  rw [bghCnt]
  split
  · exact fun a ha => rd_cnt_other s ha
  · exact fun _ _ => rfl

/-! ### Response slots (R182, R189) -/

@[simp] theorem showSlots_bough (id : Nat) (s : State) : (showSlots id s).bough = s.bough := by
  rw [showSlots]
  split
  · exact wrF_bough ..
  · rfl

@[simp] theorem showSlots_net (id : Nat) (s : State) : (showSlots id s).net = s.net := by
  rw [showSlots]
  split
  · exact wrF_net ..
  · rfl

theorem keepsBut_showSlots (id : Nat) (s : State) : KeepsBut [.regs] s (showSlots id s) := by
  rw [showSlots]
  split
  · exact keepsBut_wr s _ _
  · exact KeepsBut.refl _ s

theorem regsBut_showSlots (id : Nat) (s : State) : RegsBut (fun a => a = stnCfg id) s (showSlots id s) := by
  rw [showSlots]
  split
  · exact fun a ha => rd_wrF_other s _ _ _ ha
  · exact fun _ _ => rfl

/-- The slots that a station has in use changed, and shown. -/
def useSlots (id : Nat) (f : Nat → Nat) (s : State) : State :=
  showSlots id (setBough { s.bough with used := smod 0 s.bough.used id f } s)

theorem takeSlots_eq {s : State} {id : Nat} (h : inSink s id = false) (n : Nat) :
    takeSlots id n s = useSlots id (· + n) s := if_neg (ne_true_of_eq_false h)

theorem freeSlots_eq {id : Nat} (h : id ≠ 1) (n : Nat) (s : State) : freeSlots id n s = useSlots id (· - n) s := if_neg h

@[simp] theorem useSlots_net (id : Nat) (f : Nat → Nat) (s : State) : (useSlots id f s).net = s.net := showSlots_net ..

theorem useSlots_bough (id : Nat) (f : Nat → Nat) (s : State) :
    (useSlots id f s).bough = { s.bough with used := smod 0 s.bough.used id f } := showSlots_bough ..

theorem slotsFree_useSlots (id : Nat) (f : Nat → Nat) (s : State) :
    slotsFree (useSlots id f s) id = 64 - f (sget 0 s.bough.used id) := by
  simp only [slotsFree, useSlots_bough, smod, sget_sset_same]

theorem keepsBut_useSlots (id : Nat) (f : Nat → Nat) (s : State) : KeepsBut [.regs, .bough] s (useSlots id f s) :=
  ((keepsBut_setBough _ s).mono (by simp)).trans ((keepsBut_showSlots id _).mono (by simp))

theorem regsBut_useSlots (id : Nat) (f : Nat → Nat) (s : State) :
    RegsBut (fun a => a = stnCfg id) s (useSlots id f s) := fun a ha => regsBut_showSlots id (setBough _ s) a ha

/-! ### Packets put on the Bough -/

/-- Nothing is injected at the check field of a station's packets while point 0x07 of its die is not armed. -/
theorem launch_of_not_armed {p : Packet} {s : State} (h : injArmed s (p.src / 256) 7 = false) :
    launch p s = setNet (s.net ++ [p]) s := by
  simp only [launch, inject_of_not_armed h, Bool.false_and, Bool.or_false, ite_self, setNet]

/-- Only a grove's stations have point 0x07. -/
theorem launch_of_not_grove {p : Packet} (h : isGroveDie (p.src / 256) = false) (s : State) :
    launch p s = setNet (s.net ++ [p]) s := by
  simp only [launch, h, Bool.false_eq_true, false_and, if_false, setNet]

/-- No injection point 0x07 lies among the registers of stations. -/
theorem injPt_ne_stnCfg (d id : Nat) : injPt d 7 ≠ stnCfg id := by
  have hdie : dieWin d % 0x1000000 = 0 := by
    rw [dieWin]
    split
    · rfl
    · split <;> simp only [laneWin, groveWin] <;> omega
  simp only [injPt, stnCfg, bghBlk, groveWin, injBase]
  split <;> omega

theorem injArmed_useSlots (id d : Nat) (f : Nat → Nat) (s : State) :
    injArmed (useSlots id f s) d 7 = injArmed s d 7 := by
  unfold injArmed rdB rdF
  rw [regsBut_useSlots id f s _ (injPt_ne_stnCfg d id)]

end Sys2Proof.Machine
end

section
/-!
PROOF. Requests at their network interface: sent, held back, answered in place, and released (O29).
-/
namespace Sys2Proof.Machine

/-! ### A request leaves -/

/-- The allowances of a contract with a packet's bytes deducted (R196). -/
def chargeContract (p : Packet) (s : State) : State :=
  setContract p.contract (meterTake (contractOf s p.contract) p.len) s

theorem contractOf_chargeContract (p : Packet) (s : State) :
    contractOf (chargeContract p s) p.contract = meterTake (contractOf s p.contract) p.len := by
  simp only [chargeContract, contractOf, setContract, sget_sset_same]

theorem keepsBut_chargeContract (p : Packet) (s : State) : KeepsBut [.bough] s (chargeContract p s) :=
  keepsBut_setBough _ s

section

variable {s : State} {p : Packet} (hi : injArmed s (p.src / 256) 7 = false)
include hi

/-- A packet under a contract leaves and is deducted from the contract's allowances. -/
theorem leave_metered (hvc : p.vc = 0) : leave p s = setNet (s.net ++ [p]) (chargeContract p s) := by
  have hi' : injArmed (chargeContract p s) (p.src / 256) 7 = false := hi
  rw [leave, if_pos hvc]
  exact launch_of_not_armed hi'

/-- A request outside sink mode leaves with its response slots reserved. -/
theorem leave_reserved (hvc : p.vc ≠ 0) (hs : inSink s p.src = false) :
    leave p s = setNet (s.net ++ [p]) (useSlots p.src (· + slotsFor p) s) := by
  rw [leave, if_neg hvc, takeSlots_eq hs]
  exact (launch_of_not_armed ((injArmed_useSlots ..).trans hi)).trans (by rw [useSlots_net])

/-- What a packet under a contract changes as it leaves. -/
theorem leave_metered_spec (hvc : p.vc = 0) :
    (leave p s).net = s.net ++ [p] ∧ (leave p s).bough.waiting = s.bough.waiting
      ∧ contractOf (leave p s) p.contract = meterTake (contractOf s p.contract) p.len
      ∧ KeepsBut [.bough, .net] s (leave p s) := by
  rw [leave_metered hi hvc]
  exact ⟨rfl, rfl, contractOf_chargeContract p s,
    ((keepsBut_chargeContract p s).mono (by simp)).trans ((keepsBut_setNet _ _).mono (by simp))⟩

/-- What a request that reserves response slots changes as it leaves. -/
theorem leave_reserved_spec (hvc : p.vc ≠ 0) (hs : inSink s p.src = false) :
    (leave p s).net = s.net ++ [p] ∧ (leave p s).bough.waiting = s.bough.waiting
      ∧ slotsFree (leave p s) p.src = slotsFree s p.src - slotsFor p ∧ KeepsBut [.regs, .bough, .net] s (leave p s)
      ∧ RegsBut (fun a => a = stnCfg p.src) s (leave p s) := by
  rw [leave_reserved hi hvc hs]
  refine ⟨rfl, ?_, ?_, ?_, fun a ha => ?_⟩
  · rw [setNet_bough, useSlots_bough]
  · exact (slotsFree_useSlots ..).trans (by rw [slotsFree, Nat.sub_add_eq])
  · exact ((keepsBut_useSlots ..).mono (by simp)).trans ((keepsBut_setNet _ _).mono (by simp))
  · exact regsBut_useSlots p.src _ s a ha

end

/-! ### A request presented (R186, R187) -/

theorem offer_of_mayLeave {s : State} {p : Packet} (hw : s.bough.waiting = []) (hm : mayLeave s p = true) :
    offer p s = leave p s := by
  simp [offer, hw, hm]

theorem offer_of_not_mayLeave {s : State} {p : Packet} (hm : mayLeave s p = false) :
    offer p s = setBough { s.bough with waiting := s.bough.waiting ++ [p] } s := by
  simp [offer, hm, setBough]

theorem mayLeave_metered {s : State} {p : Packet} (hvc : p.vc = 0) :
    mayLeave s p = meterOk (contractOf s p.contract) p.len := if_pos hvc

theorem mayLeave_reserved {s : State} {p : Packet} (hvc : p.vc ≠ 0) (hs : inSink s p.src = false) :
    mayLeave s p = decide (slotsFor p ≤ slotsFree s p.src) := by
  rw [mayLeave, if_neg hvc, hs, Bool.false_or]

/-- A request as its station presents it. -/
def presented (op src tag addr len : Nat) (data : List Byte) : Packet :=
  { op := op, vc := 2, dst := 0, src := src, tag := tag, addr := addr, len := len, data := data }

/-- A request within one block of 256 bytes is sent whole (R182). -/
theorem sendReq_one {p : Packet} (h : p.len ≤ 256 - p.addr % 256) (s : State) : sendReq p s = sendOne p s := by
  have hpieces : pieces (p.len / 256 + 2) p.addr p.len p.data = [(p.addr, p.len, p.data)] := if_pos h
  rw [sendReq, hpieces, List.foldl_cons, List.foldl_nil]

/-- A read, or a posted write with its data, is sent as it is presented. -/
theorem exec_boughRequestSend {s : State} {op src tag addr len : Nat} {data : List Byte}
    (hop : op = 1 ∧ data = [] ∨ op = 3 ∧ data.length = len) (hheld : s.pkg.held = false) (hpop : populated src = true)
    (halive : dieAlive s (src / 256) = true) (hlen : 0 < len) (hroom : len ≤ 256 - addr % 256) (haddr : addr < 2 ^ 48)
    (htag : tag < 2 ^ 16) :
    exec (.boughRequestSend src op tag addr len data none false) s
      = .next (sendOne (presented op src tag addr len data) s) := by
  have hdata : (if op = 1 then [] else (data ++ List.replicate len 0).take len) = data := by
    rcases hop with ⟨rfl, rfl⟩ | ⟨rfl, hd⟩
    · rfl
    · exact List.take_left' hd
  have hopen : ¬ (s.pkg.held = true ∨ (!populated src) = true ∨ (!dieAlive s (src / 256)) = true ∨ 16 ≤ op) := by
    rcases hop with ⟨rfl, _⟩ | ⟨rfl, _⟩ <;> simp [hheld, hpop, halive]
  have hreq : ¬ ((op = 4 ∨ op = 5) ∧ isDesign src = true) := by
    rcases hop with ⟨rfl, _⟩ | ⟨rfl, _⟩ <;> simp
  show execBoughRequestSend _ _ _ _ _ _ _ _ _ = _
  simp only [execBoughRequestSend, if_neg hopen, if_neg hreq, if_neg (Nat.ne_of_gt hlen), hdata,
    Nat.mod_eq_of_lt htag, Nat.mod_eq_of_lt haddr]
  exact congrArg _ (sendReq_one hroom s)

/-- The read request of a station, with the fields of its route entry. -/
def readRequest (s : State) (src tag addr len : Nat) : Packet :=
  { op := 1, vc := 2, dst := stationOf s addr, src := src, tag := tag, addr := addr, len := len,
    tdir := fld (routeOf s src (stationOf s addr)) 29 29, altOk := bit (routeOf s src (stationOf s addr)) 28,
    hops := fld (routeOf s src (stationOf s addr)) 15 8 }

/-- The contract that the route entry of a posted write names. -/
def entryContract (s : State) (src addr : Nat) : Nat := fld (routeOf s src (stationOf s addr)) 27 16

/-- The posted write of a station under the contract of its route entry. -/
def guardedWrite (s : State) (src tag addr : Nat) (data : List Byte) : Packet :=
  { op := 3, vc := 0, dst := stationOf s addr, src := src, tag := tag, addr := addr, len := data.length, data := data,
    guar := true, contract := entryContract s src addr, tdir := fld (routeOf s src (stationOf s addr)) 29 29,
    altOk := bit (routeOf s src (stationOf s addr)) 28, hops := fld (routeOf s src (stationOf s addr)) 15 8 }

/-- A read leaves by a VALID entry; without one it is answered NO_ROUTE and counted (R187). -/
theorem sendOne_read {s : State} {src addr : Nat} (hc : cacheable s src 1 addr = false) (tag len : Nat) :
    sendOne (presented 1 src tag addr len []) s
      = if bit (routeOf s src (stationOf s addr)) 31 = true then offer (readRequest s src tag addr len) s
        else answerLocal (readRequest s src tag addr len) 6 (bghCnt (src / 256) 1 s) := by
  cases h : (routeOf s src (stationOf s addr)).toNat.testBit 31 <;>
    simp [sendOne, presented, provOf, hc, bit, h, readRequest, fld]

/-- A bit of a field. -/
theorem testBit_fld (w : Word) {hi lo i : Nat} (hl : lo ≤ i) (hh : i ≤ hi) :
    (fld w hi lo).testBit (i - lo) = bit w i := by
  rw [fld, nfld_testBit, decide_eq_true (by omega), Bool.true_and, Nat.add_sub_cancel' hl, bit]

/-- VALID and GUAR both set: a posted write leaves under the entry's contract. -/
theorem sendOne_guarded {s : State} {src addr : Nat} (hg : fld (routeOf s src (stationOf s addr)) 31 30 = 3) (tag : Nat)
    (data : List Byte) :
    sendOne (presented 3 src tag addr data.length data) s = offer (guardedWrite s src tag addr data) s := by
  have h31 : bit (routeOf s src (stationOf s addr)) 31 = true :=
    (testBit_fld _ (show 30 ≤ 31 by decide) (show 31 ≤ 31 by decide)).symm.trans (by rw [hg]; rfl)
  have h30 : bit (routeOf s src (stationOf s addr)) 30 = true :=
    (testBit_fld _ (show 30 ≤ 30 by decide) (show 30 ≤ 31 by decide)).symm.trans (by rw [hg]; rfl)
  rw [bit] at h31 h30
  simp [sendOne, presented, provOf, h31, h30, guardedWrite, entryContract, fld, bit]

theorem answerLocal_read {p : Packet} (hop : p.op = 1) (hs : p.src ≠ 1) (hd : isDesign p.src = false) (status : Nat)
    (s : State) : answerLocal p status s = toInbox (responseTo p status [] false) s := by
  simp [answerLocal, hop, hs, hd]

/-! ### The clauses -/

/-- A read with slots for its response leaves on VC2 and reserves them. -/
theorem offer_read_leaves {s : State} {src tag addr len : Nat} (hw : s.bough.waiting = []) (hs : inSink s src = false)
    (hslots : flitsOf len ≤ slotsFree s src) (hi : injArmed s (src / 256) 7 = false) :
    (offer (readRequest s src tag addr len) s).net = s.net ++ [readRequest s src tag addr len]
      ∧ slotsFree (offer (readRequest s src tag addr len) s) src = slotsFree s src - flitsOf len
      ∧ KeepsBut [.regs, .bough, .net] s (offer (readRequest s src tag addr len) s)
      ∧ RegsBut (fun a => a = stnCfg src) s (offer (readRequest s src tag addr len) s) := by
  have hvc : (readRequest s src tag addr len).vc ≠ 0 := Nat.succ_ne_zero 1
  have hm : mayLeave s (readRequest s src tag addr len) = true :=
    (mayLeave_reserved hvc hs).trans (decide_eq_true hslots)
  rw [offer_of_mayLeave hw hm]
  obtain ⟨hnet, -, hfree, hkeep, hregs⟩ := leave_reserved_spec (p := readRequest s src tag addr len) hi hvc hs
  exact ⟨hnet, hfree, hkeep, hregs⟩

/-- A read without slots for its response waits. -/
theorem offer_read_waits {s : State} {src tag addr len : Nat} (hs : inSink s src = false)
    (hslots : slotsFree s src < flitsOf len) :
    offer (readRequest s src tag addr len) s
      = setBough { s.bough with waiting := s.bough.waiting ++ [readRequest s src tag addr len] } s := by
  have hvc : (readRequest s src tag addr len).vc ≠ 0 := Nat.succ_ne_zero 1
  exact offer_of_not_mayLeave ((mayLeave_reserved hvc hs).trans (decide_eq_false (Nat.not_le.mpr hslots)))

/-- A posted write under a contract whose allowances suffice leaves on VC0 and is deducted from them. -/
theorem offer_guarded_leaves {s : State} {src tag addr : Nat} {data : List Byte} (hw : s.bough.waiting = [])
    (hok : meterOk (contractOf s (entryContract s src addr)) data.length = true)
    (hi : injArmed s (src / 256) 7 = false) :
    (offer (guardedWrite s src tag addr data) s).net = s.net ++ [guardedWrite s src tag addr data]
      ∧ contractOf (offer (guardedWrite s src tag addr data) s) (entryContract s src addr)
          = meterTake (contractOf s (entryContract s src addr)) data.length
      ∧ KeepsBut [.bough, .net] s (offer (guardedWrite s src tag addr data) s) := by
  have hvc : (guardedWrite s src tag addr data).vc = 0 := rfl
  rw [offer_of_mayLeave hw ((mayLeave_metered hvc).trans hok)]
  obtain ⟨hnet, -, hcon, hkeep⟩ := leave_metered_spec (p := guardedWrite s src tag addr data) hi hvc
  exact ⟨hnet, hcon, hkeep⟩

/-- A posted write under a contract whose allowances fall short waits. -/
theorem offer_guarded_waits {s : State} {src tag addr : Nat} {data : List Byte}
    (hshort : meterOk (contractOf s (entryContract s src addr)) data.length = false) :
    offer (guardedWrite s src tag addr data) s
      = setBough { s.bough with waiting := s.bough.waiting ++ [guardedWrite s src tag addr data] } s :=
  offer_of_not_mayLeave ((mayLeave_metered rfl).trans hshort)

/-- The allowances of a contract after a packet, in the units of R196. -/
theorem meterTake_allowances (c : Contract) (n : Nat) :
    (meterTake c n).peakA = c.peakA - 4000 * n ∧ (meterTake c n).rateA = c.rateA - 4000 * n := by
  simp only [meterTake]; omega

/-! ### A waiting request is released (R189, R196) -/

/-- The interface's list of waiting requests replaced. -/
def setWaiting (l : List Packet) (s : State) : State := setBough { s.bough with waiting := l } s

/-- The oldest waiting request leaves once it may. -/
theorem releaseWaiting_first {s : State} {p : Packet} {l : List Packet} (hw : s.bough.waiting = p :: l)
    (hm : mayLeave s p = true) : releaseWaiting p.src p.dst p.vc s = leave p (setWaiting l s) := by
  simp [releaseWaiting, hw, hm, setWaiting, setBough]

theorem exec_contractMeterRelease (src dst : Nat) (s : State) :
    exec (.contractMeterRelease src dst) s = .next (releaseWaiting src dst 0 s) := rfl

theorem exec_responseSlotReserved (src dst : Nat) (s : State) :
    exec (.responseSlotReserved src dst) s = .next (releaseWaiting src dst 2 s) := rfl

theorem contractMeterRelease_first {s : State} {p : Packet} {l : List Packet} (hw : s.bough.waiting = p :: l)
    (hi : injArmed s (p.src / 256) 7 = false) (hvc : p.vc = 0)
    (hok : meterOk (contractOf s p.contract) p.len = true) :
    Does (.contractMeterRelease p.src p.dst) s (fun t =>
      t.net = s.net ++ [p] ∧ t.bough.waiting = l
        ∧ (contractOf t p.contract).peakA = (contractOf s p.contract).peakA - 4000 * p.len
        ∧ KeepsBut [.bough, .net] s t) := by
  have hrel := releaseWaiting_first hw ((mayLeave_metered hvc).trans hok)
  rw [hvc] at hrel
  obtain ⟨hnet, hwait, hcon, hkeep⟩ := leave_metered_spec (s := setWaiting l s) hi hvc
  refine ⟨_, (exec_contractMeterRelease ..).trans (congrArg _ hrel), hnet, hwait, ?_, ?_⟩
  · rw [hcon]
    exact (meterTake_allowances _ _).1
  · exact ((keepsBut_setBough _ s).mono (by simp)).trans hkeep

theorem responseSlotReserved_first {s : State} {p : Packet} {l : List Packet} (hw : s.bough.waiting = p :: l)
    (hi : injArmed s (p.src / 256) 7 = false) (hvc : p.vc = 2) (hs : inSink s p.src = false)
    (hslots : slotsFor p ≤ slotsFree s p.src) :
    Does (.responseSlotReserved p.src p.dst) s (fun t =>
      t.net = s.net ++ [p] ∧ t.bough.waiting = l ∧ slotsFree t p.src = slotsFree s p.src - slotsFor p
        ∧ KeepsBut [.regs, .bough, .net] s t ∧ RegsBut (fun a => a = stnCfg p.src) s t) := by
  have hne : p.vc ≠ 0 := by omega
  have hrel := releaseWaiting_first hw ((mayLeave_reserved hne hs).trans (decide_eq_true hslots))
  rw [hvc] at hrel
  obtain ⟨hnet, hwait, hfree, hkeep, hregs⟩ := leave_reserved_spec (s := setWaiting l s) hi hne hs
  exact ⟨_, (exec_responseSlotReserved ..).trans (congrArg _ hrel), hnet, hwait, hfree,
    ((keepsBut_setBough _ s).mono (by simp)).trans hkeep, hregs⟩

/-- Settles O29: a request presented is sent by its route entry and offered to the Bough, and there it leaves, waits, or
is answered in place; a waiting request leaves once it may. -/
theorem requestsLeaveOrWaitInTheirInterface : Obligations.RequestsLeaveOrWaitInTheirInterface := by
  unfold Obligations.RequestsLeaveOrWaitInTheirInterface
  refine ⟨fun s src tag addr len hheld hpop halive hlen hroom haddr htag hc hw => ?_,
    fun s src tag addr data hheld hpop halive hlen hroom haddr htag hw hg hi => ?_,
    fun s p l hw hi => ⟨contractMeterRelease_first hw hi, responseSlotReserved_first hw hi⟩⟩
  · have hexec := (exec_boughRequestSend (.inl ⟨rfl, rfl⟩) hheld hpop halive hlen hroom haddr htag).trans
      (congrArg _ (sendOne_read hc tag len))
    refine ⟨fun hv hs => ⟨fun hslots hi => ?_, fun hslots => ?_⟩, fun hv hsrc hd => ?_⟩
    · rw [if_pos hv] at hexec
      exact ⟨_, hexec, offer_read_leaves hw hs hslots hi⟩
    · rw [if_pos hv, offer_read_waits hs hslots, hw] at hexec
      exact ⟨_, hexec, rfl, rfl, keepsBut_setBough _ s⟩
    · rw [if_neg (ne_true_of_eq_false hv), answerLocal_read rfl hsrc hd] at hexec
      refine ⟨_, hexec, bghCnt_net .., bghRead_bghCnt .., ?_, ?_, fun a ha => regsBut_bghCnt _ _ s a ha⟩
      · simp [toInbox, responseTo, readRequest]
      · exact (keepsBut_bghCnt ..).trans ((keepsBut_toInbox ..).mono (by simp))
  · have hexec := (exec_boughRequestSend (.inr ⟨rfl, rfl⟩) hheld hpop halive hlen hroom haddr htag).trans
      (congrArg _ (sendOne_guarded hg tag data))
    refine ⟨fun hok => ?_, fun hshort => ?_⟩
    · obtain ⟨hnet, hcon, hkeep⟩ := offer_guarded_leaves hw hok hi
      obtain ⟨hpeak, hrate⟩ := meterTake_allowances (contractOf s (entryContract s src addr)) data.length
      refine ⟨_, hexec, ?_, ?_, (congrArg Contract.peakA hcon).trans hpeak, (congrArg Contract.rateA hcon).trans hrate,
        hkeep⟩
      · rw [hnet, List.getLast?_concat]
        rfl
      · rw [hnet, List.length_append]
        rfl
    · rw [offer_guarded_waits hshort, hw] at hexec
      exact ⟨_, hexec, rfl, rfl, keepsBut_setBough _ s⟩

end Sys2Proof.Machine
end

section
/-!
PROOF. Packets on the Bough: what routers, bridges and destinations do with them (O30).
-/
namespace Sys2Proof.Machine

theorem dropNet_only {s : State} {p : Packet} (h : s.net = [p]) : dropNet 0 s = setNet [] s := by
  rw [dropNet, h]
  rfl

/-! ### Answers on the way (R187, R192, R193) -/

/-- The answer that a router or a bridge gives to a read, at the requester's own interface. -/
def bounced (p : Packet) (status : Nat) : Packet := { responseTo p status [] false with src := p.src }

/-- A read of another station than a remote cache is answered in its place. -/
theorem bounce_read {p : Packet} (hop : p.op = 1) (hsrc : p.src % 256 ≠ 3) (status : Nat) (s : State) :
    bounce p status s = setNet (s.net ++ [bounced p status]) s := by
  simp [bounce, hop, hsrc, setNet, bounced]

/-- A read answered in its place, counted in counter `i` of a die. -/
def bounceCounted (die i : Nat) (p : Packet) (status : Nat) (s : State) : State :=
  bounce p status (bghCnt die i (setNet [] s))

theorem bounceCounted_spec {p : Packet} (hop : p.op = 1) (hsrc : p.src % 256 ≠ 3) (die i status : Nat) (s : State) :
    (bounceCounted die i p status s).net = [bounced p status]
      ∧ bghRead (bounceCounted die i p status s) die i = min (2 ^ 32 - 1) (bghRead s die i + 1)
      ∧ KeepsBut [.regs, .bough, .net] s (bounceCounted die i p status s) := by
  rw [bounceCounted, bounce_read hop hsrc, bghCnt_net]
  refine ⟨rfl, bghRead_bghCnt die i (setNet [] s), ?_⟩
  exact ((keepsBut_setNet [] s).mono (by simp)).trans
    (((keepsBut_bghCnt ..).mono (by simp)).trans ((keepsBut_setNet ..).mono (by simp)))

section

variable {s : State} {p : Packet} (hn : s.net = [p])
include hn

theorem exec_hopsExpired {o : Output} (ho : (packetPath p)[p.hops]? = some o) :
    exec (.hopsExpired 0) s = .next (bounceCounted ((outputDies o).headD 0) 2 p 0x06 s) := by
  show execHopsExpired _ _ = _
  simp [execHopsExpired, hn, ho, dropNet_only hn, bounceCounted]

/-- A packet that may turn does so at a DOWN trunk port. -/
theorem exec_trunkTurn_turns {d u : Nat} (hlost : (packetPath p).find? (outputLost s) = some (.trunk d u))
    (halt : p.altOk = true) (hturned : p.turned = false) :
    exec (.trunkTurn 0) s = .next (bghCnt d 5 (setNet [{ p with tdir := 1 - u, turned := true }] s)) := by
  show execTrunkTurn _ _ = _
  simp [execTrunkTurn, hn, hlost, halt, hturned, setNet]

/-- A read that may not turn is answered ABSENT at a DOWN trunk port. -/
theorem exec_trunkTurn_absent {d u : Nat} (hlost : (packetPath p).find? (outputLost s) = some (.trunk d u))
    (hno : p.altOk = false ∨ p.turned = true) (hop : p.op = 1) :
    exec (.trunkTurn 0) s = .next (bounceCounted d 3 p 0xE s) := by
  have hstay : ¬ (p.altOk = true ∧ (!p.turned) = true) := by
    rcases hno with h | h <;> simp [h]
  show execTrunkTurn _ _ = _
  simp only [execTrunkTurn, hn, List.getElem?_cons_zero, hlost, if_neg hstay, dropNet_only hn, bridgeDiscard,
    if_pos (Or.inl hop), stAbsent, bounceCounted]

theorem trunkTurn_turns {d u : Nat} (hlost : (packetPath p).find? (outputLost s) = some (.trunk d u))
    (halt : p.altOk = true) (hturned : p.turned = false) :
    Does (.trunkTurn 0) s (fun t => t.net = [{ p with tdir := 1 - u, turned := true }]
      ∧ bghRead t d 5 = min (2 ^ 32 - 1) (bghRead s d 5 + 1) ∧ KeepsBut [.regs, .bough, .net] s t) :=
  ⟨_, exec_trunkTurn_turns hn hlost halt hturned, bghCnt_net .., bghRead_bghCnt d 5 (setNet _ s),
    ((keepsBut_setNet _ s).mono (by simp)).trans ((keepsBut_bghCnt ..).mono (by simp))⟩

/-! ### Unlisted operations (R181) -/

theorem exec_badOpDiscard (hop : p.op = 0 ∨ 9 < p.op) :
    exec (.badOpDiscard 0) s = .next (bghCnt (p.src / 256) 1 (setNet [] s)) := by
  have hbad : ¬ (1 ≤ p.op ∧ p.op ≤ 9) := by omega
  show execBadOpDiscard _ _ = _
  simp only [execBadOpDiscard, hn, List.getElem?_cons_zero, if_neg hbad, dropNet_only hn]

theorem badOpDiscard_counted (hop : p.op = 0 ∨ 9 < p.op) :
    Does (.badOpDiscard 0) s (fun t => t.net = []
      ∧ bghRead t (p.src / 256) 1 = min (2 ^ 32 - 1) (bghRead s (p.src / 256) 1 + 1)
      ∧ KeepsBut [.regs, .bough, .net] s t) :=
  ⟨_, exec_badOpDiscard hn hop, bghCnt_net .., bghRead_bghCnt _ _ (setNet [] s),
    ((keepsBut_setNet [] s).mono (by simp)).trans ((keepsBut_bghCnt ..).mono (by simp))⟩

end

/-! ### Arrival -/

/-- What arrives where, by the kind of its operation (R181). -/
def landing (p : Packet) (taken : Bool) (s : State) : Landing :=
  if p.op ≤ 3 then landRequest p taken s
  else if p.op ≤ 5 then landResponse p taken s
  else landControl p taken s

section

variable {s t : State} {p : Packet} (hn : s.net = [p]) (hm : mayArrive s 0 p = true) (hc : p.chkBad = false)
include hn hm hc

theorem exec_packetArrival_done {taken : Bool} (h : landing p taken (setNet [] s) = .done t) :
    exec (.packetArrival 0 false taken) s = .next t := by
  rw [landing] at h
  show execPacketArrival _ _ _ _ = _
  simp [execPacketArrival, hn, hm, hc, dropNet_only hn, h]

theorem exec_packetArrival_wait {taken : Bool} (h : landing p taken (setNet [] s) = .wait) :
    exec (.packetArrival 0 false taken) s = .next s := by
  rw [landing] at h
  show execPacketArrival _ _ _ _ = _
  simp [execPacketArrival, hn, hm, hc, dropNet_only hn, h]

end

/-- A packet that failed its end-to-end check, as its station takes it (R184). -/
def failedCheck (p : Packet) : Packet := { p with poison := true, chkBad := false }

theorem endCheck_net (p : Packet) (s : State) (h : p.marked = false) : (endCheck p s).net = s.net := by
  simp only [endCheck, h, Bool.false_eq_true, if_false, raise_net]
  split
  · exact (wr_net ..).trans (bghCnt_net ..)
  · exact bghCnt_net ..

/-- A packet arrives altered: its check fails, and it lands poisoned. -/
theorem exec_packetArrival_fault {s t : State} {p : Packet} (hn : s.net = [p]) (hm : mayArrive s 0 p = true)
    (hmark : p.marked = false) {taken : Bool}
    (h : landing (failedCheck p) taken (setNet [] (endCheck p s)) = .done t) :
    exec (.packetArrival 0 true taken) s = .next t := by
  have hdrop : dropNet 0 (endCheck p s) = setNet [] (endCheck p s) :=
    dropNet_only ((endCheck_net p s hmark).trans hn)
  rw [landing] at h
  show execPacketArrival _ _ _ _ = _
  simp only [execPacketArrival, hn, List.getElem?_cons_zero, hm, Bool.not_true, Bool.false_eq_true, if_false, Bool.or_true,
    if_true, hdrop]
  rw [failedCheck] at h
  simp only [h]

/-! ### Responses (R189) -/

/-- A response to a tile group or a porter frees its slots and waits to be taken up. -/
theorem landing_response {p : Packet} (hop : p.op = 4) (hk : kindOf p.dst = .tiles ∨ kindOf p.dst = .porter)
    (taken : Bool) (s : State) :
    landing p taken s = .done (toInbox p (useSlots p.dst (· - flitsOf p.len) s)) := by
  have hdst : p.dst ≠ 1 := by
    intro h
    rw [h] at hk
    exact absurd hk (by decide)
  have hland : landing p taken s = landResponse p taken s := by simp [landing, hop]
  rw [hland, landResponse, if_pos hop, freeSlots_eq hdst]
  rcases hk with hk | hk <;> simp only [hk]

theorem packetArrival_response {s : State} {p : Packet} (hn : s.net = [p]) (hm : mayArrive s 0 p = true)
    (hc : p.chkBad = false) (hop : p.op = 4) (hk : kindOf p.dst = .tiles ∨ kindOf p.dst = .porter) :
    Does (.packetArrival 0 false true) s (fun t => t.net = [] ∧ t.bough.inbox = s.bough.inbox ++ [p]
      ∧ slotsFree t p.dst = 64 - (sget 0 s.bough.used p.dst - flitsOf p.len) ∧ KeepsBut [.regs, .bough, .net] s t
      ∧ RegsBut (fun a => a = stnCfg p.dst) s t) := by
  refine ⟨_, exec_packetArrival_done hn hm hc (landing_response hop hk true _), ?_, ?_, ?_, ?_, fun a ha => ?_⟩
  · exact useSlots_net ..
  · simp only [toInbox, useSlots_bough, setNet_bough]
  · exact slotsFree_useSlots p.dst _ (setNet [] s)
  · exact ((keepsBut_setNet [] s).mono (by simp)).trans
      (((keepsBut_useSlots ..).mono (by simp)).trans ((keepsBut_toInbox ..).mono (by simp)))
  · exact regsBut_useSlots p.dst _ (setNet [] s) a ha

/-! ### Requests that their station cannot serve (R576) -/

theorem isLaneDie_of_engine {id : Nat} (h : kindOf id = .engine) : isLaneDie (id / 256) = true := by
  cases hl : isLaneDie (id / 256) with
  | true => rfl
  | false =>
    simp only [kindOf, hl, Bool.false_eq_true, if_false] at h
    repeat' split at h
    all_goals exact absurd h (by decide)

theorem not_grove_of_lane {d : Nat} (h : isLaneDie d = true) : isGroveDie d = false := by
  simp only [isLaneDie, Bool.and_eq_true, decide_eq_true_eq] at h
  rw [isGroveDie, decide_eq_false (by omega), Bool.false_and]

/-- A port engine serves no read: it is answered NO_ROUTE and counted. -/
theorem landing_engineRead {p : Packet} (hop : p.op = 1) (hk : kindOf p.dst = .engine) (taken : Bool) (s : State) :
    landing p taken s = .done (setNet (s.net ++ [responseTo p 6 [] false]) (bghCnt (p.dst / 256) 1 s)) := by
  have hgrove : isGroveDie ((responseTo p 6 [] false).src / 256) = false := not_grove_of_lane (isLaneDie_of_engine hk)
  have hserve : unservable p s = setNet (s.net ++ [responseTo p 6 [] false]) (bghCnt (p.dst / 256) 1 s) := by
    rw [unservable, respond, if_pos (.inl hop)]
    exact (launch_of_not_grove hgrove _).trans (by rw [bghCnt_net])
  simp [landing, hop, landRequest, hk, hserve]

theorem packetArrival_engineRead {s : State} {p : Packet} (hn : s.net = [p]) (hm : mayArrive s 0 p = true)
    (hc : p.chkBad = false) (hop : p.op = 1) (hk : kindOf p.dst = .engine) :
    Does (.packetArrival 0 false true) s (fun t => t.net = [responseTo p 6 [] false]
      ∧ bghRead t (p.dst / 256) 1 = min (2 ^ 32 - 1) (bghRead s (p.dst / 256) 1 + 1)
      ∧ KeepsBut [.regs, .bough, .net] s t) := by
  refine ⟨_, exec_packetArrival_done hn hm hc (landing_engineRead hop hk true _), rfl,
    bghRead_bghCnt _ _ (setNet [] s), ?_⟩
  exact ((keepsBut_setNet [] s).mono (by simp)).trans
    (((keepsBut_bghCnt ..).mono (by simp)).trans ((keepsBut_setNet ..).mono (by simp)))

/-! ### Posted writes at a design station (R184, R190) -/

theorem isGroveDie_of_isDesign {id : Nat} (h : isDesign id = true) : isGroveDie (id / 256) = true := by
  simp only [isDesign, Bool.and_eq_true] at h
  exact h.1.1

theorem kindOf_design {id : Nat} (h : isDesign id = true) : kindOf id = .design := by
  have hgrove := isGroveDie_of_isDesign h
  simp only [isDesign, Bool.and_eq_true, decide_eq_true_eq] at h
  obtain ⟨⟨-, hlo⟩, hhi⟩ := h
  have hg : 8 ≤ id / 256 := by
    simp only [isGroveDie, Bool.and_eq_true, decide_eq_true_eq] at hgrove
    exact hgrove.1
  have hlane : ¬ isLaneDie (id / 256) = true := by simp [isLaneDie]; omega
  simp only [kindOf, if_neg hlane, if_neg (show ¬ id / 256 = 0 by omega), if_pos hgrove]
  rw [if_neg (by omega), if_neg (by omega), if_neg (by omega), if_pos (by omega)]

/-- A design station takes a posted write, or leaves it waiting on the Bough. -/
theorem landing_posted {p : Packet} (hop : p.op = 3) (hd : isDesign p.dst = true) (taken : Bool) (s : State) :
    landing p taken s = if taken = true then .done s else .wait := by
  cases taken <;> simp [landing, hop, landRequest, kindOf_design hd]

/-- An event raised leaves a grove's counters. -/
theorem bghRead_raise {die : Nat} (hg : isGroveDie die = true) (i code sev src : Nat) (d : List Word) (s : State) :
    bghRead (raise code sev src d s) die i = bghRead s die i := by
  rw [bghRead_of_grove hg, bghRead_of_grove hg]
  exact congrArg _ (rd_raise (bghBlk_add_off _ _) _ _ _ _ _)

/-- A failed check counted, and recorded in its grove's BGH_LAST (R184). -/
def recordCheck (p : Packet) (s : State) : State :=
  wr (countUncorr (p.dst / 256) (bghCnt (p.dst / 256) 0 s)) (bghBlk (p.dst / 256 - 8) + 8) (word (p.dst + p.src * 2 ^ 16))

theorem endCheck_of_grove {p : Packet} (hg : isGroveDie (p.dst / 256) = true) (hmark : p.marked = false) (s : State) :
    endCheck p s = raise 0x0405 2 p.dst [word p.dst, word p.src] (recordCheck p s) := by
  simp only [endCheck, hmark, Bool.false_eq_true, if_false, if_pos hg, recordCheck]

/-- The registers of a failed check. -/
def checkReg (p : Packet) (a : Nat) : Prop := a = bghReg (p.dst / 256) 0 ∨ a = bghBlk (p.dst / 256 - 8) + 8

theorem regsBut_recordCheck (p : Packet) (s : State) : RegsBut (checkReg p) s (recordCheck p s) := by
  intro a ha
  rw [recordCheck, rd_wr_other _ _ (fun h => ha (.inr h)), rd_countUncorr]
  exact regsBut_bghCnt _ _ s a (fun h => ha (.inl h))

theorem offWindow1_checkReg (p : Packet) : OffWindow1 (checkReg p) := by
  rintro a (rfl | rfl) <;> exact bghBlk_add_off _ _

/-- A grove counts and records a failed check in registers. -/
theorem keepsBut_recordCheck {p : Packet} (hg : isGroveDie (p.dst / 256) = true) (s : State) :
    KeepsBut [.regs, .ras] s (recordCheck p s) := by
  rw [recordCheck, bghCnt_of_grove hg]
  exact (keepsBut_wr ..).ras.trans (((keepsBut_countUncorr ..).mono (by simp)).trans (keepsBut_wr ..).ras)

theorem recordCheck_ward (p : Packet) (s : State) : (recordCheck p s).ward = s.ward := by
  rw [recordCheck, wr_ward, countUncorr_ward, bghCnt_ward]

theorem bghRead_recordCheck {p : Packet} (hg : isGroveDie (p.dst / 256) = true) (s : State) :
    bghRead (recordCheck p s) (p.dst / 256) 0 = min (2 ^ 32 - 1) (bghRead s (p.dst / 256) 0 + 1) := by
  have hne : bghReg (p.dst / 256) 0 ≠ bghBlk (p.dst / 256 - 8) + 8 := by simp [bghReg]
  rw [← bghRead_bghCnt, bghRead_of_grove hg, bghRead_of_grove hg, recordCheck, rd_wr_other _ _ hne, rd_countUncorr]

/-- A posted write whose check fails is counted, recorded and raised, and its station takes it poisoned. -/
theorem packetArrival_failedCheck {s : State} {p : Packet} (hn : s.net = [p]) (hm : mayArrive s 0 p = true)
    (hop : p.op = 3) (hd : isDesign p.dst = true) (hmark : p.marked = false) (hfits : EventFits s 0x0405 2) :
    Does (.packetArrival 0 true true) s (fun t => t.net = [] ∧ EventPlaced t 0x0405 (word p.dst)
      ∧ bghRead t (p.dst / 256) 0 = min (2 ^ 32 - 1) (bghRead s (p.dst / 256) 0 + 1)
      ∧ rd t (bghBlk (p.dst / 256 - 8) + 8) = word (p.dst + p.src * 2 ^ 16)
      ∧ KeepsBut [.regs, .ward, .ras, .net] s t) := by
  have hg := isGroveDie_of_isDesign hd
  have hland := landing_posted (p := failedCheck p) hop hd true (setNet [] (endCheck p s))
  refine ⟨_, exec_packetArrival_fault hn hm hmark hland, rfl, ?_, ?_, ?_, ?_⟩ <;> rw [endCheck_of_grove hg hmark]
  · exact eventPlaced_raise
      (hfits.of_regsBut (recordCheck_ward p s) (regsBut_recordCheck p s) (offWindow1_checkReg p)) _ _ _
  · exact (bghRead_raise hg ..).trans (bghRead_recordCheck hg s)
  · exact (rd_raise (bghBlk_add_off _ _) _ _ _ _ _).trans (rd_wr_same ..)
  · exact ((keepsBut_recordCheck hg s).mono (by simp)).trans
      (((keepsBut_raise ..).mono (by simp)).trans ((keepsBut_setNet ..).mono (by simp)))

/-! ### Sink violations (R190) -/

/-- An untaken response discarded and counted. -/
def discardUntaken (p : Packet) (s : State) : State :=
  bghCnt (p.dst / 256) 6 (setBough { s.bough with inbox := s.bough.inbox.erase p } s)

/-- The violations of a station since its last event set back. -/
def clearSince (id : Nat) (s : State) : State :=
  setBough { s.bough with sinkSince := sset 0 s.bough.sinkSince id 0 } s

/-- The event of a violation is raised with the count of those since the last one. -/
theorem exec_sinkViolation {s : State} {p : Packet} (hd : isDesign p.dst = true) (hs : inSink s p.dst = true)
    (hin : s.bough.inbox = [p]) (hvc : p.vc = 1) (hgen : generated s 0x0404 2 = true) :
    exec (.sinkViolation p.dst) s = .next (clearSince p.dst
      (raise 0x0404 2 0 [word p.dst, word (sget 0 (discardUntaken p s).bough.sinkSince p.dst + 1)]
        (discardUntaken p s))) := by
  have hopen : ¬ (!(isDesign p.dst && inSink s p.dst)) = true := by simp [hd, hs]
  have hfind : s.bough.inbox.find? (fun q => q.dst = p.dst && q.vc = 1) = some p := by simp [hin, hvc]
  have hgen' : generated (discardUntaken p s) 0x0404 2 = true := by
    rw [generated, discardUntaken, bghCnt_ward]
    exact hgen
  rw [discardUntaken, setBough] at hgen'
  show execSinkViolation _ _ = _
  simp only [execSinkViolation, if_neg hopen, hfind, raiseSince, hgen', if_true]
  rfl

theorem sinkViolation_discards {s : State} {p : Packet} (hd : isDesign p.dst = true) (hs : inSink s p.dst = true)
    (hin : s.bough.inbox = [p]) (hvc : p.vc = 1) (hfits : EventFits s 0x0404 2) :
    Does (.sinkViolation p.dst) s (fun t => t.bough.inbox = [] ∧ EventPlaced t 0x0404 (word p.dst)
      ∧ bghRead t (p.dst / 256) 6 = min (2 ^ 32 - 1) (bghRead s (p.dst / 256) 6 + 1)
      ∧ OnlyRegs (fun a => a = bghBlk (p.dst / 256 - 8) + 0x20) [.bough] s t) := by
  have hg := isGroveDie_of_isDesign hd
  have hregs : RegsBut (fun a => a = bghReg (p.dst / 256) 6) s (discardUntaken p s) :=
    fun a ha => regsBut_bghCnt _ _ (setBough _ s) a ha
  have hward : (discardUntaken p s).ward = s.ward := bghCnt_ward ..
  have hcount : bghRead (discardUntaken p s) (p.dst / 256) 6 = min (2 ^ 32 - 1) (bghRead s (p.dst / 256) 6 + 1) :=
    bghRead_bghCnt _ _ (setBough _ s)
  have hoff : OffWindow1 (fun a => a = bghReg (p.dst / 256) 6) := by
    rintro a rfl
    exact bghBlk_add_off _ _
  have hkeep : KeepsBut [.regs, .bough] s (discardUntaken p s) :=
    ((keepsBut_setBough _ s).mono (by simp)).trans (keepsBut_bghCnt ..)
  refine ⟨_, exec_sinkViolation hd hs hin hvc hfits.1, ?_, ?_, ?_, ?_⟩
  · simp [clearSince, discardUntaken, hin]
  · exact eventPlaced_raise (hfits.of_regsBut hward hregs hoff) _ _ _
  · exact (bghRead_raise hg ..).trans hcount
  · obtain ⟨hk, hr⟩ := onlyRegs_raise hkeep hregs 0x0404 2 0
      [word p.dst, word (sget 0 (discardUntaken p s).bough.sinkSince p.dst + 1)]
    exact ⟨hk.trans ((keepsBut_setBough _ _).mono (by simp)), hr⟩

/-- Settles O30: each clause is one packet met by a router, by a bridge or by its destination. -/
theorem packetsAreDeliveredTurnedOrDiscarded : Obligations.PacketsAreDeliveredTurnedOrDiscarded := by
  unfold Obligations.PacketsAreDeliveredTurnedOrDiscarded
  refine ⟨fun s p hn hop hsrc => ⟨fun o ho => ?_, fun d u hlost => ⟨trunkTurn_turns hn hlost, fun hno => ?_⟩⟩,
    fun s p hn hop => badOpDiscard_counted hn hop,
    fun s p hn hm hc => ⟨packetArrival_response hn hm hc, packetArrival_engineRead hn hm hc, fun hop hd hmark => ?_⟩,
    fun s p hd hs hin hvc hfits => sinkViolation_discards hd hs hin hvc hfits⟩
  · exact ⟨_, exec_hopsExpired hn ho, bounceCounted_spec hop hsrc ..⟩
  · exact ⟨_, exec_trunkTurn_absent hn hlost hno hop, bounceCounted_spec hop hsrc ..⟩
  · refine ⟨⟨_, exec_packetArrival_done hn hm hc (landing_posted hop hd true _), rfl, keepsBut_setNet [] s⟩,
      exec_packetArrival_wait hn hm hc (landing_posted hop hd false _),
      packetArrival_failedCheck hn hm hop hd hmark⟩

end Sys2Proof.Machine
end


section
/-!
PROOF. The words of tile instructions: the fields of a word and of its operands, decode of encode, encode of decode, which
words are listed, and a word that does not stand at the PC (O40; 08 R247, 09 R279-R301).
-/
namespace Sys2Proof.Machine

/-! ### Fields of a word -/

theorem nfld_eq_div_mod (n hi lo : Nat) : nfld n hi lo = n / 2 ^ lo % 2 ^ (hi - lo + 1) := by
  rw [nfld, Nat.shiftRight_eq_div_pow]

theorem nfld_lt (n hi lo : Nat) : nfld n hi lo < 2 ^ (hi - lo + 1) := Nat.mod_lt _ (Nat.two_pow_pos _)

theorem zeroF_iff {w hi lo : Nat} : zeroF w hi lo = true ↔ nfld w hi lo = 0 := decide_eq_true_iff

/-- A field inside a field of zeros is zero. -/
theorem nfld_sub_zero {w hi lo : Nat} (h : nfld w hi lo = 0) (hi' lo' : Nat) (hl : lo ≤ lo' := by decide)
    (hh : hi' ≤ hi := by decide) (hle : lo' ≤ hi' := by decide) : nfld w hi' lo' = 0 := by
  refine Nat.eq_of_testBit_eq fun i => ?_
  have hbit := congrArg (fun z => z.testBit (lo' + i - lo)) h
  rw [nfld_testBit] at hbit
  rw [nfld_testBit, Nat.zero_testBit]
  by_cases hi' : i < hi' - lo' + 1
  · rw [decide_eq_true (by omega), Bool.true_and, Nat.zero_testBit, show lo + (lo' + i - lo) = lo' + i by omega] at hbit
    rw [hbit, Bool.and_false]
  · rw [decide_eq_false hi', Bool.false_and]

theorem b2n_le (p : Bool) : b2n p ≤ 1 := by cases p <;> decide

theorem b2n_testBit (n i : Nat) : b2n (n.testBit i) = n / 2 ^ i % 2 := by
  have := Nat.mod_two_eq_zero_or_one (n / 2 ^ i)
  rcases this with h | h <;> simp [Nat.testBit_eq_decide_div_mod_eq, b2n, h]

/-- A bit that is a summand of its place. -/
theorem decide_b2n (p : Bool) : decide (b2n p = 1) = p := by cases p <;> decide

/-- The class bit, PAIR and OP of a class-C word. -/
theorem wordC_fields {p : Bool} {op x : Nat} (hop : op < 64) (hx : x < 2 ^ 24) :
    wordC p op x < 2 ^ 32 ∧ (wordC p op x).testBit 30 = false ∧ (wordC p op x).testBit 31 = p
      ∧ nfld (wordC p op x) 29 24 = op := by
  have hp := b2n_le p
  have h31 : wordC p op x / 2 ^ 31 % 2 = b2n p := by rw [wordC]; omega
  refine ⟨?_, ?_, ?_, ?_⟩
  · rw [wordC]; omega
  · rw [Nat.testBit_eq_decide_div_mod_eq, wordC, decide_eq_false_iff_not]; omega
  · rw [Nat.testBit_eq_decide_div_mod_eq, h31, decide_b2n]
  · rw [nfld_eq_div_mod, wordC]; omega

/-- The class bit, PAIR and OP of a class-M word. -/
theorem wordM_fields {op x : Nat} (hop : op < 64) (hx : x < 2 ^ 24) :
    wordM op x < 2 ^ 32 ∧ (wordM op x).testBit 30 = true ∧ (wordM op x).testBit 31 = false
      ∧ nfld (wordM op x) 29 24 = op := by
  refine ⟨?_, ?_, ?_, ?_⟩
  · rw [wordM]; omega
  · rw [Nat.testBit_eq_decide_div_mod_eq, wordM, decide_eq_true_iff]; omega
  · rw [Nat.testBit_eq_decide_div_mod_eq, wordM, decide_eq_false_iff_not]; omega
  · rw [nfld_eq_div_mod, wordM]; omega

/-! ### Decode of a word whose class and OP are known (R247, R279) -/

theorem tileDecode_wordC {t t' w op x : Nat} {p : Bool} {i : Instr} (hw : some (t', wordC p op x) = some (t, w))
    (hop : op < 64) (hx : x < 2 ^ 24)
    (h : (if op < 0x20 then scalarDecode t' (wordC p op x) op p else vectorDecode t' (wordC p op x) op p) = some i) :
    w < 2 ^ 32 ∧ tileDecode t w = some i := by
  obtain ⟨rfl, rfl⟩ := Prod.mk.inj (Option.some.inj hw)
  obtain ⟨hlt, h30, h31, h24⟩ := wordC_fields (p := p) hop hx
  refine ⟨hlt, ?_⟩
  simp only [tileDecode, h30, h31, h24, Bool.false_eq_true, if_false]
  exact h

theorem tileDecode_wordM {t t' w op x : Nat} {i : Instr} (hw : some (t', wordM op x) = some (t, w))
    (hop : op < 64) (hx : x < 2 ^ 24) (h : moveDecode t' (wordM op x) op = some i) :
    w < 2 ^ 32 ∧ tileDecode t w = some i := by
  obtain ⟨rfl, rfl⟩ := Prod.mk.inj (Option.some.inj hw)
  obtain ⟨hlt, h30, h31, h24⟩ := wordM_fields hop hx
  refine ⟨hlt, ?_⟩
  simp only [tileDecode, h30, h31, h24, Bool.false_eq_true, if_false, if_true]
  exact h

theorem whenOk_eq_some {ok : Bool} {i j : Instr} : whenOk ok i = some j ↔ ok = true ∧ i = j := by
  cases ok <;> simp [whenOk]

theorem isSome_whenOk (ok : Bool) (i : Instr) : (whenOk ok i).isSome = ok := by
  cases ok <;> rfl

/-! ### Operand bits by format (R281) -/

theorem fields_of_lt {l : List (Nat × Nat)} {x : Nat} (h : ∀ p ∈ l, p.1 < p.2) : fields l x = x :=
  if_pos (List.all_eq_true.mpr fun p hp => decide_eq_true (h p hp))

theorem fmtCR_eq {d a b : Nat} (hd : d < 16) (ha : a < 16) (hb : b < 16) :
    fmtCR d a b = d * 2 ^ 20 + a * 2 ^ 16 + b * 2 ^ 12 := fields_of_lt (by simp [hd, ha, hb])
theorem fmtCI_eq {d a imm : Nat} (hd : d < 16) (ha : a < 16) (hi : imm < 65536) :
    fmtCI d a imm = d * 2 ^ 20 + a * 2 ^ 16 + imm := fields_of_lt (by simp [hd, ha, hi])
theorem fmtCV_eq {d a b x : Nat} (hd : d < 16) (ha : a < 16) (hb : b < 16) (hx : x < 16) :
    fmtCV d a b x = d * 2 ^ 20 + a * 2 ^ 16 + b * 2 ^ 12 + x := fields_of_lt (by simp [hd, ha, hb, hx])
theorem fmtCM_eq {k x w lane : Nat} (hk : k < 4) (hx : x < 16) (hw : w < 16) (hl : lane < 16) :
    fmtCM k x w lane = k * 2 ^ 22 + x * 2 ^ 18 + w * 2 ^ 14 + lane * 2 ^ 10 := fields_of_lt (by simp [hk, hx, hw, hl])
theorem fmtCN_eq {d k sh a : Nat} (hd : d < 16) (hk : k < 4) (hs : sh < 32) (ha : a < 16) :
    fmtCN d k sh a = d * 2 ^ 20 + k * 2 ^ 18 + sh * 2 ^ 13 + a := fields_of_lt (by simp [hd, hk, hs, ha])
theorem fmtML_eq {r n am imm : Nat} (hr : r < 16) (hn : n < 8) (ha : am < 3) (hi : imm < 32768) :
    fmtML r n am imm = r * 2 ^ 20 + n * 2 ^ 17 + am * 2 ^ 15 + imm := fields_of_lt (by simp [hr, hn, ha, hi])
theorem fmtMA_eq {kind n imm : Nat} (hk : kind < 3) (hn : n < 8) (hi : imm < 65536) :
    fmtMA kind n imm = kind * 2 ^ 22 + n * 2 ^ 19 + imm := fields_of_lt (by simp [hk, hn, hi])
theorem fmtMB_eq {cond a b target : Nat} (hc : cond < 9) (ha : a < 16) (hb : b < 16) (ht : target < 4096) :
    fmtMB cond a b target = cond * 2 ^ 20 + a * 2 ^ 16 + b * 2 ^ 12 + target := fields_of_lt (by simp [hc, ha, hb, ht])

/-- The fields of a word of format CR. -/
theorem fields_CR {d a b : Nat} (hd : d < 16) (ha : a < 16) (hb : b < 16) :
    fmtCR d a b < 2 ^ 24 ∧ ∀ (p : Bool) (op : Nat),
      nfld (wordC p op (fmtCR d a b)) 23 20 = d ∧ nfld (wordC p op (fmtCR d a b)) 19 16 = a
      ∧ nfld (wordC p op (fmtCR d a b)) 15 12 = b ∧ nfld (wordC p op (fmtCR d a b)) 11 0 = 0 := by
  simp only [fmtCR_eq hd ha hb, nfld_eq_div_mod, wordC]
  refine ⟨?_, fun _ _ => ⟨?_, ?_, ?_, ?_⟩⟩ <;> omega

/-- The fields of a word of format CI. -/
theorem fields_CI {d a imm : Nat} (hd : d < 16) (ha : a < 16) (hi : imm < 65536) :
    fmtCI d a imm < 2 ^ 24 ∧ ∀ (p : Bool) (op : Nat),
      nfld (wordC p op (fmtCI d a imm)) 23 20 = d ∧ nfld (wordC p op (fmtCI d a imm)) 19 16 = a
      ∧ nfld (wordC p op (fmtCI d a imm)) 15 0 = imm ∧ nfld (wordC p op (fmtCI d a imm)) 15 5 = imm / 32 := by
  simp only [fmtCI_eq hd ha hi, nfld_eq_div_mod, wordC]
  refine ⟨?_, fun _ _ => ⟨?_, ?_, ?_, ?_⟩⟩ <;> omega

/-- The fields of a word of format CV. -/
theorem fields_CV {d a b x : Nat} (hd : d < 16) (ha : a < 16) (hb : b < 16) (hx : x < 16) :
    fmtCV d a b x < 2 ^ 24 ∧ ∀ (p : Bool) (op : Nat),
      nfld (wordC p op (fmtCV d a b x)) 23 20 = d ∧ nfld (wordC p op (fmtCV d a b x)) 19 16 = a
      ∧ nfld (wordC p op (fmtCV d a b x)) 15 12 = b ∧ nfld (wordC p op (fmtCV d a b x)) 3 0 = x
      ∧ nfld (wordC p op (fmtCV d a b x)) 11 0 = x ∧ nfld (wordC p op (fmtCV d a b x)) 15 4 = b * 2 ^ 8
      ∧ nfld (wordC p op (fmtCV d a b x)) 15 3 = b * 2 ^ 9 + x / 8
      ∧ nfld (wordC p op (fmtCV d a b x)) 15 0 = b * 2 ^ 12 + x := by
  simp only [fmtCV_eq hd ha hb hx, nfld_eq_div_mod, wordC]
  refine ⟨?_, fun _ _ => ⟨?_, ?_, ?_, ?_, ?_, ?_, ?_, ?_⟩⟩ <;> omega

/-- The fields of a word of format CM. -/
theorem fields_CM {k x w lane : Nat} (hk : k < 4) (hx : x < 16) (hw : w < 16) (hl : lane < 16) :
    fmtCM k x w lane < 2 ^ 24 ∧ ∀ (p : Bool) (op : Nat),
      nfld (wordC p op (fmtCM k x w lane)) 23 22 = k
      ∧ nfld (wordC p op (fmtCM k x w lane)) 21 18 = x ∧ nfld (wordC p op (fmtCM k x w lane)) 17 14 = w
      ∧ nfld (wordC p op (fmtCM k x w lane)) 13 10 = lane ∧ nfld (wordC p op (fmtCM k x w lane)) 9 0 = 0
      ∧ nfld (wordC p op (fmtCM k x w lane)) 13 0 = lane * 2 ^ 10 := by
  simp only [fmtCM_eq hk hx hw hl, nfld_eq_div_mod, wordC]
  refine ⟨?_, fun _ _ => ⟨?_, ?_, ?_, ?_, ?_, ?_⟩⟩ <;> omega

/-- The fields of a word of format CN. -/
theorem fields_CN {d k sh a : Nat} (hd : d < 16) (hk : k < 4) (hs : sh < 32) (ha : a < 16) :
    fmtCN d k sh a < 2 ^ 24 ∧ ∀ (p : Bool) (op : Nat),
      nfld (wordC p op (fmtCN d k sh a)) 23 20 = d ∧ nfld (wordC p op (fmtCN d k sh a)) 19 18 = k
      ∧ nfld (wordC p op (fmtCN d k sh a)) 17 13 = sh ∧ nfld (wordC p op (fmtCN d k sh a)) 3 0 = a
      ∧ nfld (wordC p op (fmtCN d k sh a)) 12 0 = a ∧ nfld (wordC p op (fmtCN d k sh a)) 17 4 = sh * 2 ^ 9 := by
  simp only [fmtCN_eq hd hk hs ha, nfld_eq_div_mod, wordC]
  refine ⟨?_, fun _ _ => ⟨?_, ?_, ?_, ?_, ?_, ?_⟩⟩ <;> omega

/-- The fields of a word of format ML. -/
theorem fields_ML {r n am imm : Nat} (hr : r < 16) (hn : n < 8) (ha : am < 3) (hi : imm < 32768) :
    fmtML r n am imm < 2 ^ 24 ∧ ∀ op : Nat,
      nfld (wordM op (fmtML r n am imm)) 23 20 = r ∧ nfld (wordM op (fmtML r n am imm)) 19 17 = n
      ∧ nfld (wordM op (fmtML r n am imm)) 16 15 = am ∧ nfld (wordM op (fmtML r n am imm)) 14 0 = imm
      ∧ nfld (wordM op (fmtML r n am imm)) 14 4 = imm / 16 := by
  simp only [fmtML_eq hr hn ha hi, nfld_eq_div_mod, wordM]
  refine ⟨?_, fun _ => ⟨?_, ?_, ?_, ?_, ?_⟩⟩ <;> omega

/-- The fields of a word of format MA. -/
theorem fields_MA {kind n imm : Nat} (hk : kind < 3) (hn : n < 8) (hi : imm < 65536) :
    fmtMA kind n imm < 2 ^ 24 ∧ ∀ op : Nat,
      nfld (wordM op (fmtMA kind n imm)) 23 22 = kind
      ∧ nfld (wordM op (fmtMA kind n imm)) 21 19 = n ∧ nfld (wordM op (fmtMA kind n imm)) 15 0 = imm
      ∧ nfld (wordM op (fmtMA kind n imm)) 3 0 = imm % 16 ∧ nfld (wordM op (fmtMA kind n imm)) 18 4 = imm / 16
      ∧ nfld (wordM op (fmtMA kind n imm)) 18 16 = 0 := by
  simp only [fmtMA_eq hk hn hi, nfld_eq_div_mod, wordM]
  refine ⟨?_, fun _ => ⟨?_, ?_, ?_, ?_, ?_, ?_⟩⟩ <;> omega

/-- The fields of a word of format MB. -/
theorem fields_MB {cond a b target : Nat} (hc : cond < 9) (ha : a < 16) (hb : b < 16) (ht : target < 4096) :
    fmtMB cond a b target < 2 ^ 24 ∧ ∀ op : Nat,
      nfld (wordM op (fmtMB cond a b target)) 23 20 = cond
      ∧ nfld (wordM op (fmtMB cond a b target)) 19 16 = a ∧ nfld (wordM op (fmtMB cond a b target)) 15 12 = b
      ∧ nfld (wordM op (fmtMB cond a b target)) 11 0 = target
      ∧ nfld (wordM op (fmtMB cond a b target)) 15 0 = b * 2 ^ 12 + target := by
  simp only [fmtMB_eq hc ha hb ht, nfld_eq_div_mod, wordM]
  refine ⟨?_, fun _ => ⟨?_, ?_, ?_, ?_, ?_⟩⟩ <;> omega

/-- The fields of a class-M word of one operand. -/
theorem fields_MI (op : Nat) {x : Nat} (hx : x < 65536) :
    nfld (wordM op x) 23 16 = 0 ∧ nfld (wordM op x) 15 0 = x ∧ nfld (wordM op x) 23 4 = x / 16
      ∧ nfld (wordM op x) 3 0 = x % 16 ∧ nfld (wordM op x) 23 3 = x / 8 ∧ nfld (wordM op x) 2 0 = x % 8
      ∧ nfld (wordM op x) 23 1 = x / 2 ∧ nfld (wordM op x) 23 8 = x / 256 ∧ nfld (wordM op x) 7 0 = x % 256
      ∧ nfld (wordM op x) 23 0 = x := by
  simp only [nfld_eq_div_mod, wordM]
  refine ⟨?_, ?_, ?_, ?_, ?_, ?_, ?_, ?_, ?_, ?_⟩ <;> omega

/-- The fields of the word of SETTMR. -/
theorem fields_MT (reg : Bool) {v : Nat} (hv : v < 2 ^ 20) :
    b2n reg * 2 ^ 23 + v < 2 ^ 24 ∧ ∀ op : Nat, (wordM op (b2n reg * 2 ^ 23 + v)).testBit 23 = reg
      ∧ nfld (wordM op (b2n reg * 2 ^ 23 + v)) 22 4 = v / 16 ∧ nfld (wordM op (b2n reg * 2 ^ 23 + v)) 3 0 = v % 16
      ∧ nfld (wordM op (b2n reg * 2 ^ 23 + v)) 22 20 = 0 ∧ nfld (wordM op (b2n reg * 2 ^ 23 + v)) 19 0 = v := by
  have hreg := b2n_le reg
  have h23 : ∀ op : Nat, wordM op (b2n reg * 2 ^ 23 + v) / 2 ^ 23 % 2 = b2n reg := fun op => by rw [wordM]; omega
  refine ⟨by omega, fun op => ⟨by rw [Nat.testBit_eq_decide_div_mod_eq, h23, decide_b2n], ?_, ?_, ?_, ?_⟩⟩ <;>
    rw [nfld_eq_div_mod, wordM] <;> omega

/-! ### Decode of encode -/

/-- The word of a well-formed instruction spells it. -/
theorem tileDecode_tileWord {i : Instr} {t w : Nat} (hi : wellFormed i = true) (hw : tileWord i = some (t, w)) :
    w < 2 ^ 32 ∧ tileDecode t w = some i := by
  cases i with
  | add t p d a b | sub t p d a b | mul t p d a b | min t p d a b | max t p d a b | and t p d a b | or t p d a b
  | xor t p d a b | sll t p d a b | srl t p d a b | sra t p d a b | slt t p d a b | sltu t p d a b =>
    obtain ⟨-, hd, ha, hb⟩ := of_decide_eq_true hi
    obtain ⟨hx, hf⟩ := fields_CR hd ha hb
    exact tileDecode_wordC hw (by decide) hx (by simp [scalarDecode, whenOk, zeroF, hf])
  | addi t p d a imm | andi t p d a imm | ori t p d a imm | xori t p d a imm =>
    obtain ⟨-, hd, ha, hm⟩ := of_decide_eq_true hi
    obtain ⟨hx, hf⟩ := fields_CI hd ha hm
    exact tileDecode_wordC hw (by decide) hx (by simp [scalarDecode, hf])
  | slli t p d a imm | srli t p d a imm | srai t p d a imm =>
    obtain ⟨-, hd, ha, hm⟩ := of_decide_eq_true hi
    obtain ⟨hx, hf⟩ := fields_CI hd ha (show imm < 65536 by omega)
    exact tileDecode_wordC hw (by decide) hx (by simp [scalarDecode, whenOk, zeroF, hf, Nat.div_eq_of_lt hm])
  | li t p d imm | lui t p d imm =>
    obtain ⟨-, hd, hm⟩ := of_decide_eq_true hi
    obtain ⟨hx, hf⟩ := fields_CI hd (show 0 < 16 by decide) hm
    exact tileDecode_wordC hw (by decide) hx (by simp [scalarDecode, whenOk, zeroF, hf])
  | mts t p a =>
    obtain ⟨-, ha⟩ := of_decide_eq_true hi
    obtain ⟨hx, hf⟩ := fields_CI (show 0 < 16 by decide) ha (show 0 < 65536 by decide)
    exact tileDecode_wordC hw (by decide) hx (by simp [scalarDecode, whenOk, zeroF, hf])
  | mfs t p d sel =>
    obtain ⟨-, hd, hs⟩ := of_decide_eq_true hi
    obtain ⟨hx, hf⟩ := fields_CI hd (show 0 < 16 by decide) (show sel < 65536 by omega)
    exact tileDecode_wordC hw (by decide) hx
      (by simp [scalarDecode, whenOk, zeroF, hf, Nat.le_of_lt_succ hs])
  | vadd t p d a b | vsub t p d a b | vand t p d a b | vor t p d a b | vxor t p d a b =>
    obtain ⟨-, hd, ha, hb⟩ := of_decide_eq_true hi
    obtain ⟨hx, hf⟩ := fields_CV hd ha hb (show 0 < 16 by decide)
    exact tileDecode_wordC hw (by decide) hx (by simp [vectorDecode, whenOk, zeroF, hf])
  | vneg t p d a | vconj t p d a | vmov t p d a | vsplat t p d a =>
    obtain ⟨-, hd, ha⟩ := of_decide_eq_true hi
    obtain ⟨hx, hf⟩ := fields_CV hd ha (show 0 < 16 by decide) (show 0 < 16 by decide)
    exact tileDecode_wordC hw (by decide) hx (by simp [vectorDecode, whenOk, zeroF, hf])
  | vsrai t p d a sh =>
    obtain ⟨-, hd, ha, hs⟩ := of_decide_eq_true hi
    obtain ⟨hx, hf⟩ := fields_CV hd ha (show 0 < 16 by decide) (show sh < 16 by omega)
    exact tileDecode_wordC hw (by decide) hx (by simp [vectorDecode, whenOk, zeroF, hf, Nat.div_eq_of_lt hs])
  | vext t p d a x | vins t p d a x =>
    obtain ⟨-, hd, ha, hx⟩ := of_decide_eq_true hi
    obtain ⟨hx, hf⟩ := fields_CV hd ha (show 0 < 16 by decide) hx
    exact tileDecode_wordC hw (by decide) hx (by simp [vectorDecode, whenOk, zeroF, hf])
  | cmac t p k x w lane | cmacz t p k x w lane | cmacj t p k x w lane | cmacjz t p k x w lane =>
    obtain ⟨-, hk, hx, hv, hl⟩ := of_decide_eq_true hi
    obtain ⟨hx, hf⟩ := fields_CM hk hx hv hl
    exact tileDecode_wordC hw (by decide) hx (by simp [vectorDecode, whenOk, zeroF, hf])
  | cmace t p k x w | cmacez t p k x w =>
    obtain ⟨-, hk, hx, hv⟩ := of_decide_eq_true hi
    obtain ⟨hx, hf⟩ := fields_CM hk hx hv (show 0 < 16 by decide)
    exact tileDecode_wordC hw (by decide) hx (by simp [vectorDecode, whenOk, zeroF, hf])
  | narrow t p d k sh =>
    obtain ⟨-, hd, hk, hs⟩ := of_decide_eq_true hi
    obtain ⟨hx, hf⟩ := fields_CN hd hk hs (show 0 < 16 by decide)
    exact tileDecode_wordC hw (by decide) hx (by simp [vectorDecode, whenOk, zeroF, hf])
  | narrows t p d k a =>
    obtain ⟨-, hd, hk, ha⟩ := of_decide_eq_true hi
    obtain ⟨hx, hf⟩ := fields_CN hd hk (show 0 < 32 by decide) ha
    exact tileDecode_wordC hw (by decide) hx (by simp [vectorDecode, whenOk, zeroF, hf])
  | lw t r n am imm | sw t r n am imm | vld t r n am imm | vst t r n am imm =>
    obtain ⟨-, hr, hn, ham, hm⟩ := of_decide_eq_true hi
    obtain ⟨hx, hf⟩ := fields_ML hr hn ham (show imm < 32768 by split at hm <;> omega)
    have hm2 : am = 2 → imm < 16 := fun h => by rwa [if_pos h] at hm
    exact tileDecode_wordM hw (by decide) hx
      (by simpa [moveDecode, whenOk, zeroF, hf] using And.intro (Nat.ne_of_lt ham) hm2)
  | amov t kind n sc | mfa t kind n sc =>
    obtain ⟨-, hk, hn, hs⟩ := of_decide_eq_true hi
    obtain ⟨hx, hf⟩ := fields_MA hk hn (show sc < 65536 by omega)
    exact tileDecode_wordM hw (by decide) hx
      (by simp [moveDecode, whenOk, zeroF, hf, Nat.div_eq_of_lt hs, Nat.mod_eq_of_lt hs, Nat.ne_of_lt hk])
  | aseti t kind n imm =>
    obtain ⟨-, hk, hn, hm⟩ := of_decide_eq_true hi
    obtain ⟨hx, hf⟩ := fields_MA hk hn hm
    exact tileDecode_wordM hw (by decide) hx (by simp [moveDecode, whenOk, zeroF, hf, Nat.ne_of_lt hk])
  | astep t n imm =>
    obtain ⟨-, hn, hm⟩ := of_decide_eq_true hi
    obtain ⟨hx, hf⟩ := fields_MA (show 0 < 3 by decide) hn hm
    exact tileDecode_wordM hw (by decide) hx (by simp [moveDecode, whenOk, zeroF, hf])
  | b t cond a b target =>
    obtain ⟨-, hc, hca, ha, hcb, hb, ht⟩ := of_decide_eq_true hi
    obtain ⟨hx, hf⟩ := fields_MB hc ha hb ht
    exact tileDecode_wordM hw (by decide) hx (by simp [moveDecode, whenOk, hf]; omega)
  | jal t d target | dbnz t d target =>
    obtain ⟨-, hd, ht⟩ := of_decide_eq_true hi
    obtain ⟨hx, hf⟩ := fields_MB (show 0 < 9 by decide) hd (show 0 < 16 by decide) ht
    exact tileDecode_wordM hw (by decide) hx (by simp [moveDecode, whenOk, zeroF, hf])
  | jr t a =>
    obtain ⟨-, ha⟩ := of_decide_eq_true hi
    obtain ⟨hx, hf⟩ := fields_MB (show 0 < 9 by decide) ha (show 0 < 16 by decide) (show 0 < 4096 by decide)
    exact tileDecode_wordM hw (by decide) hx (by simp [moveDecode, whenOk, zeroF, hf])
  | rep t n | repr t n | exit t n =>
    obtain ⟨-, hn⟩ := of_decide_eq_true hi
    have hf := fun op => fields_MI op (show n < 65536 by omega)
    exact tileDecode_wordM hw (by decide) (by omega)
      (by simp [moveDecode, whenOk, zeroF, hf, Nat.div_eq_of_lt hn, Nat.mod_eq_of_lt hn])
  | lock t n =>
    obtain ⟨-, h1, h4⟩ := of_decide_eq_true hi
    have hf := fun op => fields_MI op (show n < 65536 by omega)
    exact tileDecode_wordM hw (by decide) (by omega)
      (by simp [moveDecode, whenOk, zeroF, hf, Nat.mod_eq_of_lt (show n < 8 by omega)]; omega)
  | wait t timed =>
    obtain ⟨rfl, rfl⟩ := Prod.mk.inj (Option.some.inj hw)
    cases timed <;> exact ⟨by decide, rfl⟩
  | settmr t reg v =>
    obtain ⟨-, hv⟩ := of_decide_eq_true hi
    cases reg with
    | false =>
      obtain ⟨hx, hf⟩ := fields_MT false (show v < 2 ^ 20 from hv)
      exact tileDecode_wordM hw (by decide) hx (by simp [-Nat.reducePow, moveDecode, whenOk, zeroF, hf])
    | true =>
      have hv4 : v < 16 := hv
      obtain ⟨hx, hf⟩ := fields_MT true (show v < 2 ^ 20 by omega)
      exact tileDecode_wordM hw (by decide) hx
        (by simp [-Nat.reducePow, moveDecode, whenOk, zeroF, hf, Nat.div_eq_of_lt hv4, Nat.mod_eq_of_lt hv4])
  | nop t p =>
    obtain ⟨rfl, rfl⟩ := Prod.mk.inj (Option.some.inj hw)
    cases p <;> exact ⟨by decide, rfl⟩
  | kick t | fence t =>
    obtain ⟨rfl, rfl⟩ := Prod.mk.inj (Option.some.inj hw)
    exact ⟨by decide, rfl⟩
  | _ => exact absurd hw (by simp [tileWord])

/-! ### Encode of decode -/

theorem fmtCR_nfld {w : Nat} (h : nfld w 11 0 = 0) : fmtCR (nfld w 23 20) (nfld w 19 16) (nfld w 15 12) = nfld w 23 0 := by
  rw [fmtCR_eq (nfld_lt w 23 20) (nfld_lt w 19 16) (nfld_lt w 15 12)]
  simp only [nfld_eq_div_mod] at *; omega

theorem fmtCI_nfld (w : Nat) : fmtCI (nfld w 23 20) (nfld w 19 16) (nfld w 15 0) = nfld w 23 0 := by
  rw [fmtCI_eq (nfld_lt w 23 20) (nfld_lt w 19 16) (nfld_lt w 15 0)]
  simp only [nfld_eq_div_mod]; omega

theorem fmtCV_nfld {w : Nat} (h : nfld w 11 4 = 0) :
    fmtCV (nfld w 23 20) (nfld w 19 16) (nfld w 15 12) (nfld w 3 0) = nfld w 23 0 := by
  rw [fmtCV_eq (nfld_lt w 23 20) (nfld_lt w 19 16) (nfld_lt w 15 12) (nfld_lt w 3 0)]
  simp only [nfld_eq_div_mod] at *; omega

theorem fmtCM_nfld {w : Nat} (h : nfld w 9 0 = 0) :
    fmtCM (nfld w 23 22) (nfld w 21 18) (nfld w 17 14) (nfld w 13 10) = nfld w 23 0 := by
  rw [fmtCM_eq (nfld_lt w 23 22) (nfld_lt w 21 18) (nfld_lt w 17 14) (nfld_lt w 13 10)]
  simp only [nfld_eq_div_mod] at *; omega

theorem fmtCN_nfld {w : Nat} (h : nfld w 12 4 = 0) :
    fmtCN (nfld w 23 20) (nfld w 19 18) (nfld w 17 13) (nfld w 3 0) = nfld w 23 0 := by
  rw [fmtCN_eq (nfld_lt w 23 20) (nfld_lt w 19 18) (nfld_lt w 17 13) (nfld_lt w 3 0)]
  simp only [nfld_eq_div_mod] at *; omega

theorem fmtML_nfld {w : Nat} (h : nfld w 16 15 < 3) :
    fmtML (nfld w 23 20) (nfld w 19 17) (nfld w 16 15) (nfld w 14 0) = nfld w 23 0 := by
  rw [fmtML_eq (nfld_lt w 23 20) (nfld_lt w 19 17) h (nfld_lt w 14 0)]
  simp only [nfld_eq_div_mod]; omega

theorem fmtMA_nfld {w : Nat} (hk : nfld w 23 22 < 3) (h : nfld w 18 16 = 0) :
    fmtMA (nfld w 23 22) (nfld w 21 19) (nfld w 15 0) = nfld w 23 0 := by
  rw [fmtMA_eq hk (nfld_lt w 21 19) (nfld_lt w 15 0)]
  simp only [nfld_eq_div_mod] at *; omega

theorem fmtMB_nfld {w : Nat} (h : nfld w 23 20 < 9) :
    fmtMB (nfld w 23 20) (nfld w 19 16) (nfld w 15 12) (nfld w 11 0) = nfld w 23 0 := by
  rw [fmtMB_eq h (nfld_lt w 19 16) (nfld_lt w 15 12) (nfld_lt w 11 0)]
  simp only [nfld_eq_div_mod]; omega

/-- A field whose high part is zero is its low part. -/
theorem nfld_low {w hi m : Nat} (h : nfld w hi (m + 1) = 0) (hm : m < hi := by decide) : nfld w m 0 = nfld w hi 0 := by
  refine Nat.eq_of_testBit_eq fun i => ?_
  rw [nfld_testBit, nfld_testBit, Nat.zero_add]
  by_cases hi' : i ≤ m
  · rw [decide_eq_true (by omega), decide_eq_true (by omega)]
  · have hbit := congrArg (fun z => z.testBit (i - (m + 1))) h
    simp only [nfld_testBit, Nat.zero_testBit, show m + 1 + (i - (m + 1)) = i by omega] at hbit
    rw [decide_eq_false (by omega), Bool.false_and]
    by_cases hin : i ≤ hi
    · rw [decide_eq_true (by omega), Bool.true_and] at hbit
      rw [hbit, Bool.and_false]
    · rw [decide_eq_false (by omega), Bool.false_and]

/-- A class-C word is the word of its PAIR, its OP and its operand bits. -/
theorem wordC_of_fields {w : Nat} (hw : w < 2 ^ 32) (h30 : w.testBit 30 = false) :
    wordC (w.testBit 31) (nfld w 29 24) (nfld w 23 0) = w := by
  rw [Nat.testBit_eq_decide_div_mod_eq, decide_eq_false_iff_not] at h30
  rw [wordC, b2n_testBit, nfld_eq_div_mod, nfld_eq_div_mod]; omega

/-- A class-M word is the word of its OP and its operand bits. -/
theorem wordM_of_fields {w : Nat} (hw : w < 2 ^ 32) (h30 : w.testBit 30 = true) (h31 : w.testBit 31 = false) :
    wordM (nfld w 29 24) (nfld w 23 0) = w := by
  rw [Nat.testBit_eq_decide_div_mod_eq, decide_eq_true_iff] at h30
  rw [Nat.testBit_eq_decide_div_mod_eq, decide_eq_false_iff_not] at h31
  rw [wordM, nfld_eq_div_mod, nfld_eq_div_mod]; omega

/-- A field of two bits other than 3. -/
theorem lt_three_of_ne_three {w hi : Nat} (h : decide (nfld w (hi + 1) hi ≠ 3) = true) : nfld w (hi + 1) hi < 3 := by
  have hlt := nfld_lt w (hi + 1) hi
  rw [show hi + 1 - hi + 1 = 2 by omega] at hlt
  have := of_decide_eq_true h
  omega

/-- Bit 23 and the bits below it. -/
theorem b2n_testBit_add_nfld (w : Nat) : b2n (w.testBit 23) * 2 ^ 23 + nfld w 22 0 = nfld w 23 0 := by
  rw [b2n_testBit, nfld_eq_div_mod, nfld_eq_div_mod]; omega

section
variable {t w : Nat} (hw : w < 2 ^ 32)
include hw

theorem encode_wordC {op x : Nat} (h30 : w.testBit 30 = false) (hop : nfld w 29 24 = op) (hx : x = nfld w 23 0) :
    some (t, wordC (w.testBit 31) op x) = some (t, w) := by
  rw [hx, ← hop, wordC_of_fields hw h30]

theorem encode_wordM {op x : Nat} (h30 : w.testBit 30 = true) (h31 : w.testBit 31 = false) (hop : nfld w 29 24 = op)
    (hx : x = nfld w 23 0) : some (t, wordM op x) = some (t, w) := by
  rw [hx, ← hop, wordM_of_fields hw h30 h31]

variable (ht : t < 4096) {op : Nat} {i : Instr} (hop : nfld w 29 24 = op)
include ht hop

theorem tileWord_scalarDecode (h30 : w.testBit 30 = false) (h : scalarDecode t w op (w.testBit 31) = some i) :
    wellFormed i = true ∧ tileWord i = some (t, w) := by
  unfold scalarDecode at h
  split at h
  case h_1 =>
    obtain ⟨hz, rfl⟩ := whenOk_eq_some.mp h
    exact ⟨decide_eq_true ht, encode_wordC hw h30 hop (zeroF_iff.mp hz).symm⟩
  case h_2 | h_3 | h_4 | h_5 | h_6 | h_7 | h_8 | h_9 | h_10 | h_11 | h_12 | h_13 | h_14 =>
    obtain ⟨hz, rfl⟩ := whenOk_eq_some.mp h
    exact ⟨decide_eq_true ⟨ht, nfld_lt w 23 20, nfld_lt w 19 16, nfld_lt w 15 12⟩,
      encode_wordC hw h30 hop (fmtCR_nfld (zeroF_iff.mp hz))⟩
  case h_15 | h_16 | h_17 | h_18 =>
    obtain rfl := Option.some.inj h
    exact ⟨decide_eq_true ⟨ht, nfld_lt w 23 20, nfld_lt w 19 16, nfld_lt w 15 0⟩, encode_wordC hw h30 hop (fmtCI_nfld w)⟩
  case h_19 | h_20 | h_21 =>
    obtain ⟨hz, rfl⟩ := whenOk_eq_some.mp h
    have himm : nfld w 15 0 < 32 := nfld_low (zeroF_iff.mp hz) ▸ nfld_lt w 4 0
    exact ⟨decide_eq_true ⟨ht, nfld_lt w 23 20, nfld_lt w 19 16, himm⟩, encode_wordC hw h30 hop (fmtCI_nfld w)⟩
  case h_22 | h_23 =>
    obtain ⟨hz, rfl⟩ := whenOk_eq_some.mp h
    exact ⟨decide_eq_true ⟨ht, nfld_lt w 23 20, nfld_lt w 15 0⟩,
      encode_wordC hw h30 hop (zeroF_iff.mp hz ▸ fmtCI_nfld w)⟩
  case h_24 =>
    obtain ⟨hz, rfl⟩ := whenOk_eq_some.mp h
    obtain ⟨hd, himm⟩ := Bool.and_eq_true_iff.mp hz
    have hx := fmtCI_nfld w
    rw [zeroF_iff.mp hd, zeroF_iff.mp himm] at hx
    exact ⟨decide_eq_true ⟨ht, nfld_lt w 19 16⟩, encode_wordC hw h30 hop hx⟩
  case h_25 =>
    obtain ⟨hz, rfl⟩ := whenOk_eq_some.mp h
    obtain ⟨ha, hsel⟩ := Bool.and_eq_true_iff.mp hz
    exact ⟨decide_eq_true ⟨ht, nfld_lt w 23 20, Nat.lt_succ_of_le (of_decide_eq_true hsel)⟩,
      encode_wordC hw h30 hop (zeroF_iff.mp ha ▸ fmtCI_nfld w)⟩
  case h_26 => exact absurd h (by simp)

theorem tileWord_vectorDecode (h30 : w.testBit 30 = false) (h : vectorDecode t w op (w.testBit 31) = some i) :
    wellFormed i = true ∧ tileWord i = some (t, w) := by
  unfold vectorDecode at h
  split at h
  case h_1 | h_2 | h_5 | h_6 | h_7 =>
    obtain ⟨hz, rfl⟩ := whenOk_eq_some.mp h
    have h11 := zeroF_iff.mp hz
    have hx := fmtCV_nfld (nfld_sub_zero h11 11 4)
    rw [nfld_sub_zero h11 3 0] at hx
    exact ⟨decide_eq_true ⟨ht, nfld_lt w 23 20, nfld_lt w 19 16, nfld_lt w 15 12⟩, encode_wordC hw h30 hop hx⟩
  case h_3 | h_4 | h_9 | h_10 =>
    obtain ⟨hz, rfl⟩ := whenOk_eq_some.mp h
    have h15 := zeroF_iff.mp hz
    have hx := fmtCV_nfld (nfld_sub_zero h15 11 4)
    rw [nfld_sub_zero h15 15 12,
      nfld_sub_zero h15 3 0] at hx
    exact ⟨decide_eq_true ⟨ht, nfld_lt w 23 20, nfld_lt w 19 16⟩, encode_wordC hw h30 hop hx⟩
  case h_8 =>
    obtain ⟨hz, rfl⟩ := whenOk_eq_some.mp h
    have h15 := zeroF_iff.mp hz
    have hx := fmtCV_nfld (nfld_sub_zero h15 11 4)
    rw [nfld_sub_zero h15 15 12] at hx
    have hsh : nfld w 3 0 < 8 := nfld_low (nfld_sub_zero h15 3 3) ▸ nfld_lt w 2 0
    exact ⟨decide_eq_true ⟨ht, nfld_lt w 23 20, nfld_lt w 19 16, hsh⟩, encode_wordC hw h30 hop hx⟩
  case h_11 | h_12 =>
    obtain ⟨hz, rfl⟩ := whenOk_eq_some.mp h
    have h15 := zeroF_iff.mp hz
    have hx := fmtCV_nfld (nfld_sub_zero h15 11 4)
    rw [nfld_sub_zero h15 15 12] at hx
    exact ⟨decide_eq_true ⟨ht, nfld_lt w 23 20, nfld_lt w 19 16, nfld_lt w 3 0⟩, encode_wordC hw h30 hop hx⟩
  case h_13 | h_14 | h_15 | h_16 =>
    obtain ⟨hz, rfl⟩ := whenOk_eq_some.mp h
    exact ⟨decide_eq_true ⟨ht, nfld_lt w 23 22, nfld_lt w 21 18, nfld_lt w 17 14, nfld_lt w 13 10⟩,
      encode_wordC hw h30 hop (fmtCM_nfld (zeroF_iff.mp hz))⟩
  case h_17 | h_18 =>
    obtain ⟨hz, rfl⟩ := whenOk_eq_some.mp h
    have h13 := zeroF_iff.mp hz
    have hx := fmtCM_nfld (nfld_sub_zero h13 9 0)
    rw [nfld_sub_zero h13 13 10] at hx
    exact ⟨decide_eq_true ⟨ht, nfld_lt w 23 22, nfld_lt w 21 18, nfld_lt w 17 14⟩, encode_wordC hw h30 hop hx⟩
  case h_19 =>
    obtain ⟨hz, rfl⟩ := whenOk_eq_some.mp h
    have h12 := zeroF_iff.mp hz
    have hx := fmtCN_nfld (nfld_sub_zero h12 12 4)
    rw [nfld_sub_zero h12 3 0] at hx
    exact ⟨decide_eq_true ⟨ht, nfld_lt w 23 20, nfld_lt w 19 18, nfld_lt w 17 13⟩, encode_wordC hw h30 hop hx⟩
  case h_20 =>
    obtain ⟨hz, rfl⟩ := whenOk_eq_some.mp h
    have h17 := zeroF_iff.mp hz
    have hx := fmtCN_nfld (nfld_sub_zero h17 12 4)
    rw [nfld_sub_zero h17 17 13] at hx
    exact ⟨decide_eq_true ⟨ht, nfld_lt w 23 20, nfld_lt w 19 18, nfld_lt w 3 0⟩, encode_wordC hw h30 hop hx⟩
  case h_21 => exact absurd h (by simp)

theorem tileWord_moveDecode (h30 : w.testBit 30 = true) (h31 : w.testBit 31 = false) (h : moveDecode t w op = some i) :
    wellFormed i = true ∧ tileWord i = some (t, w) := by
  unfold moveDecode at h
  split at h
  case h_1 | h_2 | h_3 | h_4 =>
    obtain ⟨hz, rfl⟩ := whenOk_eq_some.mp h
    obtain ⟨h3, h2⟩ := Bool.and_eq_true_iff.mp hz
    have ham : nfld w 16 15 < 3 := lt_three_of_ne_three h3
    have himm : nfld w 14 0 < if nfld w 16 15 = 2 then 16 else 32768 := by
      split
      · next ha => exact nfld_low (zeroF_iff.mp (by simpa [ha] using h2)) ▸ nfld_lt w 3 0
      · exact nfld_lt w 14 0
    exact ⟨decide_eq_true ⟨ht, nfld_lt w 23 20, nfld_lt w 19 17, ham, himm⟩, encode_wordM hw h30 h31 hop (fmtML_nfld ham)⟩
  case h_5 | h_8 =>
    obtain ⟨hz, rfl⟩ := whenOk_eq_some.mp h
    obtain ⟨h3, h18⟩ := Bool.and_eq_true_iff.mp hz
    have hk : nfld w 23 22 < 3 := lt_three_of_ne_three h3
    have hx := fmtMA_nfld hk (nfld_sub_zero (zeroF_iff.mp h18) 18 16)
    rw [← nfld_low (m := 3) (nfld_sub_zero (zeroF_iff.mp h18) 15 4)] at hx
    exact ⟨decide_eq_true ⟨ht, hk, nfld_lt w 21 19, nfld_lt w 3 0⟩, encode_wordM hw h30 h31 hop hx⟩
  case h_6 =>
    obtain ⟨hz, rfl⟩ := whenOk_eq_some.mp h
    obtain ⟨h3, h18⟩ := Bool.and_eq_true_iff.mp hz
    have hk : nfld w 23 22 < 3 := lt_three_of_ne_three h3
    exact ⟨decide_eq_true ⟨ht, hk, nfld_lt w 21 19, nfld_lt w 15 0⟩,
      encode_wordM hw h30 h31 hop (fmtMA_nfld hk (zeroF_iff.mp h18))⟩
  case h_7 =>
    obtain ⟨hz, rfl⟩ := whenOk_eq_some.mp h
    obtain ⟨h23, h18⟩ := Bool.and_eq_true_iff.mp hz
    have hx := fmtMA_nfld (by rw [zeroF_iff.mp h23]; decide) (zeroF_iff.mp h18)
    rw [zeroF_iff.mp h23] at hx
    exact ⟨decide_eq_true ⟨ht, nfld_lt w 21 19, nfld_lt w 15 0⟩, encode_wordM hw h30 h31 hop hx⟩
  case h_9 =>
    obtain ⟨hz, rfl⟩ := whenOk_eq_some.mp h
    simp only [ne_eq, decide_not, Bool.and_eq_true, Bool.or_eq_true, Bool.not_eq_true', decide_eq_false_iff_not,
      decide_eq_true_eq] at hz
    obtain ⟨⟨h8, ha⟩, hb⟩ := hz
    exact ⟨decide_eq_true ⟨ht, Nat.lt_succ_of_le h8, ha, nfld_lt w 19 16, by omega, nfld_lt w 15 12, nfld_lt w 11 0⟩,
      encode_wordM hw h30 h31 hop (fmtMB_nfld (Nat.lt_succ_of_le h8))⟩
  case h_10 | h_12 =>
    obtain ⟨hz, rfl⟩ := whenOk_eq_some.mp h
    obtain ⟨h23, h15⟩ := Bool.and_eq_true_iff.mp hz
    have hx := fmtMB_nfld (w := w) (by rw [zeroF_iff.mp h23]; decide)
    rw [zeroF_iff.mp h23, zeroF_iff.mp h15] at hx
    exact ⟨decide_eq_true ⟨ht, nfld_lt w 19 16, nfld_lt w 11 0⟩, encode_wordM hw h30 h31 hop hx⟩
  case h_11 =>
    obtain ⟨hz, rfl⟩ := whenOk_eq_some.mp h
    obtain ⟨h23, h15⟩ := Bool.and_eq_true_iff.mp hz
    have hx := fmtMB_nfld (w := w) (by rw [zeroF_iff.mp h23]; decide)
    rw [zeroF_iff.mp h23, nfld_sub_zero (zeroF_iff.mp h15) 15 12, nfld_sub_zero (zeroF_iff.mp h15) 11 0] at hx
    exact ⟨decide_eq_true ⟨ht, nfld_lt w 19 16⟩, encode_wordM hw h30 h31 hop hx⟩
  case h_13 =>
    obtain ⟨hz, rfl⟩ := whenOk_eq_some.mp h
    exact ⟨decide_eq_true ⟨ht, nfld_lt w 15 0⟩, encode_wordM hw h30 h31 hop (nfld_low (zeroF_iff.mp hz))⟩
  case h_14 =>
    obtain ⟨hz, rfl⟩ := whenOk_eq_some.mp h
    exact ⟨decide_eq_true ⟨ht, nfld_lt w 3 0⟩, encode_wordM hw h30 h31 hop (nfld_low (zeroF_iff.mp hz))⟩
  case h_15 =>
    obtain ⟨hz, rfl⟩ := whenOk_eq_some.mp h
    simp only [Bool.and_eq_true, decide_eq_true_eq] at hz
    obtain ⟨⟨h23, h1⟩, h4⟩ := hz
    exact ⟨decide_eq_true ⟨ht, h1, h4⟩, encode_wordM hw h30 h31 hop (nfld_low (zeroF_iff.mp h23))⟩
  case h_16 =>
    obtain ⟨hz, rfl⟩ := whenOk_eq_some.mp h
    exact ⟨decide_eq_true ht, encode_wordM hw h30 h31 hop
      ((b2n_testBit w 0).trans ((nfld_eq_div_mod w 0 0).symm.trans (nfld_low (zeroF_iff.mp hz))))⟩
  case h_17 =>
    obtain ⟨hz, rfl⟩ := whenOk_eq_some.mp h
    exact ⟨decide_eq_true ⟨ht, nfld_lt w 7 0⟩, encode_wordM hw h30 h31 hop (nfld_low (zeroF_iff.mp hz))⟩
  case h_18 =>
    have hx := b2n_testBit_add_nfld w
    split at h
    · next h23 =>
      obtain ⟨hz, rfl⟩ := whenOk_eq_some.mp h
      rw [h23, ← nfld_low (m := 3) (zeroF_iff.mp hz)] at hx
      exact ⟨decide_eq_true ⟨ht, nfld_lt w 3 0⟩, encode_wordM hw h30 h31 hop hx⟩
    · next h23 =>
      obtain ⟨hz, rfl⟩ := whenOk_eq_some.mp h
      rw [eq_false_of_ne_true h23, ← nfld_low (m := 19) (zeroF_iff.mp hz)] at hx
      exact ⟨decide_eq_true ⟨ht, nfld_lt w 19 0⟩, encode_wordM hw h30 h31 hop hx⟩
  case h_19 | h_20 =>
    obtain ⟨hz, rfl⟩ := whenOk_eq_some.mp h
    exact ⟨decide_eq_true ht, encode_wordM hw h30 h31 hop (zeroF_iff.mp hz).symm⟩
  case h_21 => exact absurd h (by simp)

omit hop in
/-- The word of the well-formed instruction that a word spells is that word. -/
theorem tileWord_tileDecode (h : tileDecode t w = some i) : wellFormed i = true ∧ tileWord i = some (t, w) := by
  rw [tileDecode] at h
  split at h
  · next h30 =>
    split at h
    · exact absurd h (by simp)
    · next h31 => exact tileWord_moveDecode hw ht rfl h30 (eq_false_of_ne_true h31) h
  · next h30 =>
    split at h
    · exact tileWord_scalarDecode hw ht rfl (eq_false_of_ne_true h30) h
    · exact tileWord_vectorDecode hw ht rfl (eq_false_of_ne_true h30) h

end

/-! ### The listed words (R280, R301) -/

theorem isSome_scalarDecode {t w op : Nat} (p : Bool) (hop : nfld w 29 24 = op) (hlt : op < 0x20) :
    (scalarDecode t w op p).isSome = legalC w := by
  unfold scalarDecode
  split
  case h_26 =>
    simp only [imp_false] at *
    simp only [legalC, hop]
    repeat rw [if_neg (by omega)]
    rfl
  all_goals simp [isSome_whenOk, legalC, hop]

theorem isSome_vectorDecode {t w op : Nat} (p : Bool) (hop : nfld w 29 24 = op) (hlt : ¬ op < 0x20) :
    (vectorDecode t w op p).isSome = legalC w := by
  unfold vectorDecode
  split
  case h_21 =>
    simp only [imp_false] at *
    simp only [legalC, hop]
    repeat rw [if_neg (by omega)]
    rfl
  all_goals simp [isSome_whenOk, legalC, hop]

/-- The operand registers of an unconditional branch are zero. -/
theorem zeroF_branch_registers (w : Nat) : zeroF w 19 12 = (decide (nfld w 19 16 = 0) && decide (nfld w 15 12 = 0)) := by
  rw [zeroF, ← Bool.decide_and, decide_eq_decide]
  simp only [nfld_eq_div_mod]; omega

theorem isSome_moveDecode {t w op : Nat} (hop : nfld w 29 24 = op) (h31 : w.testBit 31 = false) :
    (moveDecode t w op).isSome = legalM w := by
  unfold moveDecode
  split
  case h_9 =>
    by_cases h0 : nfld w 23 20 = 0
    · simp [isSome_whenOk, legalM, hop, h31, h0, zeroF_branch_registers]
    · by_cases h6 : nfld w 23 20 ≤ 6
      · simp [isSome_whenOk, legalM, hop, h31, h0, h6]; omega
      · simp [isSome_whenOk, legalM, hop, h31, h0, h6, zeroF]
  case h_18 => split <;> simp [isSome_whenOk, legalM, *]
  case h_21 =>
    simp only [imp_false] at *
    simp only [legalM, hop]
    repeat rw [if_neg (by omega)]
    rw [Bool.and_false]
    rfl
  all_goals simp [isSome_whenOk, legalM, hop, h31]

theorem isSome_tileDecode (t w : Nat) : (tileDecode t w).isSome = legalWord w := by
  rw [tileDecode, legalWord, classM]
  split
  · split
    · next h31 => simp [legalM, h31]
    · next h31 => exact isSome_moveDecode rfl (eq_false_of_ne_true h31)
  · split
    · next hlt => exact isSome_scalarDecode _ rfl hlt
    · next hlt => exact isSome_vectorDecode _ rfl hlt

/-! ### A word that does not stand at the PC (R247) -/

section
variable {s : State} {t t' w op x y : Nat} (hne : progWord s t (tileAt s t).pc ≠ w)
include hne

theorem issueC_of_ne {p : Bool} {f : Tile → Tile} (hw : some (t', wordC p op y) = some (t, w)) (hxy : x = y) :
    issueC t' p (wordC p op x) f s = s := by
  obtain ⟨rfl, rfl⟩ := Prod.mk.inj (Option.some.inj hw)
  exact if_pos (.inr (.inr (hxy ▸ hne)))

theorem issueM_of_ne {p : Placing} {f : State → State} (hw : some (t', wordM op y) = some (t, w)) (hxy : x = y) :
    issueM t' (wordM op x) p f s = s := by
  obtain ⟨rfl, rfl⟩ := Prod.mk.inj (Option.some.inj hw)
  exact if_pos (.inr (hxy ▸ hne))

/-- A tile instruction acts by the issue of its word, and so not at all at another word. -/
theorem exec_of_progWord_ne {i : Instr} (hi : wellFormed i = true) (hw : tileWord i = some (t, w)) :
    exec i s = .next s := by
  cases i with
  | nop | add | sub | mul | min | max | and | or | xor | sll | srl | sra | slt | sltu | addi | li | lui | mts
  | vadd | vsub | vneg | vconj | vand | vor | vxor | vmov | vsplat | vext | vins
  | cmac | cmacz | cmacj | cmacjz | cmace | cmacez | narrow | narrows =>
    exact congrArg _ (issueC_of_ne hne hw rfl)
  | aseti | astep | jal | jr | dbnz | wait | kick | fence => exact congrArg _ (issueM_of_ne hne hw rfl)
  | andi t p d a imm | ori t p d a imm | xori t p d a imm | slli t p d a imm | srli t p d a imm | srai t p d a imm =>
    obtain ⟨-, -, -, hm⟩ := of_decide_eq_true hi
    exact congrArg _ (issueC_of_ne hne hw (fields_of_lt (by simpa using hm)))
  | mfs t p d sel =>
    obtain ⟨-, -, hs⟩ := of_decide_eq_true hi
    exact congrArg _ (issueC_of_ne hne hw (fields_of_lt (by simpa using hs)))
  | vsrai t p d a sh =>
    obtain ⟨-, -, -, hs⟩ := of_decide_eq_true hi
    exact congrArg _ (issueC_of_ne hne hw (fields_of_lt (by simpa using hs)))
  | amov t kind n sc | mfa t kind n sc =>
    obtain ⟨-, -, -, hs⟩ := of_decide_eq_true hi
    exact congrArg _ (issueM_of_ne hne hw (fields_of_lt (by simpa using hs)))
  | lw t r n am imm | sw t r n am imm | vld t r n am imm | vst t r n am imm =>
    obtain ⟨-, -, -, -, hm⟩ := of_decide_eq_true hi
    exact congrArg _ (issueM_of_ne hne hw (fields_of_lt (by simpa using hm)))
  | b t cond a b target =>
    obtain ⟨-, -, hca, ha, hcb, hb, -⟩ := of_decide_eq_true hi
    have ha' : a < if cond = 0 then 1 else 16 := by split <;> omega
    have hb' : b < if cond = 0 ∨ 7 ≤ cond then 1 else 16 := by split <;> omega
    exact congrArg _ (issueM_of_ne hne hw (fields_of_lt (by simp [ha', hb'])))
  | rep t n | repr t n | exit t n =>
    obtain ⟨-, hn⟩ := of_decide_eq_true hi
    exact congrArg _ (issueM_of_ne hne hw (fields_of_lt (by simpa using hn)))
  | lock t n =>
    obtain ⟨-, hn⟩ := of_decide_eq_true hi
    exact congrArg _ (issueM_of_ne hne hw (if_pos hn))
  | settmr t reg v =>
    obtain ⟨-, hv⟩ := of_decide_eq_true hi
    cases reg with
    | false => exact congrArg _ (issueM_of_ne hne hw ((fields_of_lt (by simpa using hv)).trans (Nat.zero_add v).symm))
    | true => exact congrArg _ (issueM_of_ne hne hw (fields_of_lt (by simpa using hv)))
  | _ => exact absurd hw (by simp [tileWord])

end

/-- Settles O40: a word is its class, PAIR, OP and operand fields, each format's fields are its operands, and a tile
instruction issues its own word alone. -/
theorem tileWordsDecodeAndEncodeAgree : Obligations.TileWordsDecodeAndEncodeAgree := by
  unfold Obligations.TileWordsDecodeAndEncodeAgree
  exact ⟨fun _ _ _ hi hw => tileDecode_tileWord hi hw, fun _ _ _ ht hw h => tileWord_tileDecode hw ht h,
    fun t w _ => isSome_tileDecode t w, fun _ _ _ _ hi hw hne => exec_of_progWord_ne hne hi hw⟩

end Sys2Proof.Machine
end


section
/-!
PROOF. The cycles of an item of energy class 8 are counted past the counters of the eight classes (10 R322, R331), so
that a step of its tile changes more than TileOnly allows (O35-O39).
-/
namespace Sys2Proof.Machine

/-- An item of energy class 8. The class comes from a field of three bits (10 R331 DSP_QCFG), so that no dispatcher
gives a tile such an item, but a state may hold one. -/
def class8Item : Item := { eclass := 8 }

/-- The word past the cycle counters of the eight energy classes of G0 (10 R331). -/
def pastClassCycles : Nat := dspBlk 0 + 0xC0

/-- Tile 0 running the item, with a word at its PC. -/
def class8Running (w : Nat) : State :=
  memPut (tileMem 0 + 0x10000) (toBytes 4 w)
    { State.reset with tiles := [(0, { state := 0x71, item := some class8Item })] }

/-- Tile 0 at the end of the save of the item, another one waiting to enter. -/
def class8Saving : State :=
  { State.reset with tiles := [(0, { state := 0x76, item := some class8Item, incoming := some {} })] }

/-- A command after which the word past the counters reads other than before does not change its tile alone. -/
theorem not_tileOnly_of_counted {c : Instr} {l : List Part} {s u : State} (hu : exec c s = .next u)
    (h : rd (after s (exec c s)) pastClassCycles ≠ rd s pastClassCycles) : ¬ TileOnly l s u 0 := by
  rintro ⟨-, -, hregs⟩
  rw [hu] at h
  refine h (hregs _ ?_)
  rw [pastClassCycles, Nat.zero_div]; omega

/-- NOP counts its cycle there. -/
theorem counted_nop : rd (after (class8Running 0) (exec (.nop 0 false) (class8Running 0))) pastClassCycles
    ≠ rd (class8Running 0) pastClassCycles := by decide

/-- Refutes O35: NOP is said to change its tile and the cycle counts of the grove's energy classes alone. The word of
DSP_CLS_CYC that its cycle raises is that of the item's class (10 R322), and no premise says that the class is one of
the eight: with class 8 the cycle is counted past the counters. -/
theorem not_scalarInstructionsGiveTheirResults : ¬ Obligations.ScalarInstructionsGiveTheirResults := by
  rintro ⟨-, -, -, hnop, -⟩
  obtain ⟨u, hu, ⟨-, -, -, -, -, honly⟩, -⟩ := hnop (class8Running 0) 0 false (by decide)
  exact not_tileOnly_of_counted hu counted_nop honly

/-- The word of VMOV v0, v0. -/
def vmovWord : Nat := 0x28000000

/-- VMOV counts its cycle there. -/
theorem counted_vmov :
    rd (after (class8Running vmovWord) (exec (.vmov 0 false 0 0) (class8Running vmovWord))) pastClassCycles
      ≠ rd (class8Running vmovWord) pastClassCycles := by decide

/-- Refutes O36: VMOV is said to change its tile and the cycle counts of the grove's energy classes alone. No premise
says that the class of the tile's item is one of the eight: with class 8 its cycle is counted past the counters. -/
theorem not_vectorInstructionsGiveTheirResults : ¬ Obligations.VectorInstructionsGiveTheirResults := by
  rintro ⟨hvec, -, -⟩
  obtain ⟨-, -, -, -, hvmov, -⟩ := hvec (class8Running vmovWord) 0 false 0 0 0 (by decide) (by decide) (by decide)
  obtain ⟨u, hu, ⟨-, -, -, -, -, honly⟩, -⟩ := hvmov (by decide)
  exact not_tileOnly_of_counted hu counted_vmov honly

/-- The word of ASETI a0, 0. -/
def asetiWord : Nat := 0x49000000

/-- ASETI counts its cycle there. -/
theorem counted_aseti :
    rd (after (class8Running asetiWord) (exec (.aseti 0 0 0 0) (class8Running asetiWord))) pastClassCycles
      ≠ rd (class8Running asetiWord) pastClassCycles := by decide

/-- Refutes O37: ASETI is said to change its tile and the cycle counts of the grove's energy classes alone. No premise
says that the class of the tile's item is one of the eight: with class 8 its cycle is counted past the counters. -/
theorem not_tileAddressAndMemoryInstructions : ¬ Obligations.TileAddressAndMemoryInstructions := by
  rintro ⟨haddr, -⟩
  obtain ⟨-, haseti, -, -⟩ := haddr (class8Running asetiWord) 0 0 0 0 (by decide) (by decide)
  obtain ⟨u, hu, ⟨-, -, -, -, -, honly⟩, -⟩ := haseti (by decide) (by decide)
  exact not_tileOnly_of_counted hu counted_aseti honly

/-- The word of KICK. -/
def kickWord : Nat := 0x63000000

/-- KICK counts its cycle there. -/
theorem counted_kick : rd (after (class8Running kickWord) (exec (.kick 0) (class8Running kickWord))) pastClassCycles
    ≠ rd (class8Running kickWord) pastClassCycles := by decide

/-- Refutes O38: KICK is said to change its tile and the cycle counts of the grove's energy classes alone. No premise
says that the class of the tile's item is one of the eight: with class 8 its cycle is counted past the counters. -/
theorem not_tileControlInstructions : ¬ Obligations.TileControlInstructions := by
  rintro ⟨-, -, -, hsync⟩
  obtain ⟨-, -, hkick, -, -⟩ := hsync (class8Running kickWord) 0 0
  obtain ⟨u, hu, ⟨-, -, -, -, -, honly⟩, -⟩ := hkick rfl (by decide)
  exact not_tileOnly_of_counted hu counted_kick honly

/-- The end of the save counts its 40 cycles there. -/
theorem counted_contextSaveDone :
    rd (after class8Saving (exec (.contextSaveDone 0) class8Saving)) pastClassCycles ≠ rd class8Saving pastClassCycles := by
  decide

/-- Refutes O39: the end of a context save is said to change its tile and the cycle counts of the grove's energy classes
alone. Its 40 cycles count for the class of the item saved (08 R272; 10 R322), and no premise says that the class is one
of the eight: with class 8 they are counted past the counters. -/
theorem not_tileItemsAnswersAndStops : ¬ Obligations.TileItemsAnswersAndStops := by
  rintro ⟨-, -, -, hitem, -⟩
  obtain ⟨-, -, -, -, hsave⟩ := hitem class8Saving 0 class8Item rfl rfl rfl (by decide)
  obtain ⟨u, hu, -, -, -, -, honly⟩ := hsave {} rfl rfl rfl
  exact not_tileOnly_of_counted hu counted_contextSaveDone honly

end Sys2Proof.Machine
end

section
/-!
PROOF. Answers that reach a station whose die the debugger has stopped wait in its inbox (18 R550): what the clauses on a
record's acknowledgement (O43) and on the end of a table walk (O44) leave out.
-/
namespace Sys2Proof.Machine

/-- The stop of a die stops each of its stations. -/
theorem stationStopped_of_stoppedDie {s : State} {id : Nat} (h : s.dbg.stoppedDies.contains (id / 256) = true) :
    stationStopped s id = true := by
  rw [stationStopped, h, Bool.true_or]

/-- What waits at a station of a stopped die is not taken from the inbox. -/
theorem inboxAt_of_stoppedDie {s : State} {i : Nat} {p : Packet} (hp : s.bough.inbox[i]? = some p)
    (h : s.dbg.stoppedDies.contains (p.dst / 256) = true) : inboxAt s i = none := by
  simp only [inboxAt, hp, stationStopped_of_stoppedDie h, if_true]

/-- Without a packet to take, no record is acknowledged. -/
theorem exec_cqRecordAck_of_none {s : State} {i : Nat} (h : inboxAt s i = none) :
    exec (.cqRecordAck i) s = .next s := by
  show execCqRecordAck i s = _
  simp only [execCqRecordAck, h]

/-- Without a packet to take, no walk goes on. -/
theorem exec_translationWalkDone_of_none {s : State} {i : Nat} (h : inboxAt s i = none) :
    exec (.translationWalkDone i) s = .next s := by
  show execTranslationWalkDone i s = _
  simp only [execTranslationWalkDone, h]

/-! ### A hub channel while the hub stands stopped -/

/-- The acknowledgement of a record's write, from a DRAM station of G0 to hub channel PH.0. -/
def recordAck : Packet := { op := 5, vc := 1, dst := 0x10, src := 0x801, tag := 0xFFFE }

/-- PH.0 in ACTIVE with the record of its ring's only descriptor written, the acknowledgement at its station, and the hub
among the dies that the debugger has stopped. DBG_DIE_STOP names grove and lane dies alone (18 R550), so that no run
comes here, but a state may list die 0. -/
def hubStoppedRecording : State :=
  { State.reset with
    pkg := { State.reset.pkg with held := false }
    regs := [(ptrBlk 0x10, 0x80000000), (ptrBlk 0x10 + 4, 0x81), (ptrBlk 0x10 + 0x10, 1), (ptrBlk 0x10 + 0x1C, 0x80000000)]
    porters := [(0x10, { recording := true, mover := true })]
    bough := { State.reset.bough with inbox := [recordAck] }
    dbg := { State.reset.dbg with stoppedDies := [0] } }

/-- The acknowledgement stays where it is. -/
theorem exec_cqRecordAck_hubStopped : exec (.cqRecordAck 0) hubStoppedRecording = .next hubStoppedRecording :=
  exec_cqRecordAck_of_none (inboxAt_of_stoppedDie (p := recordAck) rfl rfl)

/-- Refutes O43: its clause on a record's acknowledgement says that the inbox is then empty and CONS advanced. A station
of a die that the debugger has stopped takes nothing from its inbox. The premise that the channel's porters run excludes
a stopped grove, but not a stopped hub, and no premise says that the hub is none of the stopped dies. -/
theorem not_transfersMoveBeatByBeat : ¬ Obligations.TransfersMoveBeatByBeat := by
  rintro ⟨-, -, -, -, -, hack, -⟩
  have hoff : ptrOff hubStoppedRecording 0x10 = false := by decide
  have hrecv : ptrRecv hubStoppedRecording 0x10 = false := by decide
  have hactive : ptrState hubStoppedRecording 0x10 = 0x81 := by decide
  have hlast : ptrProd hubStoppedRecording 0x10 = (ptrCons hubStoppedRecording 0x10 + 1) % 65536 := by decide
  obtain ⟨t, ht, -, -, -, -, hinbox, -⟩ :=
    hack hubStoppedRecording 0x10 recordAck _ rfl hoff hrecv rfl rfl rfl rfl rfl rfl rfl rfl hactive hlast
  rw [exec_cqRecordAck_hubStopped] at ht
  obtain rfl := Host.Outcome.next.inj ht
  exact List.cons_ne_nil _ _ hinbox

/-! ### A table walk while its grove is stopped -/

/-- The walk of an external load of tile 0 under ASID 0, its level-1 read in flight. -/
def loadWalk : Walk := { id := 0, grove := 0, asid := 0, va := 0, write := false, user := .tile 0, sent := true }

/-- The answer to the read: a level-1 entry with V = 0. -/
def invalidEntry : Packet := { op := 4, vc := 1, dst := 0x800, src := 0x801, len := 8, data := List.replicate 8 0 }

/-- G0 in RUN, its clocks stopped by DBG_DIE_STOP (18 R550). Tile 0 waits for its translation, and the answer to the walk's
read has arrived at station 0x00 of the grove. -/
def groveStoppedWalking : State :=
  { State.reset with
    pkg := { State.reset.pkg with held := false }
    regs := [(clkBlk 8 + 0x18, 0x30)]
    tiles := [(0, { state := 0x71, item := some {}, stall := some (.xlate 0) })]
    xlt := { State.reset.xlt with walks := [loadWalk], walkId := 1 }
    bough := { State.reset.bough with inbox := [invalidEntry] }
    dbg := { State.reset.dbg with stoppedDies := [8] } }

/-- The walk does not go on. -/
theorem exec_translationWalkDone_groveStopped :
    exec (.translationWalkDone 0) groveStoppedWalking = .next groveStoppedWalking :=
  exec_translationWalkDone_of_none (inboxAt_of_stoppedDie (p := invalidEntry) rfl rfl)

/-- Refutes O44: its clause on a level-1 entry with V = 0 says that the walk has ended. The debugger's stop of a grove
stops the walker's clock with every other one of the die, and the answer waits at the stopped station (18 R550). No
premise of the clauses on walks says that the grove is not stopped. -/
theorem not_channelsStopUnitsCloseAndWalksEnd : ¬ Obligations.ChannelsStopUnitsCloseAndWalksEnd := by
  rintro ⟨-, -, -, hwalk, -⟩
  obtain ⟨-, -, hinvalid⟩ :=
    hwalk groveStoppedWalking 0 0 invalidEntry loadWalk (by decide) rfl rfl rfl rfl rfl rfl rfl rfl rfl rfl rfl
  obtain ⟨t, ht, hwalks, -⟩ := hinvalid 0 rfl rfl rfl rfl rfl
  rw [exec_translationWalkDone_groveStopped] at ht
  obtain rfl := Host.Outcome.next.inj ht
  exact List.cons_ne_nil _ _ hwalks

end Sys2Proof.Machine
end
